-- ==== Sys2Proof/Word.lean ====
section
/-! DEFINITION. The word types of the module and their plainest arithmetic. -/

namespace Sys2Proof

/-- A byte of memory (R90: memory is little-endian and byte-addressed). -/
abbrev Byte := BitVec 8

/-- A Tinker register or a shared-cache word (R76, R102). -/
abbrev Word := BitVec 32

/-- A control-space register (R11: every register is 64 bits wide). -/
abbrev Reg64 := BitVec 64

/-- A fault code (R14: 16 bits). -/
abbrev Code := BitVec 16

end Sys2Proof
end

