-- ==== Sys2Proof/Syntax.lean ====
section
/-! DEFINITION. The commands the module takes: one constructor per row of the opcode table, with its operands, and the
structured messages that some of them carry. -/

namespace Sys2Proof

/-- The issuer of an access (R281, R417): the Clerk, the pool controller, a tenant, or nobody (a cell whose group no tenant
holds). -/
inductive Who where
  | clerk
  | pool
  | tenant (t : Fin 16)
  | nobody
  deriving DecidableEq, Repr

/-- The hand-overs of a chained command (R125). -/
inductive Handover where
  | fetchB
  | fetchA
  | expand
  | multiply
  | transform
  | compress
  deriving DecidableEq, Repr

/-- A unit that SWRST resets (R436). -/
inductive ResetUnit where
  | cell (c : Fin 256)
  | stack (m : Fin 12)
  | scecy (p : Fin 24)
  | eth (e : Fin 4)
  | weaver (h : Fin 2)
  | carters (h : Fin 2)
  | flash
  deriving DecidableEq, Repr

/-- What a collective packet carries (R335, R339, R340, R346, R348, R351, R366). The manual names the contents, not their
places in the packet (log entry 30). -/
inductive CollPart where
  /-- Phase 1 of a REDUCE: combined exponent proposals and the non-finite flag (R339). -/
  | proposals (exps : List Int) (flag : Bool)
  /-- Phase 1 result sent back along the same paths (R339). -/
  | exponents (exps : List Int) (flag : Bool)
  /-- Phase 2 of a REDUCE: one block of a partial with its carried sum (R340, R344). -/
  | block (shard blk : Nat) (xs : List Int) (csum : Nat)
  /-- Words of a VOTE on their way to the combination (R346). -/
  | words (ws : List (BitVec 64))
  /-- The result of a VOTE (R346). -/
  | result (ws : List (BitVec 64))
  /-- A gathered shard with its version tag (R347, R348). -/
  | shard (j : Nat) (bytes : List (BitVec 8)) (tagEpoch tagStep : BitVec 32) (tagCsum : BitVec 64)
  /-- The data of one inbound move of a PERMUTE (R351). -/
  | moveData (entry : Nat) (bytes : List (BitVec 8))
  /-- The landing vote of a PERMUTE (R351). -/
  | landed (ok : Bool)
  /-- Readiness and causes of a voting commit (R366). -/
  | ready (ok doomed nonfinite : Bool)
  /-- The outcome of a voting commit (R366). -/
  | outcome (ok doomed nonfinite : Bool)
  deriving DecidableEq, Repr

/-- A collective packet: its sender's group index, its tenant, channel and number (R331), its epoch (R336) and the stage of
the combination it belongs to (R345). -/
structure CollMsg where
  sender : Nat
  t : Fin 16
  ch : Fin 16
  num : Nat
  epoch : BitVec 32
  stage : Nat
  body : CollPart
  deriving DecidableEq, Repr

/-- A multicast data packet (R323), with the FANOUT that governs the stream (R353). -/
structure McastMsg where
  t : Fin 16
  ch : Fin 16
  num : Nat
  epoch : BitVec 32
  fanout : Nat
  off : Nat
  bytes : List (BitVec 8)
  deriving DecidableEq, Repr

/-- A receiver's credit: the bytes it has written contiguously from the start (R323). -/
structure McastCreditMsg where
  t : Fin 16
  ch : Fin 16
  num : Nat
  member : Nat
  count : Nat
  deriving DecidableEq, Repr

/-- What could not be corrected when a flit arrives (R309): whether a byte of the flit lies in such a codeword, and how many such codewords
end with it. A codeword spans many flits. -/
structure FecLoss where
  here : Bool
  words : Nat
  deriving DecidableEq, Repr

/-- What a CONTROL packet carries (R324, R333, R382, R429, R450). The manual names the contents, not their places (log
entry 30). -/
inductive CtlMsg where
  /-- Notice to a detached receiver (R324). -/
  | detach (t ch : Fin 16) (num : Nat)
  /-- Abort of a collective: fault code, or a cancel mark (R333). -/
  | abort (t ch : Fin 16) (num : Nat) (fault : BitVec 16) (cancelled : Bool)
  /-- A pairing request with the sender's feed (R382). -/
  | pairAsk (t : Fin 16) (feed : BitVec 16)
  /-- The answer to a pairing request (R382). -/
  | pairAnswer (t : Fin 16) (feed : BitVec 16)
  /-- A relayed owner command (R429). -/
  | ownerCmd (msg : List (BitVec 8))
  /-- The reply to a relayed owner command (R429). -/
  | ownerReply (op : BitVec 16) (seq : BitVec 64) (status : BitVec 16)
  deriving DecidableEq, Repr

/-- What this module sends in packets of OP 4 to 7 (R315). -/
inductive Msg where
  /-- A collective packet (OP 4). -/
  | coll (m : CollMsg)
  /-- A credit grant of a member that has started its command, with its opcode (R332, OP 4). -/
  | grant (t ch : Fin 16) (num member : Nat) (opcode : BitVec 16)
  /-- Multicast data and its credits (R323, OP 5 and 6). -/
  | mcast (m : McastMsg)
  | credit (m : McastCreditMsg)
  /-- A CONTROL packet (OP 7). -/
  | ctl (m : CtlMsg)
  /-- An image forwarded along a chain, with its position, the chain and the results so far, and a result list sent back (R450). -/
  | image (pos : Nat) (image : List (BitVec 8)) (chain : List Nat) (results : List (Nat × Nat))
  | results (results : List (Nat × Nat))
  deriving DecidableEq, Repr

/-- What an Ethernet frame holds above its MAC header (R395): ARP and neighbour discovery with the address asked for; an IP packet with
its destination, whether it is whole and without options and extension headers, and its UDP destination port, if it is UDP; or
another frame. -/
inductive EthNet where
  | arp (request : Bool) (target : BitVec 32)
  | neighbour (solicit : Bool) (target : BitVec 128)
  | ip4 (dst : BitVec 32) (plain : Bool) (udp : Option (BitVec 16))
  | ip6 (dst : BitVec 128) (plain : Bool) (udp : Option (BitVec 16))
  | other
  deriving DecidableEq, Repr

/-- An Ethernet frame as it arrives (R395, R396). -/
structure EthFrame where
  /-- Destination MAC address. -/
  mac : BitVec 48
  /-- VID of its IEEE 802.1Q tag. -/
  vlan : Option (BitVec 12)
  /-- Bytes of the frame. -/
  len : Nat
  net : EthNet
  srcIp : BitVec 128
  srcPort : BitVec 16
  /-- Marked CE (R408). -/
  ce : Bool
  /-- The 16-byte encapsulation header (R396). -/
  hdr : List (BitVec 8)
  /-- What follows the header, without the tag: ciphertext for protected packets, the message segment otherwise. -/
  body : List (BitVec 8)
  /-- The 16-byte tag of a protected packet (R397). -/
  tag : List (BitVec 8)
  deriving DecidableEq, Repr

/-- A HELLO message with the source it came from (R400). -/
structure HelloMsg where
  tenant : BitVec 8
  sack : Bool
  nonce : List (BitVec 8)
  point : List (BitVec 8)
  kemKey : List (BitVec 8)
  srcIp : BitVec 128
  srcPort : BitVec 16
  deriving DecidableEq, Repr

/-- An entry of QP_OPEN (R400). -/
structure QpEntry where
  hostQpn : BitVec 24
  hostIp : BitVec 128
  hostPort : BitVec 16
  port : BitVec 8
  startPsn : BitVec 24
  pmtu : BitVec 8
  deriving DecidableEq, Repr

/-- What the tests of a boot find (R447, R461): physical outcomes that no rule derives from the state. -/
structure BootObs where
  /-- Cells that fail the boot test (R48). -/
  badCells : List (Fin 256)
  /-- Regions whose channels fail the boot test (R267). -/
  badRegions : List (Fin 12 × Fin 8)
  /-- Pins that PHY training fails: stack, channel, pin 0-17 (R264). -/
  badPins : List (Fin 12 × Fin 128 × Fin 18)
  /-- Scecy ports that train, with their partner's module and port (R328). -/
  ports : List (Fin 24 × BitVec 16 × BitVec 5)
  /-- Ethernet ports that train (R419). -/
  eths : List (Fin 4)
  /-- The six bytes of the tray record; none where the tray does not acknowledge (R461). -/
  tray : Option (List (BitVec 8))
  /-- SLOT_ID pins (R459). -/
  slotId : BitVec 3
  deriving DecidableEq, Repr

/-- The commands of the module, one per row of the opcode table. -/
inductive Instr where
  /-- ADD: Tinker scalar add of rs1 and rs2 modulo 2^32 into rd (R88). -/
  | add (k : Fin 25600) (rd rs1 rs2 : BitVec 5)
  /-- SUB: Tinker scalar subtract modulo 2^32 into rd (R88). -/
  | sub (k : Fin 25600) (rd rs1 rs2 : BitVec 5)
  /-- AND: Tinker bitwise AND of two registers (R88). -/
  | and (k : Fin 25600) (rd rs1 rs2 : BitVec 5)
  /-- OR: Tinker bitwise OR of two registers (R88). -/
  | or (k : Fin 25600) (rd rs1 rs2 : BitVec 5)
  /-- XOR: Tinker bitwise XOR of two registers (R88). -/
  | xor (k : Fin 25600) (rd rs1 rs2 : BitVec 5)
  /-- SLL: Tinker logical left shift by rs2[4:0] (R88). -/
  | sll (k : Fin 25600) (rd rs1 rs2 : BitVec 5)
  /-- SRL: Tinker logical right shift by rs2[4:0] (R88). -/
  | srl (k : Fin 25600) (rd rs1 rs2 : BitVec 5)
  /-- SRA: Tinker arithmetic right shift by rs2[4:0] (R88). -/
  | sra (k : Fin 25600) (rd rs1 rs2 : BitVec 5)
  /-- SLT: Tinker signed set-less-than into rd (R88). -/
  | slt (k : Fin 25600) (rd rs1 rs2 : BitVec 5)
  /-- SLTU: Tinker unsigned set-less-than into rd (R88). -/
  | sltu (k : Fin 25600) (rd rs1 rs2 : BitVec 5)
  /-- MUL: Tinker multiply keeping the low 32 bits (R88). -/
  | mul (k : Fin 25600) (rd rs1 rs2 : BitVec 5)
  /-- MULH: Tinker signed multiply keeping the high 32 bits (R88). -/
  | mulh (k : Fin 25600) (rd rs1 rs2 : BitVec 5)
  /-- MULHU: Tinker unsigned multiply keeping the high 32 bits (R88). -/
  | mulhu (k : Fin 25600) (rd rs1 rs2 : BitVec 5)
  /-- MIN: Tinker signed minimum of two registers (R88). -/
  | min (k : Fin 25600) (rd rs1 rs2 : BitVec 5)
  /-- MAX: Tinker signed maximum of two registers (R88). -/
  | max (k : Fin 25600) (rd rs1 rs2 : BitVec 5)
  /-- ADDI: Tinker add of a sign-extended immediate (R88). -/
  | addi (k : Fin 25600) (rd rs1 : BitVec 5) (imm : BitVec 16)
  /-- ANDI: Tinker AND with a zero-extended immediate (R88). -/
  | andi (k : Fin 25600) (rd rs1 : BitVec 5) (imm : BitVec 16)
  /-- ORI: Tinker OR with a zero-extended immediate (R88). -/
  | ori (k : Fin 25600) (rd rs1 : BitVec 5) (imm : BitVec 16)
  /-- XORI: Tinker XOR with a zero-extended immediate (R88). -/
  | xori (k : Fin 25600) (rd rs1 : BitVec 5) (imm : BitVec 16)
  /-- SLTI: Tinker signed compare with a sign-extended immediate (R88). -/
  | slti (k : Fin 25600) (rd rs1 : BitVec 5) (imm : BitVec 16)
  /-- SLTIU: Tinker unsigned compare with a sign-extended immediate (R88). -/
  | sltiu (k : Fin 25600) (rd rs1 : BitVec 5) (imm : BitVec 16)
  /-- SHI: Tinker shift by an immediate amount and kind (R88). -/
  | shi (k : Fin 25600) (rd rs1 : BitVec 5) (imm : BitVec 16)
  /-- LUI: Tinker loads imm16 shifted into the upper half of rd (R88). -/
  | lui (k : Fin 25600) (rd : BitVec 5) (imm : BitVec 16)
  /-- BEQ: Tinker branch if two registers are equal (R89). -/
  | beq (k : Fin 25600) (rs1 rs2 : BitVec 5) (off : BitVec 16)
  /-- BNE: Tinker branch if two registers differ (R89). -/
  | bne (k : Fin 25600) (rs1 rs2 : BitVec 5) (off : BitVec 16)
  /-- BLT: Tinker branch if signed less than (R89). -/
  | blt (k : Fin 25600) (rs1 rs2 : BitVec 5) (off : BitVec 16)
  /-- BGE: Tinker branch if signed greater or equal (R89). -/
  | bge (k : Fin 25600) (rs1 rs2 : BitVec 5) (off : BitVec 16)
  /-- BLTU: Tinker branch if unsigned less than (R89). -/
  | bltu (k : Fin 25600) (rs1 rs2 : BitVec 5) (off : BitVec 16)
  /-- BGEU: Tinker branch if unsigned greater or equal (R89). -/
  | bgeu (k : Fin 25600) (rs1 rs2 : BitVec 5) (off : BitVec 16)
  /-- BP: Tinker branch on a predicate register with condition ANY, ALL or NONE (R89). -/
  | bp (k : Fin 25600) (p : BitVec 3) (cond : BitVec 2) (off : BitVec 16)
  /-- JAL: Tinker jump relative, writing the link address (R89). -/
  | jal (k : Fin 25600) (rd : BitVec 5) (off : BitVec 21)
  /-- JALR: Tinker jump to register plus immediate, writing the link address (R89). -/
  | jalr (k : Fin 25600) (rd rs1 : BitVec 5) (imm : BitVec 16)
  /-- LI: Long form loading a 32-bit immediate into rd (R87). -/
  | li (k : Fin 25600) (rd : BitVec 5) (imm : BitVec 32)
  /-- LIP: Long form loading a register pair with a 48-bit address (R87). -/
  | lip (k : Fin 25600) (rd : BitVec 5) (hi : BitVec 16) (imm : BitVec 32)
  /-- ISSUE_L: Long form of ISSUE with the descriptor offset in imm32 (R87). -/
  | issueL (k : Fin 25600) (rd : BitVec 5) (q : BitVec 4) (w : Bool) (imm : BitVec 32)
  /-- JA: Long form absolute jump with link (R87). -/
  | ja (k : Fin 25600) (rd : BitVec 5) (imm : BitVec 32)
  /-- LOAD: Tinker load from a short address into a register (R90). -/
  | load (k : Fin 25600) (rd base : BitVec 5) (width : BitVec 2) (u : Bool) (off : BitVec 13)
  /-- STORE: Tinker store to a short address (R90). -/
  | store (k : Fin 25600) (rd base : BitVec 5) (width : BitVec 2) (u : Bool) (off : BitVec 13)
  /-- LOADG: Tinker load from a global address (R90). -/
  | loadg (k : Fin 25600) (rd base : BitVec 5) (width : BitVec 2) (u : Bool) (off : BitVec 13)
  /-- STOREG: Tinker store to a global address (R90). -/
  | storeg (k : Fin 25600) (rd base : BitVec 5) (width : BitVec 2) (u : Bool) (off : BitVec 13)
  /-- GLOBAL_ACCESS_RESPONSE: The response of an outstanding Tinker global access, atomic or history instruction returns and completes it, or faults it (R110). -/
  | globalAccessResponse (k : Fin 25600)
  /-- FAI: Atomic fetch-and-increment of a shared-cache word (R102). -/
  | fai (k : Fin 25600) (rd base : BitVec 5)
  /-- FAA: Atomic fetch-and-add of a shared-cache word (R102). -/
  | faa (k : Fin 25600) (rd base rs2 : BitVec 5)
  /-- CAS: Atomic compare-and-swap of a shared-cache word (R102). -/
  | cas (k : Fin 25600) (rd base rs2 rs3 : BitVec 5)
  /-- HMERGE: Tinker merges a value into a fallback-history record (R105). -/
  | hmerge (k : Fin 25600) (rd base rs2 : BitVec 5)
  /-- HPRED: Tinker predicts a block exponent from a history record (R105). -/
  | hpred (k : Fin 25600) (rd base rs2 : BitVec 5)
  /-- SHARED_CACHE_SLICE_OP: A slice performs one arriving load, store, atomic, merge or tally operation on a word, in the fixed requester order (R103). -/
  | sharedCacheSliceOp (sl : Fin 64)
  /-- VLD: Tinker vector load of eight elements, embedding logarithmic codes into LX32 (R91). -/
  | vld (k : Fin 25600) (vd base rk : BitVec 5) (pg fmt : BitVec 3) (g : Bool) (off : BitVec 4)
  /-- VST: Tinker vector store of eight lanes, coding LX32 lanes to a logarithmic format (R91). -/
  | vst (k : Fin 25600) (vd base rk : BitVec 5) (pg fmt : BitVec 3) (g : Bool) (off : BitVec 4)
  /-- VFADD: FP32 vector add (R94). -/
  | vfadd (k : Fin 25600) (vd va vb : BitVec 5) (pg : BitVec 3)
  /-- VFSUB: FP32 vector subtract (R94). -/
  | vfsub (k : Fin 25600) (vd va vb : BitVec 5) (pg : BitVec 3)
  /-- VFMUL: FP32 vector multiply (R94). -/
  | vfmul (k : Fin 25600) (vd va vb : BitVec 5) (pg : BitVec 3)
  /-- VFMA: FP32 vector fused multiply-add (R94). -/
  | vfma (k : Fin 25600) (vd va vb : BitVec 5) (pg : BitVec 3)
  /-- VFMIN: FP32 vector IEEE minimum (R94). -/
  | vfmin (k : Fin 25600) (vd va vb : BitVec 5) (pg : BitVec 3)
  /-- VFMAX: FP32 vector IEEE maximum (R94). -/
  | vfmax (k : Fin 25600) (vd va vb : BitVec 5) (pg : BitVec 3)
  /-- VFABS: FP32 vector absolute value without flags (R94). -/
  | vfabs (k : Fin 25600) (vd va : BitVec 5) (pg : BitVec 3)
  /-- VFNEG: FP32 vector negation without flags (R94). -/
  | vfneg (k : Fin 25600) (vd va : BitVec 5) (pg : BitVec 3)
  /-- VADD: Integer vector add modulo 2^32 (R95). -/
  | vadd (k : Fin 25600) (vd va vb : BitVec 5) (pg : BitVec 3)
  /-- VSUB: Integer vector subtract modulo 2^32 (R95). -/
  | vsub (k : Fin 25600) (vd va vb : BitVec 5) (pg : BitVec 3)
  /-- VMUL: Integer vector multiply, low 32 bits (R95). -/
  | vmul (k : Fin 25600) (vd va vb : BitVec 5) (pg : BitVec 3)
  /-- VAND: Integer vector bitwise AND (R95). -/
  | vand (k : Fin 25600) (vd va vb : BitVec 5) (pg : BitVec 3)
  /-- VOR: Integer vector bitwise OR (R95). -/
  | vor (k : Fin 25600) (vd va vb : BitVec 5) (pg : BitVec 3)
  /-- VXOR: Integer vector bitwise XOR (R95). -/
  | vxor (k : Fin 25600) (vd va vb : BitVec 5) (pg : BitVec 3)
  /-- VSLL: Integer vector logical left shift (R95). -/
  | vsll (k : Fin 25600) (vd va vb : BitVec 5) (pg : BitVec 3)
  /-- VSRL: Integer vector logical right shift (R95). -/
  | vsrl (k : Fin 25600) (vd va vb : BitVec 5) (pg : BitVec 3)
  /-- VSRA: Integer vector arithmetic right shift (R95). -/
  | vsra (k : Fin 25600) (vd va vb : BitVec 5) (pg : BitVec 3)
  /-- VMIN: Integer vector signed minimum (R95). -/
  | vmin (k : Fin 25600) (vd va vb : BitVec 5) (pg : BitVec 3)
  /-- VMAX: Integer vector signed maximum (R95). -/
  | vmax (k : Fin 25600) (vd va vb : BitVec 5) (pg : BitVec 3)
  /-- LMUL: LX32 vector multiply by adding logarithms (R96). -/
  | lmul (k : Fin 25600) (vd va vb : BitVec 5) (pg : BitVec 3)
  /-- LDIV: LX32 vector divide by subtracting logarithms (R96). -/
  | ldiv (k : Fin 25600) (vd va vb : BitVec 5) (pg : BitVec 3)
  /-- LADD: LX32 vector addition with rounding to the g = 10 grid (R96). -/
  | ladd (k : Fin 25600) (vd va vb : BitVec 5) (pg : BitVec 3)
  /-- LSUB: LX32 vector subtraction (R96). -/
  | lsub (k : Fin 25600) (vd va vb : BitVec 5) (pg : BitVec 3)
  /-- LHALF: LX32 vector square root by halving the logarithm (R96). -/
  | lhalf (k : Fin 25600) (vd va : BitVec 5) (pg : BitVec 3)
  /-- LNEGX: LX32 vector reciprocal by negating the logarithm (R96). -/
  | lnegx (k : Fin 25600) (vd va : BitVec 5) (pg : BitVec 3)
  /-- EXP2_X: Exact exp2 of a Q15.16 value into LX32 (R97). -/
  | exp2X (k : Fin 25600) (vd va : BitVec 5) (pg : BitVec 3) (xc : Bool)
  /-- LOG2_X: Exact log2 of an LX32 lane into Q15.16 (R97). -/
  | log2X (k : Fin 25600) (vd va : BitVec 5) (pg : BitVec 3) (xc : Bool)
  /-- EXP2_F: FP32 exp2 by range reduction and polynomial, Sildane-exact with XC (R148). -/
  | exp2F (k : Fin 25600) (vd va : BitVec 5) (pg : BitVec 3) (xc : Bool)
  /-- LOG2_F: FP32 log2 by range reduction and polynomial, Sildane-exact with XC (R149). -/
  | log2F (k : Fin 25600) (vd va : BitVec 5) (pg : BitVec 3) (xc : Bool)
  /-- F2X: Convert FP32 lanes to LX32 (R98). -/
  | f2x (k : Fin 25600) (vd va : BitVec 5) (pg : BitVec 3)
  /-- X2F: Convert LX32 lanes to FP32 (R98). -/
  | x2f (k : Fin 25600) (vd va : BitVec 5) (pg : BitVec 3)
  /-- F2I: Convert FP32 lanes to INT32 with clamping (R98). -/
  | f2i (k : Fin 25600) (vd va : BitVec 5) (pg : BitVec 3)
  /-- I2F: Convert INT32 lanes to FP32 (R98). -/
  | i2f (k : Fin 25600) (vd va : BitVec 5) (pg : BitVec 3)
  /-- Q2F: Convert Q15.16 lanes to FP32 (R98). -/
  | q2f (k : Fin 25600) (vd va : BitVec 5) (pg : BitVec 3)
  /-- F2Q: Convert FP32 lanes to Q15.16 with clamping (R98). -/
  | f2q (k : Fin 25600) (vd va : BitVec 5) (pg : BitVec 3)
  /-- FEQ: FP32 equality compare into a predicate (R99). -/
  | feq (k : Fin 25600) (pd va vb : BitVec 5) (pg : BitVec 3)
  /-- FLT: FP32 less-than compare into a predicate (R99). -/
  | flt (k : Fin 25600) (pd va vb : BitVec 5) (pg : BitVec 3)
  /-- FLE: FP32 less-or-equal compare into a predicate (R99). -/
  | fle (k : Fin 25600) (pd va vb : BitVec 5) (pg : BitVec 3)
  /-- IEQ: Integer equality compare into a predicate (R99). -/
  | ieq (k : Fin 25600) (pd va vb : BitVec 5) (pg : BitVec 3)
  /-- ILT: Signed integer less-than compare into a predicate (R99). -/
  | ilt (k : Fin 25600) (pd va vb : BitVec 5) (pg : BitVec 3)
  /-- ILTU: Unsigned integer less-than compare into a predicate (R99). -/
  | iltu (k : Fin 25600) (pd va vb : BitVec 5) (pg : BitVec 3)
  /-- LEQ: LX32 equality compare into a predicate (R99). -/
  | leq (k : Fin 25600) (pd va vb : BitVec 5) (pg : BitVec 3)
  /-- LLT: LX32 less-than compare into a predicate (R99). -/
  | llt (k : Fin 25600) (pd va vb : BitVec 5) (pg : BitVec 3)
  /-- LLE: LX32 less-or-equal compare into a predicate (R99). -/
  | lle (k : Fin 25600) (pd va vb : BitVec 5) (pg : BitVec 3)
  /-- PAND: AND of two predicate registers (R99). -/
  | pand (k : Fin 25600) (pd pa pb : BitVec 5)
  /-- POR: OR of two predicate registers (R99). -/
  | por (k : Fin 25600) (pd pa pb : BitVec 5)
  /-- PXOR: XOR of two predicate registers (R99). -/
  | pxor (k : Fin 25600) (pd pa pb : BitVec 5)
  /-- PNOT: Inversion of a predicate register (R99). -/
  | pnot (k : Fin 25600) (pd pa : BitVec 5)
  /-- VMV: Vector register move (R100). -/
  | vmv (k : Fin 25600) (vd va : BitVec 5) (pg : BitVec 3)
  /-- VBCAST: Broadcast a general register into active vector lanes (R100). -/
  | vbcast (k : Fin 25600) (vd ga : BitVec 5) (pg : BitVec 3)
  /-- VEXT: Extract one vector lane into a general register (R100). -/
  | vext (k : Fin 25600) (gd va : BitVec 5) (lane : BitVec 3)
  /-- PTOG: Copy a predicate register into a general register (R100). -/
  | ptog (k : Fin 25600) (gd pa : BitVec 5)
  /-- GTOP: Copy a general register into a predicate register (R100). -/
  | gtop (k : Fin 25600) (pd ga : BitVec 5)
  /-- VFRSUM: FP32 tree-sum reduction of vector lanes (R100). -/
  | vfrsum (k : Fin 25600) (gd va : BitVec 5) (pg : BitVec 3)
  /-- VFRMAX: FP32 maximum reduction of vector lanes (R100). -/
  | vfrmax (k : Fin 25600) (gd va : BitVec 5) (pg : BitVec 3)
  /-- VIRSUM: INT32 sum reduction of vector lanes (R100). -/
  | virsum (k : Fin 25600) (gd va : BitVec 5) (pg : BitVec 3)
  /-- VLRMAX: LX32 maximum reduction of vector lanes (R100). -/
  | vlrmax (k : Fin 25600) (gd va : BitVec 5) (pg : BitVec 3)
  /-- CSRR: Serialising read of a control register (R108). -/
  | csrr (k : Fin 25600) (rd : BitVec 5) (csr : BitVec 8)
  /-- CSRW: Serialising write of a control register (R108). -/
  | csrw (k : Fin 25600) (rs1 : BitVec 5) (csr : BitVec 8)
  /-- CSRC: Serialising clear of W1C bits of a control register (R108). -/
  | csrc (k : Fin 25600) (rs1 : BitVec 5) (csr : BitVec 8)
  /-- FENCE_T: Tinker waits until all its earlier accesses have completed (R81). -/
  | fenceT (k : Fin 25600)
  /-- IFLUSH: Tinker empties its instruction buffer (R82). -/
  | iflush (k : Fin 25600)
  /-- HALT: Tinker clears its own RUN bit and stops (R83). -/
  | halt (k : Fin 25600)
  /-- TRAP: Tinker raises a SOFT trap (R84). -/
  | trap (k : Fin 25600) (rs1 : BitVec 5)
  /-- RETT: Tinker returns from its trap handler to epc (R84). -/
  | rett (k : Fin 25600)
  /-- QDONE: Tinker reads the completion count of a stream queue (R107). -/
  | qdone (k : Fin 25600) (rd : BitVec 5) (q : BitVec 4)
  /-- WAITQ: Tinker stalls until a stream queue's completion count reaches a value (R107). -/
  | waitq (k : Fin 25600) (rs1 : BitVec 5) (q : BitVec 4)
  /-- WAITQ_RESUME: A stalled WAITQ resumes once its completion condition holds (R107). -/
  | waitqResume (k : Fin 25600)
  /-- ISSUE: Tinker appends a descriptor pointer to a stream queue, or fails or waits on a full queue (R106). -/
  | issue (k : Fin 25600) (rd rs1 : BitVec 5) (q : BitVec 4) (w : Bool)
  /-- ISSUE_APPEND_RETRY: A waiting ISSUE with W = 1 appends once its queue has room (R106). -/
  | issueAppendRetry (k : Fin 25600)
  /-- INSTRUCTION_FETCH: A Tinker fetches an instruction from local memory or through its instruction buffer, with a line miss going to the cell store (R82). -/
  | instructionFetch (k : Fin 25600)
  /-- TK_RUN_WRITE: A write to TK_RUN starts halted Tinkers at TK_ENTRY or stops running ones (R83). -/
  | tkRunWrite (who : Who) (c : Fin 256) (hi : Bool) (v : BitVec 64) (be : BitVec 8)
  /-- REGISTER_WRITE: A control-space write to a register without behaviour of its own, obeying access codes, byte lanes, SAT clears and W1C (R11). -/
  | registerWrite (who : Who) (off : BitVec 28) (size : BitVec 2) (v hwset : BitVec 64)
  /-- COMMAND_START: A queue starts its head command once its fence, tally and engine conditions hold, writing a zeroed record (R115). -/
  | commandStart (c : Fin 256) (q : Fin 16)
  /-- TALLY_CONSUME: A waiting command's tally is tested and decremented once non-zero, locally or by a held slice request (R122). -/
  | tallyConsume (c : Fin 256) (q : Fin 16)
  /-- COMMAND_COMPLETE: A finished command waits for its write acknowledgements, writes its record, increments SQ_DONE and its tally-out, in queue order (R119). -/
  | commandComplete (c : Fin 256) (n : Nat)
  /-- BAD_OPCODE: A command with an unassigned opcode completes at once with OK and counts in BADOP_CNT (R113). -/
  | badOpcode (c : Fin 256) (q : Fin 16)
  /-- MOVE: Carters move rows of bytes from a source to a destination address (R132). -/
  | move (c : Fin 256) (n : Nat)
  /-- GEMM: Chained matrix product with fetch, expand, multiply, output transform, compress and store stages (R128). -/
  | gemm (c : Fin 256) (n : Nat)
  /-- SUCCESSOR_PROLOGUE: A chained successor's resident panel and ring fill begin once the predecessor's last fetch and the successor's tally allow (R137). -/
  | successorPrologue (c : Fin 256) (n : Nat)
  /-- CARTER_TRANSFER: A Carter takes a ready transfer from a Carter queue below its depth and starts moving it (R134). -/
  | carterTransfer (c : Fin 256) (q : Fin 16)
  /-- TRANSFER_LANDED: A transfer's last byte lands and is acknowledged, freeing its depth place and handing the unit on (R134). -/
  | transferLanded (c : Fin 256) (i : Nat)
  /-- STAGE_HANDOVER: A stage passes a completed unit's tally to the next stage or returns a credit, letting a waiting stage proceed (R126). -/
  | stageHandover (c : Fin 256) (n : Nat) (h : Handover) (credit : Bool)
  /-- TILE_START: The Mill starts an output tile in a free bank, latching window, trim and output settings (R55). -/
  | tileStart (c : Fin 256) (n : Nat)
  /-- TILE_KSTEPS_DONE: A tile's last products enter its bank and the bank closes for drain (R58). -/
  | tileKstepsDone (c : Fin 256) (b : Fin 2)
  /-- BANK_DRAIN_ROW: The output stage takes a drained row from a closed bank and converts and writes it by the store path (R55). -/
  | bankDrainRow (c : Fin 256) (b : Fin 2)
  /-- BANK_FREE: A bank whose last row has left becomes free for the next tile (R55). -/
  | bankFree (c : Fin 256) (b : Fin 2)
  /-- MCAST_MEMBER_CREDIT: A die-row multicast member returns a credit, letting the lead write the next streaming tile (R64). -/
  | mcastMemberCredit (c m : Fin 256)
  /-- COOPER_PLACE_DECODE: A Cooper decodes one block place into a k-step group, raising truncation, overlong or stale-table outcomes (R249). -/
  | cooperPlaceDecode (c : Fin 256) (port : Fin 2)
  /-- TURNER_SQUARE: The Turner reads, transposes or re-blocks one square and delivers its k-steps (R204). -/
  | turnerSquare (c : Fin 256) (port : Fin 2)
  /-- FENCE: Stream command that completes when every earlier command of the named queues has written its record (R139). -/
  | fence (c : Fin 256) (n : Nat)
  /-- CANCEL: Stream command that removes or stops matched commands of a queue and their successors (R141). -/
  | cancel (c : Fin 256) (n : Nat)
  /-- GEMM_DW: Weight-gradient product accumulating tiles into Till SRAM slots and optionally Till pages (R210). -/
  | gemmDw (c : Fin 256) (n : Nat)
  /-- TILL_SLOT_DRAIN: A drained bank is added into its Till SRAM slot, latching or aligning the window (R212). -/
  | tillSlotDrain (c : Fin 256) (b : Fin 2)
  /-- TILL_PAGE_ADD: The Till engine claims a tile and adds a slot or source into a Till page tile by R43 (R216). -/
  | tillPageAdd (c : Fin 256)
  /-- TILL_ADD_DONE: A Till page add completes, releasing its claim and emptying or keeping its slot (R213). -/
  | tillAddDone (c : Fin 256)
  /-- TILL_ADD_SLOTS: TILL_FLUSH mode adding named slots into their Till tiles (R219). -/
  | tillAddSlots (c : Fin 256) (n : Nat)
  /-- TILL_CLEAR_SLOTS: TILL_FLUSH mode emptying named slots (R219). -/
  | tillClearSlots (c : Fin 256) (n : Nat)
  /-- TILL_CLEAR_TILES: TILL_FLUSH mode clearing a run of Till tiles (R219). -/
  | tillClearTiles (c : Fin 256) (n : Nat)
  /-- TILL_READ: TILL_FLUSH mode reading Till tiles out as L8, L16, FP32 or TILL48 (R219). -/
  | tillRead (c : Fin 256) (n : Nat)
  /-- TILL_MERGE: TILL_FLUSH mode adding source region tiles into destination tiles (R219). -/
  | tillMerge (c : Fin 256) (n : Nat)
  /-- ATTN_FWD: Forward attention over a length table, with optional key/value write and merge (R186). -/
  | attnFwd (c : Fin 256) (n : Nat)
  /-- ATTN_BWD: Backward attention recomputing scores and accumulating gradients into Till pages (R197). -/
  | attnBwd (c : Fin 256) (n : Nat)
  /-- ATTN_DECODE: Decode attention for a few query tokens per sequence (R201). -/
  | attnDecode (c : Fin 256) (n : Nat)
  /-- KEY_TILE_DRAIN: A drained score tile updates each row's reference and sum and forms its weights (R187). -/
  | keyTileDrain (c : Fin 256) (n : Nat)
  /-- ATTN_ROW_FINISH: A row's last key tile has drained; its statistic and outputs are written, merging a partial if asked (R188). -/
  | attnRowFinish (c : Fin 256) (n : Nat)
  /-- NORM_STATS: Two-pass exact mean, variance and RSTD of rows (R167). -/
  | normStats (c : Fin 256) (n : Nat)
  /-- ACT_FUSED: Fused activation of a gate tensor times an up tensor (R160). -/
  | actFused (c : Fin 256) (n : Nat)
  /-- TABLE_BUILD: Histogram bytes and build a length-limited code into a slot's inactive bank (R241). -/
  | tableBuild (c : Fin 256) (n : Nat)
  /-- TABLE_LOAD: Load a table image into a slot's inactive bank (R242). -/
  | tableLoad (c : Fin 256) (n : Nat)
  /-- TABLE_SWAP: Request swaps of the active bank of named table slots (R253). -/
  | tableSwap (c : Fin 256) (n : Nat)
  /-- TABLE_SWAP_APPLY: A pending swap is applied at a port at its next block boundary (R253). -/
  | tableSwapApply (c : Fin 256) (slot : Fin 16) (port : Fin 3)
  /-- COMPRESS_UNITS: COMPRESS in compress direction codes plain units into frames (R246). -/
  | compressUnits (c : Fin 256) (n : Nat)
  /-- EXPAND_UNITS: COMPRESS in expand direction decodes frames into plain units (R246). -/
  | expandUnits (c : Fin 256) (n : Nat)
  /-- COMPRESS_STAGE_TILE: The GEMM compress stage codes one output tile as a frame (R247). -/
  | compressStageTile (c : Fin 256) (n : Nat)
  /-- PAGE_MAP_ALLOC: Allocate, fault in or pin tenant pages (R285). -/
  | pageMapAlloc (c : Fin 256) (n : Nat)
  /-- PAGE_MAP_REF: Increment the reference count of valid pages (R285). -/
  | pageMapRef (c : Fin 256) (n : Nat)
  /-- PAGE_MAP_UNPIN: Clear the pin of pages (R285). -/
  | pageMapUnpin (c : Fin 256) (n : Nat)
  /-- PAGE_COW: Copy a shared page into a new page and repoint the writer (R287). -/
  | pageCow (c : Fin 256) (n : Nat)
  /-- PAGE_FREE: Decrement page references and free pages that reach zero (R286). -/
  | pageFree (c : Fin 256) (n : Nat)
  /-- PROMOTE: TIER_MOVE fault-in of pages from flash to the stacks (R288). -/
  | promote (c : Fin 256) (n : Nat)
  /-- DEMOTE: TIER_MOVE write of unpinned pages to flash (R288). -/
  | demote (c : Fin 256) (n : Nat)
  /-- TIER_READ: TIER_MOVE copy of pages into the cell store without changing residence (R288). -/
  | tierRead (c : Fin 256) (n : Nat)
  /-- FRAME_RELEASE: A stamped frame is released once no command of its epoch window runs, retagged and given to a waiting allocation (R291). -/
  | frameRelease (i : Nat)
  /-- AGE_SWEEP: Every AGE_PERIOD the pool sweeps tier-1 entries and updates their ages (R293). -/
  | ageSweep
  /-- EVICTION: The pool evicts the oldest eligible page when allocation finds no frame or free frames fall below target (R294). -/
  | eviction
  /-- REGION_EVACUATE: The pool moves pages and page tables out of a retiring region (R298). -/
  | regionEvacuate (m : Fin 12) (r : Fin 8)
  /-- REGION_RETIRE: The Clerk retires a region once the pool reports it empty, or at once on three lost pins (R266). -/
  | regionRetire (m : Fin 12) (r : Fin 8)
  /-- SCRUB_READ: The scrubber reads a burst on its schedule and writes back a corrected burst (R271). -/
  | scrubRead (m : Fin 12)
  /-- MS_ADD_INT32: Memory-side add of INT32 elements, started by MS_GO (R277). -/
  | msAddInt32 (who : Who) (m : Fin 12) (imm : Bool)
  /-- MS_ADD_INT64: Memory-side add of INT64 elements, started by MS_GO (R277). -/
  | msAddInt64 (who : Who) (m : Fin 12) (imm : Bool)
  /-- MS_ADD_FP32: Memory-side add of FP32 elements, started by MS_GO (R277). -/
  | msAddFp32 (who : Who) (m : Fin 12) (imm : Bool)
  /-- MS_ADD_L16: Memory-side log-domain add of L16 elements, started by MS_GO (R277). -/
  | msAddL16 (who : Who) (m : Fin 12) (imm : Bool)
  /-- MS_FILL: Memory-side fill of elements with the operand, started by MS_GO (R277). -/
  | msFill (who : Who) (m : Fin 12) (imm : Bool)
  /-- MEMSIDE_DONE: A memory-side operation ends and writes FAULT and DONE (R277). -/
  | memsideDone (m : Fin 12)
  /-- FLASH_READ_DONE: A flash page read completes, needs a retry level, or fails after the last level (R303). -/
  | flashReadDone (i : Nat) (ok : Bool)
  /-- FLASH_WRITE_DONE: A flash page write for DEMOTE or eviction completes or fails (R288). -/
  | flashWriteDone (i : Nat) (ok : Bool)
  /-- WEAR_LEVEL_MOVE: The translation layer moves the least-erased block when the erase spread exceeds SPREAD (R301). -/
  | wearLevelMove
  /-- READ_DISTURB_REFRESH: A block that reaches 100,000 reads is rewritten and erased (R302). -/
  | readDisturbRefresh (blk : Nat)
  /-- FLASH_BLOCK_RETIRE: A block whose program, erase or reads fail is retired and its pages rewritten (R304). -/
  | flashBlockRetire (blk : Nat)
  /-- FLIT_RECEIVE: A port receives a flit, applies FEC, CRC and sequence checks, takes ACKs and credits, and accepts it or NAKs (R312). -/
  | flitReceive (p : Fin 24) (bytes : List (BitVec 8)) (corrected : Nat) (uncorrectable : FecLoss)
  /-- NAK_RECEIVE: A sender receives a NAK and replays unacknowledged flits of the channel (R312). -/
  | nakReceive (p : Fin 24) (vc : Fin 4) (ack : BitVec 12)
  /-- REPLAY_TIMEOUT: An unacknowledged flit waits REPLAY_TIMEOUT port cycles and the sender replays from it (R312). -/
  | replayTimeout (p : Fin 24) (vc : Fin 4)
  /-- PORT_RETRAIN: A port retrains its lanes after the replay limit, FEC errors or a RETRAIN write (R313). -/
  | portRetrain (p : Fin 24)
  /-- RETRAIN_DONE: A retrain ends, replaying buffered flits, or after RETRAIN_LIMIT failures the port goes DOWN (R313). -/
  | retrainDone (p : Fin 24) (ok : Bool)
  /-- PORT_DOWN: A port goes DOWN on lane loss, dropping packets with unacknowledged flits (R313). -/
  | portDown (p : Fin 24)
  /-- PORT_ENABLE: A write to CTRL.ENABLE disables a port or starts training of a DOWN port (R328). -/
  | portEnable (who : Who) (p : Fin 24) (v : BitVec 64)
  /-- PORT_TRAINED: A port completes training and goes UP, learning its partner (R328). -/
  | portTrained (p : Fin 24) (partnerMod : BitVec 16) (partnerPort : BitVec 5)
  /-- PACKET_ROUTE: A router reads its table entry once and forwards a packet on an adaptive or escape port, or drops it (R318). -/
  | packetRoute (i : Nat)
  /-- ESCAPE_WAIT_EXPIRY: A packet finding no adaptive credit for ESCAPE_WAIT cycles moves to the escape channel (R318). -/
  | escapeWaitExpiry (i : Nat)
  /-- READ_REQ: A remote read request arrives and is checked and served at the target (R316). -/
  | readReq (i : Nat)
  /-- WRITE: A remote write packet arrives and is checked and performed at the target (R316). -/
  | write (i : Nat)
  /-- READ_RESP: Read data returns to the requester (R316). -/
  | readResp (i : Nat)
  /-- WRITE_ACK: A write acknowledgement returns to the requester (R316). -/
  | writeAck (i : Nat)
  /-- RESP_TIMEOUT: A remote access without response ends its command with LINK_DOWN (R322). -/
  | respTimeout (tag : BitVec 16)
  /-- MCAST_DATA: A multicast data packet arrives, is copied at branches and landed at a receiver (R323). -/
  | mcastData (msg : McastMsg)
  /-- MCAST_CREDIT: A receiver's credit arrives at the source and lets it send further (R323). -/
  | mcastCredit (msg : McastCreditMsg)
  /-- DETACH_TIMEOUT: A receiver holding the stream back past DETACH_TIMEOUT is detached with its descendants (R324). -/
  | detachTimeout (t ch : Fin 16) (num : Nat) (member : Nat)
  /-- CONTROL: A CONTROL packet arrives: a detach notice, a collective abort, pairing or a relayed owner command (R324). -/
  | control (src : BitVec 16) (msg : CtlMsg)
  /-- REDUCE: Exact gradient reduction over a group with a shared-exponent vote and checksums (R337). -/
  | reduce (c : Fin 256) (n : Nat)
  /-- GATHER: Every member sends its shard to every other member with a version tag (R347). -/
  | gather (c : Fin 256) (n : Nat)
  /-- PERMUTE: Two-phase move of shards to a new layout epoch (R351). -/
  | permute (c : Fin 256) (n : Nat)
  /-- MCAST: Multicast of a stream down a tree of members (R353). -/
  | mcast (c : Fin 256) (n : Nat)
  /-- VOTE: Element-wise AND, OR, MAX or MIN of words over a group (R346). -/
  | vote (c : Fin 256) (n : Nat)
  /-- WEAVER_CREDIT_GRANT: A peer's credit grant for an instance arrives, or is dropped on an opcode mismatch (R332). -/
  | weaverCreditGrant (t ch : Fin 16) (num : Nat) (member : Nat) (opcode : BitVec 16)
  /-- COLLECTIVE: A collective data packet or partial arrives, is epoch- and checksum-checked and combined (R345). -/
  | collective (msg : CollMsg)
  /-- SHARD_LANDED: A gathered shard has landed and its tag is recorded or compared (R349). -/
  | shardLanded (t ch : Fin 16) (num : Nat) (j : Nat)
  /-- COLL_TIMEOUT: An instance waiting for a peer past COLL_TIMEOUT ends with LINK_DOWN and aborts (R333). -/
  | collTimeout (t ch : Fin 16) (num : Nat)
  /-- PERMUTE_PHASE2: After the landing vote, a member copies staged moves and sets its layout epoch (R351). -/
  | permutePhase2 (t ch : Fin 16) (num : Nat)
  /-- TXN_BEGIN: Open a transaction and shadow a run of pages (R359). -/
  | txnBegin (c : Fin 256) (n : Nat)
  /-- SHADOW_MAKE: The pool copies a page's committed frame into a new shadow frame (R360). -/
  | shadowMake (t : Fin 16) (slot : Fin 8) (tpn : Nat)
  /-- TXN_COMMIT_LOCAL: Commit named transactions on local readiness (R366). -/
  | txnCommitLocal (c : Fin 256) (n : Nat)
  /-- TXN_COMMIT_VOTE: Commit named transactions on a group vote of readiness (R366). -/
  | txnCommitVote (c : Fin 256) (n : Nat)
  /-- TXN_COMMIT_FORCE: Commit an IN_DOUBT transaction at once (R366). -/
  | txnCommitForce (c : Fin 256) (n : Nat)
  /-- COMMIT_FLIP: The pool advances the epoch and flips every shadowed page of the committed transactions (R367). -/
  | commitFlip (c : Fin 256) (n : Nat)
  /-- COPY_BACK: Once older epochs drain, shadows are copied back into committed frames and released (R368). -/
  | copyBack (i : Nat)
  /-- TXN_ABORT: Abort a transaction, releasing its shadows and recording REASON (R370). -/
  | txnAbort (c : Fin 256) (n : Nat)
  /-- SNAP_SAVE: Write a snapshot image of committed state to flash or a partner (R386). -/
  | snapSave (c : Fin 256) (n : Nat)
  /-- SNAP_RESTORE: Check and restore a snapshot image and its register-held items (R388). -/
  | snapRestore (c : Fin 256) (n : Nat)
  /-- DRAW: A read of a stream's DRAW returns a Philox draw or faults with STREAM_SKEW (R376). -/
  | draw (who : Who) (t : Fin 16) (s : Fin 4)
  /-- STREAM_ARM_WRITE: A write to a stream's SEED, BASE, CFG, OFFSET or to DATA_POS arms the streams (R377). -/
  | streamArmWrite (who : Who) (off : BitVec 28) (size : BitVec 2) (v : BitVec 64)
  /-- RISK_PERIOD: Every 100 ms the health monitor scores its inputs and forms the risk level (R378). -/
  | riskPeriod
  /-- PARTNER_PAIR: A write of PAIR starts the feed exchange with a partner module (R382). -/
  | partnerPair (who : Who) (t : Fin 16) (partner : BitVec 16)
  /-- PAIR_ANSWER: The partner's answer arrives; PAIRED and CO_FED are set (R382). -/
  | pairAnswer (t : Fin 16) (feed : BitVec 16)
  /-- PAIR_TIMEOUT: No partner answer within RESP_TIMEOUT sets PAIR_FAIL (R382). -/
  | pairTimeout (t : Fin 16)
  /-- ETH_FRAME_RECEIVE: A port checks an arriving Ethernet frame and answers, drops or passes it on (R398). -/
  | ethFrameReceive (e : Fin 4) (f : EthFrame)
  /-- HELLO: A host HELLO begins a handshake and the Clerk signs a report (R400). -/
  | hello (e : Fin 4) (m : HelloMsg)
  /-- REPORT: The signed attestation report is sent once signing completes (R401). -/
  | report (t : Fin 16)
  /-- FINISH: The host FINISH is verified and the session opens or is refused (R402). -/
  | finish (t : Fin 16) (rsaKey slhKey rsaSig slhSig : List (BitVec 8))
  /-- QP_OPEN: The host opens queue pairs and the module answers with QP_OPENED (R404). -/
  | qpOpen (t : Fin 16) (entries : List QpEntry)
  /-- QP_CLOSE: Named queue pairs go to the error state (R400). -/
  | qpClose (t : Fin 16) (qpns : List (BitVec 24))
  /-- CLOSE: The session and every queue pair in it end (R400). -/
  | close (t : Fin 16)
  /-- HANDSHAKE_TIMEOUT: An unanswered handshake message is resent after its backoff or abandoned after RETRY attempts (R400). -/
  | handshakeTimeout (t : Fin 16)
  /-- RDMA_WRITE: A host RDMA WRITE is checked against its region and performed, acknowledged on completion (R411). -/
  | rdmaWrite (qpn psn : BitVec 24) (rkey : BitVec 32) (off : BitVec 64) (data : List (BitVec 8))
  /-- RDMA_READ: A host RDMA READ is checked and answered with data (R411). -/
  | rdmaRead (qpn psn : BitVec 24) (rkey : BitVec 32) (off : BitVec 64) (len : BitVec 32)
  /-- FETCH_ADD: A host 64-bit fetch-and-add on a shared-cache region word (R411). -/
  | fetchAdd (qpn psn : BitVec 24) (rkey : BitVec 32) (off : BitVec 64) (v : BitVec 64)
  /-- CMP_SWAP: A host 64-bit compare-and-swap on a shared-cache region word (R411). -/
  | cmpSwap (qpn psn : BitVec 24) (rkey : BitVec 32) (off : BitVec 64) (cmp swap : BitVec 64)
  /-- ROCE_ACK_RECEIVE: An ACK or NAK arrives at the module as requester, with SACK retransmission (R407). -/
  | roceAckReceive (qpn psn : BitVec 24) (nak : Bool) (sackBase : BitVec 24) (sackBits : List Bool)
  /-- ACK_TIMEOUT: An unacknowledged module request is retransmitted with jittered backoff, or its queue pair errors (R406). -/
  | ackTimeout (qpn : BitVec 24)
  /-- CNP: A CNP arrives and lowers the queue pair's sending rate (R408). -/
  | cnp (qpn : BitVec 24)
  /-- RATE_RECOVERY: Every 100 µs without a CNP the queue pair's rate rises by 10 Gb/s (R408). -/
  | rateRecovery (qpn : BitVec 24)
  /-- DOORBELL: A write to DOORBELL appends a descriptor pointer to a stream queue or is dropped (R412). -/
  | doorbell (who : Who) (c : Fin 256) (q : Fin 16) (v : BitVec 64)
  /-- ETH_PORT_DOWN: An Ethernet port goes DOWN and its queue pairs go to the error state (R404). -/
  | ethPortDown (e : Fin 4)
  /-- OWNER_COMMAND: The Clerk receives an owner command and checks serial, keys, signatures and OWNER_SEQ (R427). -/
  | ownerCommand (neighbour : Bool) (msg : List (BitVec 8))
  /-- ADMIT: Owner command admitting a tenant with cell groups, page table and host key (R399). -/
  | admitTenant
  /-- RELEASE: Owner command ending a tenant and scrubbing its state (R418). -/
  | release
  /-- LOCK: Owner command setting or clearing the owner lock (R428). -/
  | lock
  /-- RESET: Owner command requesting an authenticated remote full reset (R428). -/
  | reset
  /-- CLEAR_CAUSE: Owner command clearing RESET.CAUSE bits (R428). -/
  | clearCause
  /-- CONFIG: Owner command replacing the flash configuration table (R428). -/
  | config
  /-- RESUME: Owner command leaving the Hold and continuing the boot at step 5 (R448). -/
  | resume
  /-- IMAGE_SEG: Unsigned image segment in a recovery boot; a complete valid image is staged and a SOFT reset follows (R448). -/
  | imageSeg (off : BitVec 32) (bytes : List (BitVec 8))
  /-- OWNER_RELAY: A command for another module is relayed over Scecy and its reply returned (R429). -/
  | ownerRelay (msg : List (BitVec 8))
  /-- POWER_ON: The 54 V input reaches power-good and a POWER_ON full reset begins (R431). -/
  | powerOn
  /-- MOD_RESET_N_LOW: MOD_RESET_N held low resets the module (R434). -/
  | modResetNLow (ns : Nat)
  /-- MOD_RESET_N_RISE: MOD_RESET_N rises and option loading begins 1 ms later (R434). -/
  | modResetNRise
  /-- WATCHDOG: A Clerk core misses two watchdog periods and a watchdog reset follows (R426). -/
  | watchdog (core : Fin 4)
  /-- THERMAL_TRIP: A sensor reaches its trip limit and the module takes a THERMAL reset (R468). -/
  | thermalTrip (sensor : Fin 39) (temp : BitVec 12)
  /-- SW_RESET_ARM: The manager arms a software reset (R435). -/
  | swResetArm (who : Who)
  /-- SW_RESET_GO: An armed GO within the window triggers a SOFT full reset (R435). -/
  | swResetGo (who : Who)
  /-- OPTION_LOADING: The module samples the strap, loads fuses and reads the configuration table (R443). -/
  | optionLoading (samples : List (List (BitVec 6)))
  /-- BOOT: The boot activates and verifies firmware, tests stacks and cells, trains ports and sets the boot lock (R447). -/
  | boot (obs : BootObs)
  /-- SWRST: A write to a block's SWRST resets the unit, setting NOT_IDLE if it was busy (R436). -/
  | swrst (who : Who) (off : BitVec 28) (v : BitVec 64)
  /-- UNIT_RESET_EXIT: A reset unit leaves reset after its reset time and re-issues its credits (R438). -/
  | unitResetExit (u : ResetUnit)
  /-- MEM_REQ: The manager requests a stack mode change, which the Clerk applies and sets DONE (R439). -/
  | memReq (who : Who) (stackMask : BitVec 12) (recovery : Bool)
  /-- UPDATE_START: A write of START begins a firmware update along a chain of modules (R449). -/
  | updateStart (who : Who)
  /-- UPDATE_IMAGE_ARRIVE: A module in the chain receives the image, verifies, stages or refuses, and forwards (R450). -/
  | updateImageArrive (image : List (BitVec 8)) (chain : List (BitVec 16)) (results : List (BitVec 16 × BitVec 16)) (pos : Nat)
  /-- UPDATE_FORWARD_TIMEOUT: A forward not completed within 60 s is abandoned and the next position tried (R451). -/
  | updateForwardTimeout
  /-- UPDATE_RESULT_RETURN: The result list reaches the originator, which writes it and sets DONE (R450). -/
  | updateResultReturn (results : List (BitVec 16 × BitVec 16))
  /-- UPDATE_TIMEOUT: The originator's TIMEOUT expires and it writes known results with LINK_DOWN (R451). -/
  | updateTimeout
  /-- TELEMETRY_PERIOD: Every PERIOD the Clerk writes telemetry records of readable counters (R425). -/
  | telemetryPeriod
  /-- POWER_WINDOW: At the end of each 1 ms window the Clerk records input power and steps the cell clock (R464). -/
  | powerWindow (watts : BitVec 16) (temps : List (BitVec 12))
  /-- POWER_LOSS: The input falls below 44 V or PRESENT_N breaks and the hold-up sequence runs (R466). -/
  | powerLoss (presentBreak : Bool)
  /-- PRESENT_MATE: PRESENT_N makes contact and the input switch closes 100 ms later (R457). -/
  | presentMate
  /-- HOLDUP_TEST: Daily and at boot the Clerk tests the hold-up bank by partial discharge (R466). -/
  | holdupTest (joules : Nat)
  /-- SIDEBAND_SAMPLE: Every 1 ms the Clerk samples sideband inputs and takes persistent changes (R459). -/
  | sidebandSample (trayMoveN feedAlarmN : Bool)
  /-- ETH_PORT_TRAINED: An Ethernet port completes link training and its STATE.LINK goes from TRAINING or DOWN to UP (R437). -/
  | ethPortTrained (e : Fin 4)
  /-- HOLDUP_SEQUENCE_END: The hold-up sequence ends once accepted flash writes and the translation table are programmed; K0 and the flash controller stop, or a POWER_ON reset follows if the input has recovered (R466). -/
  | holdupSequenceEnd (recovered : Bool)
  /-- HOLDUP_CHARGE: The hold-up bank's charge rises from the 54 V input, changing HOLDUP.CHARGE and CHARGING and crossing the 80 % level that drives MOD_ALERT_N and the update refusal (R466). -/
  | holdupCharge (percent : BitVec 8) (charging : Bool)
  /-- INCOMPLETE_COMMAND_ABANDON: An owner command whose segments are still incomplete after HS_TIMEOUT is abandoned and its buffered segments discarded (R455). -/
  | incompleteCommandAbandon
  deriving DecidableEq, Repr

end Sys2Proof
end

