-- ==== Sys2Proof/Config.lean ====
section
/-! DEFINITION. What one part fixes, what published functions the manual names without defining, and the free values:
every one an opaque constant, so that no proof can see what it is. -/

namespace Sys2Proof.Config

/-- The free values: the n-th value that the manual leaves open in a run (log entry 3). -/
opaque free : Nat → Nat

/-- Fused device serial number (R401, R443; log entry 7). -/
opaque fuseSerial : Nat

/-- Fused MAC address of an Ethernet port (R419: "fused"; log entry 7). -/
opaque fuseMac : Nat → BitVec 48

/-- Fused SHA-384 of the owner's public keys (R427; log entry 7). -/
opaque fuseOwnerKey : List Byte

/-- The identity public keys, 436 bytes (R401, R402; log entry 7). -/
opaque identityKeys : List Byte

/-- The endorsement written at manufacture, 17,044 bytes (R400, R402; log entry 7). -/
opaque endorsement : List Byte

/-- Whether this is a field module (R441: window 2; log entry 7). -/
opaque fieldModule : Bool

/-- Blocks of the flash that are bad from the factory (R300; log entry 7). -/
opaque factoryBadBlocks : List Nat

/-- The flash configuration table, decoded (R430). -/
structure CfgTab where
  id : Nat
  /-- By port: IPv4 address, IPv6 address, VLAN register. -/
  ipv4 : List Nat
  ipv6 : List Nat
  vlan : List Nat
  encap : Nat
  snapSlot : Nat
  ownerSeq : Nat
  lock : Bool
  /-- The ADMIT body of tenant 0, for single tenancy. -/
  admitBody : Option (List Byte)
  deriving DecidableEq, Repr

/-- What a table image holds; none where it fails its SHA-384. R430 gives the items and not their places (log entry 20). -/
opaque cfgOf : List Byte → Option CfgTab

/-- The image of a table (log entry 20). -/
opaque cfgImage : CfgTab → List Byte

/-- SHA-384 (named by R399, R401, R427, R430, R444; log entry 4). -/
opaque sha384 : List Byte → List Byte

/-- RSA-PSS verification: public key, message, signature (R402, R427, R444; log entry 4). -/
opaque rsaVerify : List Byte → List Byte → List Byte → Bool

/-- SLH-DSA-SHA2-192s verification: public key, message, signature (R402; log entry 4). -/
opaque slhVerify : List Byte → List Byte → List Byte → Bool

/-- RSA-PSS signature by the identity key (R402; log entry 4). -/
opaque rsaSign : List Byte → List Byte

/-- SLH-DSA signature by the identity key (R402; log entry 4). -/
opaque slhSign : List Byte → List Byte

/-- The firmware public keys held in the boot ROM: RSA, then SLH-DSA (R444; log entry 4). -/
opaque firmwareRsaKey : List Byte
/-- The SLH-DSA half of the firmware key (R444). -/
opaque firmwareSlhKey : List Byte

/-- The module's ECDH public point for a handshake draw (R400; log entry 4). -/
opaque ecdhPoint : Nat → List Byte
/-- The ECDH shared secret of a handshake draw with a peer point (R403; log entry 4). -/
opaque ecdhSecret : Nat → List Byte → List Byte
/-- The ML-KEM-1024 ciphertext of a handshake draw for a peer key (R400; log entry 4). -/
opaque mlkemCipher : Nat → List Byte → List Byte
/-- The ML-KEM-1024 shared secret of a handshake draw for a peer key (R403; log entry 4). -/
opaque mlkemSecret : Nat → List Byte → List Byte

/-- HKDF-SHA-384 extract: salt, input key material (R403; log entry 4). -/
opaque hkdfExtract : List Byte → List Byte → List Byte
/-- HKDF-SHA-384 expand: key, info, length (R403; log entry 4). -/
opaque hkdfExpand : List Byte → List Byte → Nat → List Byte

/-- AES-256-GCM decryption: key, nonce, additional data, ciphertext, tag; none where the tag fails (R397; log entry 4). -/
opaque gcmOpen : List Byte → List Byte → List Byte → List Byte → List Byte → Option (List Byte)

/-- AES-256-GCM encryption: key, nonce, additional data, plaintext; the ciphertext, and the tag (R397; log entry 4). -/
opaque gcmSeal : List Byte → List Byte → List Byte → List Byte → List Byte
/-- The tag that belongs to it. -/
opaque gcmTag : List Byte → List Byte → List Byte → List Byte → List Byte

/-- ADDR in the low 48 bits and TAG above them in the n-th packet of a message of OP 4 to 7: the manual names what such a message
holds and not its places (log entry 30). -/
opaque msgWord : Msg → Nat → BitVec 64

/-- The data bytes of a CONTROL packet, an image or a result list, whose places the manual does not give (log entry 30). -/
opaque msgData : Msg → List Byte

/-- The frames that the pool reserves for the frame table (R280; log entry 7). -/
opaque frameTable : List Nat

/-- What the inner code of a memory die does with an internal word of 128 bits in which two or more bits are wrong (R260: it is
delivered uncorrected or miscorrected): below 128 it flips that data bit, below 136 a check bit, else it finds nothing to correct. -/
opaque innerFlip : Nat → Nat

/-- Whether a fused multiply-add of an infinity, a zero and a quiet NaN signals invalid: IEEE 754 leaves it to the
implementation and R94 does not say (log entry 5). -/
opaque fmaQuietInvalid : Bool

end Sys2Proof.Config
end

