-- ==== Sys2Proof/Machine/Tab.lean ====
section
/-! DEFINITION. Sparse tables in one canonical form: keys strictly rising, and no entry equal to what an unlisted key reads
as. Memories, register files and every indexed collection of the module are such tables. -/

namespace Sys2Proof.Machine

/-- A sparse table from keys to values. -/
abbrev Tab (α : Type) := List (Nat × α)

/-- A memory: cells of one byte at rising addresses. -/
abbrev Mem := List Host.Cell

/-- Reading a key: the listed value, or the default of the key. -/
def Tab.get {α : Type} (d : Nat → α) : Tab α → Nat → α
  | [], x => d x
  | (k, v) :: m, x => if x = k then v else Tab.get d m x

/-- Removing a key. -/
def Tab.del {α : Type} : Tab α → Nat → Tab α
  | [], _ => []
  | (k, v) :: m, x => if x = k then Tab.del m x else (k, v) :: Tab.del m x

/-- Placing a value at a key, in the order of the keys. -/
def Tab.put {α : Type} : Tab α → Nat → α → Tab α
  | [], x, v => [(x, v)]
  | (k, u) :: m, x, v =>
    if x < k then (x, v) :: (k, u) :: m
    else if x = k then (x, v) :: m
    else (k, u) :: Tab.put m x v

/-- Writing a key: a value equal to the default removes the entry. -/
def Tab.set {α : Type} [DecidableEq α] (d : Nat → α) (m : Tab α) (x : Nat) (v : α) : Tab α :=
  if v = d x then Tab.del m x else Tab.put m x v

/-- The canonical form. -/
abbrev Tab.wf {α : Type} (d : Nat → α) (m : Tab α) : Prop :=
  m.Pairwise (fun a b => a.1 < b.1) ∧ ∀ e ∈ m, e.2 ≠ d e.1

/-- Updating a key through a function. -/
def Tab.upd {α : Type} [DecidableEq α] (d : Nat → α) (m : Tab α) (x : Nat) (f : α → α) : Tab α :=
  Tab.set d m x (f (Tab.get d m x))

/-- What a byte of memory that nothing has written reads as: zero (log entry 2, DESIGN CHOICE). -/
def memDefault (_ : Nat) : Byte := 0

/-- Reading one byte of a memory. -/
def Mem.get (m : Mem) (a : Nat) : Byte := Tab.get memDefault m a

/-- Writing one byte of a memory. -/
def Mem.set (m : Mem) (a : Nat) (b : Byte) : Mem := Tab.set memDefault m a b

/-- The canonical form of a memory. -/
abbrev Memory.wf (m : Mem) : Prop := Tab.wf memDefault m

end Sys2Proof.Machine
end

