-- ==== Sys2Proof/Machine/RegMap.lean ====
section
/-! DEFINITION. Control space: the blocks and their bases (R10), the fields of every register with their access codes and reset
values (R11 to R13 and the register tables of the chapters), and the reset value of a whole register. A register is named by its
offset in control space, a multiple of 8. -/

namespace Sys2Proof.Machine

/-- Access codes (R12). No register of the manual carries RC. -/
inductive Acs where
  | rw
  | ro
  | wo
  | w1c
  | rwl
  | sat
  deriving DecidableEq, Repr

/-- The blocks of control space (R10); the last ports of SCECY and ETH hold the registers of the whole unit. -/
inductive Blk where
  | cell
  | stack
  | scecy
  | scecyAll
  | weaver
  | eth
  | ethAll
  | flash
  | pool
  | scache
  | clerk
  | rst
  | module
  deriving DecidableEq, Repr

/-- The base of a block in control space (R10). -/
def Blk.base : Blk → Nat → Nat
  | .cell, n => 0x1000000 + n * 0x10000
  | .stack, n => 0x2000000 + n * 0x10000
  | .scecy, n => 0x3000000 + n * 0x10000
  | .scecyAll, _ => 0x3180000
  | .weaver, _ => 0x4000000
  | .eth, n => 0x5000000 + n * 0x10000
  | .ethAll, _ => 0x5040000
  | .flash, _ => 0x6000000
  | .pool, _ => 0x7000000
  | .scache, _ => 0x8000000
  | .clerk, _ => 0x9000000
  | .rst, _ => 0xA000000
  | .module, _ => 0xB000000

/-- The number of blocks of a kind. -/
def Blk.count : Blk → Nat
  | .cell => 256
  | .stack => 12
  | .scecy => 24
  | .eth => 4
  | .scecyAll => 1
  | .weaver => 1
  | .ethAll => 1
  | .flash => 1
  | .pool => 1
  | .scache => 1
  | .clerk => 1
  | .rst => 1
  | .module => 1

/-- The size of the part of control space that a block holds: the blocks that are not repeated run to the next base. -/
def Blk.size : Blk → Nat
  | .cell => 0x10000
  | .stack => 0x10000
  | .scecy => 0x10000
  | .scecyAll => 0x10000
  | .eth => 0x10000
  | .ethAll => 0x10000
  | .weaver => 0x1000000
  | .flash => 0x1000000
  | .pool => 0x1000000
  | .scache => 0x1000000
  | .clerk => 0x1000000
  | .rst => 0x1000000
  | .module => 0x1000000

/-- Every kind of block. -/
def Blk.all : List Blk := [.cell, .stack, .scecy, .scecyAll, .weaver, .eth, .ethAll, .flash, .pool, .scache, .clerk, .rst, .module]

/-- Whether an offset of control space lies in a block of a kind. -/
def Blk.holds (b : Blk) (o : Nat) : Bool :=
  decide (b.base 0 ≤ o) && decide (o < b.base 0 + b.count * b.size)

/-- The block that holds an offset of control space: its kind, its index and the offset inside it. -/
def blockOf (o : Nat) : Option (Blk × Nat × Nat) :=
  (Blk.all.find? (fun b => b.holds o)).map (fun b => (b, (o - b.base 0) / b.size, (o - b.base 0) % b.size))

/-- One field of a register, or of a run of like registers: block, offset of the first register, stride and number of
registers, lowest bit, width, access code and reset value. -/
structure Field where
  blk : Blk
  base : Nat
  stride : Nat
  count : Nat
  lo : Nat
  w : Nat
  acs : Acs
  reset : Nat
  deriving DecidableEq, Repr

/-- The register that holds a field: block index b, register index i. -/
def Field.reg (f : Field) (b i : Nat) : Nat := f.blk.base b + f.base + f.stride * i

/-- Whether a register of a block (its offset in the block) holds a field, and at which index. -/
def Field.indexAt (f : Field) (o : Nat) : Option Nat :=
  if f.stride = 0 then (if o = f.base then some 0 else none)
  else if f.base ≤ o ∧ (o - f.base) % f.stride = 0 ∧ (o - f.base) / f.stride < f.count then some ((o - f.base) / f.stride)
  else none

namespace Fd

/-- Silicon stepping. 0xA0 is A0; 0xB1 is B1 (R3). -/
def moduleSteppingStep : Field := ⟨.module, 0x0, 0, 1, 0, 8, .ro, 0xb1⟩
/-- Log₂ of the number of compute cells (8 for 256) (R3). -/
def moduleSteppingCellsLog2 : Field := ⟨.module, 0x0, 0, 1, 8, 8, .ro, 8⟩
/-- Bit k is 1 when CGk is available. The Clerk sets the bits once the boot test completes; all … (R49). -/
def moduleCgAvailAvail : Field := ⟨.module, 0x8, 0, 1, 0, 16, .ro, 0⟩
/-- Number of fenced cells, 0–256 (R49). -/
def moduleCgAvailFencedCells : Field := ⟨.module, 0x8, 0, 1, 16, 9, .ro, 0⟩
/-- 1: cell fenced (R48) (R73). -/
def cellStateFenced : Field := ⟨.cell, 0x0, 0, 1, 0, 1, .ro, 0⟩
/-- 1: the Mill holds a command (R73). -/
def cellStateMillBusy : Field := ⟨.cell, 0x0, 0, 1, 1, 1, .ro, 0⟩
/-- 1: bank 0 is closed and not yet free. This holds from the cell cycle after its tile's last … (R73). -/
def cellStateBank0Drain : Field := ⟨.cell, 0x0, 0, 1, 2, 1, .ro, 0⟩
/-- 1: bank 1 is closed and not yet free, as for bank 0 (R73). -/
def cellStateBank1Drain : Field := ⟨.cell, 0x0, 0, 1, 3, 1, .ro, 0⟩
/-- Cell cycles in which the Mill started a k-step; 48-bit saturating (R73). -/
def cellBusyCnt : Field := ⟨.cell, 0x8, 0, 1, 0, 48, .sat, 0⟩
/-- Single-bit errors corrected by R70 (R73). -/
def cellSramCeCnt : Field := ⟨.cell, 0x10, 0, 1, 0, 32, .sat, 0⟩
/-- Transfers, and Mill operand reads in place, that wrapped under R69 (R73). -/
def cellWrapCnt : Field := ⟨.cell, 0x18, 0, 1, 0, 32, .sat, 0⟩
/-- Stall cycles attributed to the cause with code c, for c = 0x00–0x1F; 48-bit saturating. … (R73). -/
def cellStallCnt : Field := ⟨.cell, 0x400, 8, 256, 0, 48, .sat, 0⟩
/-- Short address at which a started Tinker begins (R83). -/
def cellTkEntry : Field := ⟨.cell, 0x800, 0, 1, 0, 32, .rw, 0⟩
/-- Bit t: Tinker Tt runs, for T00–T63 (R83). -/
def cellTkRun0 : Field := ⟨.cell, 0x808, 0, 1, 0, 64, .rw, 0⟩
/-- Bit t: Tinker T(64 + t) runs (R83). -/
def cellTkRun1 : Field := ⟨.cell, 0x810, 0, 1, 0, 36, .rw, 0⟩
/-- Bit t: Tinker Tt halted by a trap (R83). -/
def cellTkTrap0 : Field := ⟨.cell, 0x818, 0, 1, 0, 64, .w1c, 0⟩
/-- Bit t: Tinker T(64 + t) halted by a trap (R83). -/
def cellTkTrap1 : Field := ⟨.cell, 0x820, 0, 1, 0, 36, .w1c, 0⟩
/-- Completions from stream queue q, for q = 0–15; 32-bit, wraps (R83). -/
def cellSqDone : Field := ⟨.cell, 0x900, 8, 16, 0, 32, .ro, 0⟩
/-- Sticky: a word in slice s wrapped (R104). -/
def scacheSliceStatWrap : Field := ⟨.scache, 0x0, 8, 64, 0, 1, .w1c, 0⟩
/-- Shared-cache offset of the most recent wrapped word (R104). -/
def scacheSliceStatLastWrap : Field := ⟨.scache, 0x0, 8, 64, 32, 28, .ro, 0⟩
/-- Outstanding transfers allowed on Carter queue q, for q = 0–15: 1–256. A value of 0 acts as 1; … (R133). -/
def cellQueueDepth : Field := ⟨.cell, 0xA00, 8, 16, 0, 9, .rw, 0x40⟩
/-- Transfers outstanding now (R133). -/
def cellQueueOutst : Field := ⟨.cell, 0xA00, 8, 16, 16, 9, .ro, 0⟩
/-- Shared-cache offset of tally word 0; bits [1:0] ignored (R133). -/
def cellTallyBase : Field := ⟨.cell, 0xA80, 0, 1, 0, 28, .rw, 0⟩
/-- Commands with an unassigned opcode (R113) (R133). -/
def cellBadopCnt : Field := ⟨.cell, 0xA88, 0, 1, 0, 32, .sat, 0⟩
/-- Bytes discarded by fault or CANCEL; 48-bit saturating (R133). -/
def cellDiscardCnt : Field := ⟨.cell, 0xA90, 0, 1, 0, 48, .sat, 0⟩
/-- Local tally i, for i = 1–255 (R122); offset 0x2000 reads zero (R133). -/
def cellTally : Field := ⟨.cell, 0x2000, 8, 256, 0, 32, .rw, 0⟩
/-- Page entries read with exact widening (R192) (R202). -/
def cellKvWidenCnt : Field := ⟨.cell, 0xB00, 0, 1, 0, 32, .sat, 0⟩
/-- Score tiles skipped (R182); 48-bit saturating (R202). -/
def cellMaskSkipCnt : Field := ⟨.cell, 0xB08, 0, 1, 0, 48, .sat, 0⟩
/-- Latched window of TSs, for s = 0–7 (R230). -/
def cellTillSlotWs : Field := ⟨.cell, 0xC00, 8, 8, 0, 16, .ro, 0⟩
/-- 1: the slot holds a sum (R230). -/
def cellTillSlotValid : Field := ⟨.cell, 0xC00, 8, 8, 16, 1, .ro, 0⟩
/-- 1: a page add or ATTN_BWD holds the slot (R230). -/
def cellTillSlotBusy : Field := ⟨.cell, 0xC00, 8, 8, 17, 1, .ro, 0⟩
/-- 1: some element is saturated (R230). -/
def cellTillSlotSat : Field := ⟨.cell, 0xC00, 8, 8, 18, 1, .ro, 0⟩
/-- 1: some element is NaR (R230). -/
def cellTillSlotNar : Field := ⟨.cell, 0xC00, 8, 8, 19, 1, .ro, 0⟩
/-- Page-tile adds completed; 48-bit saturating (R230). -/
def cellTillAddCnt : Field := ⟨.cell, 0xC40, 0, 1, 0, 48, .sat, 0⟩
/-- Elements flushed by re-blocking (R207) (R230). -/
def cellReblockFlushCnt : Field := ⟨.cell, 0xC48, 0, 1, 0, 32, .sat, 0⟩
/-- Active bank of slot s, for s = 0–15 (R255). -/
def cellTableSlotActive : Field := ⟨.cell, 0xD00, 8, 16, 0, 1, .ro, 0⟩
/-- 1: bank 0 holds a table (R255). -/
def cellTableSlotValid0 : Field := ⟨.cell, 0xD00, 8, 16, 1, 1, .ro, 0⟩
/-- 1: bank 1 holds a table (R255). -/
def cellTableSlotValid1 : Field := ⟨.cell, 0xD00, 8, 16, 2, 1, .ro, 0⟩
/-- 1: a swap is requested and not complete (R255). -/
def cellTableSlotPending : Field := ⟨.cell, 0xD00, 8, 16, 3, 1, .ro, 0⟩
/-- 1: a TABLE_BUILD is writing the inactive bank (R255). -/
def cellTableSlotLoading : Field := ⟨.cell, 0xD00, 8, 16, 4, 1, .ro, 0⟩
/-- Generation in bank 0 (R255). -/
def cellTableSlotGen0 : Field := ⟨.cell, 0xD00, 8, 16, 8, 8, .ro, 0⟩
/-- Generation in bank 1 (R255). -/
def cellTableSlotGen1 : Field := ⟨.cell, 0xD00, 8, 16, 16, 8, .ro, 0⟩
/-- Coded blocks encoded or decoded; 48-bit saturating (R255). -/
def cellCodedBlockCnt : Field := ⟨.cell, 0xD80, 0, 1, 0, 48, .sat, 0⟩
/-- Raw blocks encoded or decoded; 48-bit saturating (R255). -/
def cellRawBlockCnt : Field := ⟨.cell, 0xD88, 0, 1, 0, 48, .sat, 0⟩
/-- Frames written plain by R235 (R255). -/
def cellPlainFrameCnt : Field := ⟨.cell, 0xD90, 0, 1, 0, 32, .sat, 0⟩
/-- Places that raised TRUNCATED_BLOCK (R255). -/
def cellTruncBlockCnt : Field := ⟨.cell, 0xD98, 0, 1, 0, 32, .sat, 0⟩
/-- Places that raised OVERLONG_BLOCK (R255). -/
def cellOverlongBlockCnt : Field := ⟨.cell, 0xDA0, 0, 1, 0, 32, .sat, 0⟩
/-- Stale blocks met (R252) (R255). -/
def cellStaleBlockCnt : Field := ⟨.cell, 0xDA8, 0, 1, 0, 32, .sat, 0⟩
/-- 1: window bytes j × 64 MiB to (j + 1) × 64 MiB - 1 are mapped, for j = 0–15 (R273). -/
def cellWinMapValid : Field := ⟨.cell, 0xE00, 8, 16, 0, 1, .rw, 0⟩
/-- Stack 0–11; 12–15 make the entry act as invalid (R273). -/
def cellWinMapStack : Field := ⟨.cell, 0xE00, 8, 16, 4, 4, .rw, 0⟩
/-- Region in that stack (R273). -/
def cellWinMapRegion : Field := ⟨.cell, 0xE00, 8, 16, 8, 3, .rw, 0⟩
/-- First page group (R273). -/
def cellWinMapGroupBase : Field := ⟨.cell, 0xE00, 8, 16, 31, 17, .rw, 0⟩
/-- Bit r: region r in service; set by the Clerk after the boot test (R279). -/
def stackStateInService : Field := ⟨.stack, 0x0, 0, 1, 0, 8, .ro, 0⟩
/-- Bit r: region r retiring (R266) (R279). -/
def stackStateRetiring : Field := ⟨.stack, 0x0, 0, 1, 8, 8, .ro, 0⟩
/-- Bit r: region r retired (R267) (R279). -/
def stackStateRetired : Field := ⟨.stack, 0x0, 0, 1, 16, 8, .ro, 0⟩
/-- R276 (R279). -/
def stackMode : Field := ⟨.stack, 0x8, 0, 1, 0, 2, .rw, 1⟩
/-- 64 KiB pages in regions in service (R279). -/
def stackCapacity : Field := ⟨.stack, 0x10, 0, 1, 0, 21, .ro, 0⟩
/-- Inner-code corrections (R260) (R279). -/
def stackInnerCeCnt : Field := ⟨.stack, 0x18, 0, 1, 0, 32, .sat, 0⟩
/-- Bursts corrected by R263; 48-bit saturating (R279). -/
def stackOuterCeCnt : Field := ⟨.stack, 0x20, 0, 1, 0, 48, .sat, 0⟩
/-- Bursts decoded with erasures; 48-bit saturating (R279). -/
def stackErasureCnt : Field := ⟨.stack, 0x28, 0, 1, 0, 48, .sat, 0⟩
/-- Uncorrectable bursts, scrub included (R279). -/
def stackUeCnt : Field := ⟨.stack, 0x30, 0, 1, 0, 32, .sat, 0⟩
/-- Bulk address of the latest uncorrectable burst (R279). -/
def stackUeAddrAddr : Field := ⟨.stack, 0x38, 0, 1, 0, 48, .ro, 0⟩
/-- 1: ADDR holds a value (R279). -/
def stackUeAddrValid : Field := ⟨.stack, 0x38, 0, 1, 63, 1, .w1c, 0⟩
/-- Partial writes (R269); 48-bit saturating (R279). -/
def stackRmwCnt : Field := ⟨.stack, 0x40, 0, 1, 0, 48, .sat, 0⟩
/-- Accesses to retired regions (R279). -/
def stackRetiredAccessCnt : Field := ⟨.stack, 0x48, 0, 1, 0, 32, .sat, 0⟩
/-- Hours per pass; 0 stops scrubbing (R279). -/
def stackScrubPeriod : Field := ⟨.stack, 0x50, 0, 1, 0, 16, .rw, 0x18⟩
/-- Completed passes; wraps (R279). -/
def stackScrubPasses : Field := ⟨.stack, 0x50, 0, 1, 32, 16, .ro, 0⟩
/-- Suspect count that marks a pin lost; 0 acts as 1 (R279). -/
def stackPinThresh : Field := ⟨.stack, 0x58, 0, 1, 0, 8, .rw, 8⟩
/-- Bit p: DQp of channel c lost, for c = 0–127 (R279). -/
def stackLostPinsDq : Field := ⟨.stack, 0x100, 8, 128, 0, 16, .ro, 0⟩
/-- Bit q: CBq lost (R279). -/
def stackLostPinsCb : Field := ⟨.stack, 0x100, 8, 128, 16, 2, .ro, 0⟩
/-- Destination array (R279). -/
def stackMsDst : Field := ⟨.stack, 0x600, 0, 1, 0, 48, .rw, 0⟩
/-- Source array, or the immediate operand (R279). -/
def stackMsSrc : Field := ⟨.stack, 0x608, 0, 1, 0, 64, .rw, 0⟩
/-- Elements; 0 completes at once with OK (R279). -/
def stackMsCount : Field := ⟨.stack, 0x610, 0, 1, 0, 32, .rw, 0⟩
/-- R277; writing starts the operation (R279). -/
def stackMsGoKind : Field := ⟨.stack, 0x618, 0, 1, 0, 3, .wo, 0⟩
/-- 1: immediate operand (R279). -/
def stackMsGoImm : Field := ⟨.stack, 0x618, 0, 1, 8, 1, .wo, 0⟩
/-- Outcome of the latest operation (R279). -/
def stackMsStatusFault : Field := ⟨.stack, 0x620, 0, 1, 0, 16, .ro, 0⟩
/-- 1: an operation is running (R279). -/
def stackMsStatusBusy : Field := ⟨.stack, 0x620, 0, 1, 16, 1, .ro, 0⟩
/-- 1: an operation has ended (R279). -/
def stackMsStatusDone : Field := ⟨.stack, 0x620, 0, 1, 17, 1, .w1c, 0⟩
/-- Refused or ignored MS_GO writes (R279). -/
def stackMsRefusedCnt : Field := ⟨.stack, 0x628, 0, 1, 0, 32, .sat, 0⟩
/-- Frames available to the pool in regions in service (R305). -/
def poolCapacity : Field := ⟨.pool, 0x0, 0, 1, 0, 24, .ro, 0⟩
/-- Free frames (R305). -/
def poolFree : Field := ⟨.pool, 0x8, 0, 1, 0, 24, .ro, 0⟩
/-- Sweep interval in units of 2^20 network cycles; 0 stops ageing (R305). -/
def poolAgePeriod : Field := ⟨.pool, 0x10, 0, 1, 0, 16, .rw, 0x3e8⟩
/-- Free frames kept by background eviction (R305). -/
def poolFreeTarget : Field := ⟨.pool, 0x18, 0, 1, 0, 24, .rw, 0x1000⟩
/-- Pages evicted (R294); 48-bit saturating (R305). -/
def poolEvictCnt : Field := ⟨.pool, 0x20, 0, 1, 0, 48, .sat, 0⟩
/-- Pages brought from tier 2 to tier 1; 48-bit saturating (R305). -/
def poolFaultinCnt : Field := ⟨.pool, 0x28, 0, 1, 0, 48, .sat, 0⟩
/-- Writes to shared frames (R292) (R305). -/
def poolCowWriteCnt : Field := ⟨.pool, 0x30, 0, 1, 0, 32, .sat, 0⟩
/-- PAGE_FREE of invalid entries (R305). -/
def poolFreeNopCnt : Field := ⟨.pool, 0x38, 0, 1, 0, 32, .sat, 0⟩
/-- REF operations not applied at 65,535 (R305). -/
def poolRefSatCnt : Field := ⟨.pool, 0x40, 0, 1, 0, 32, .sat, 0⟩
/-- Pages skipped by DEMOTE (R305). -/
def poolDemoteSkipCnt : Field := ⟨.pool, 0x48, 0, 1, 0, 32, .sat, 0⟩
/-- Accesses refused by R281 (R305). -/
def poolOwnerFaultCnt : Field := ⟨.pool, 0x50, 0, 1, 0, 32, .sat, 0⟩
/-- Discarded writes to page-table frames (R305). -/
def poolPtWriteDropCnt : Field := ⟨.pool, 0x58, 0, 1, 0, 32, .sat, 0⟩
/-- Pinned pages in retiring regions (R305). -/
def poolRetireWait : Field := ⟨.pool, 0x60, 0, 1, 0, 24, .ro, 0⟩
/-- Page-table base of tenant t, for t = 0–15; written by the Clerk at admission (R305). -/
def poolPtBase : Field := ⟨.pool, 0x100, 16, 16, 0, 48, .ro, 0⟩
/-- Entries, up to 2^30; written by the Clerk at admission (R305). -/
def poolPtEntries : Field := ⟨.pool, 0x108, 16, 16, 0, 31, .ro, 0⟩
/-- Current read epoch; wraps (R305). -/
def poolEpochEpoch : Field := ⟨.pool, 0x200, 8, 16, 0, 32, .ro, 0⟩
/-- Frames awaiting release (R305). -/
def poolEpochPending : Field := ⟨.pool, 0x200, 8, 16, 32, 24, .ro, 0⟩
/-- Pinned pages allowed; written by the Clerk at admission (R305). -/
def poolPinLimitLimit : Field := ⟨.pool, 0x280, 8, 16, 0, 24, .ro, 0⟩
/-- Pages pinned now (R305). -/
def poolPinLimitPinned : Field := ⟨.pool, 0x280, 8, 16, 24, 24, .ro, 0⟩
/-- Logical pages available to the pool (R300); set after the option-loading phase (R306). -/
def flashCapacity : Field := ⟨.flash, 0x0, 0, 1, 0, 32, .ro, 0⟩
/-- Logical pages holding pool pages (R306). -/
def flashInUse : Field := ⟨.flash, 0x8, 0, 1, 0, 32, .ro, 0⟩
/-- Logical pages of the firmware and snapshot partitions (R306). -/
def flashReserved : Field := ⟨.flash, 0x10, 0, 1, 0, 32, .ro, 0⟩
/-- Blocks retired, factory-bad included (R306). -/
def flashRetiredBlocks : Field := ⟨.flash, 0x18, 0, 1, 0, 32, .ro, 0⟩
/-- Read-disturb refreshes (R302) (R306). -/
def flashRefreshCnt : Field := ⟨.flash, 0x20, 0, 1, 0, 32, .sat, 0⟩
/-- Reads that needed a retry; 48-bit saturating (R306). -/
def flashRetryCnt : Field := ⟨.flash, 0x28, 0, 1, 0, 48, .sat, 0⟩
/-- Reads failed after the last level (R303) (R306). -/
def flashReadFailCnt : Field := ⟨.flash, 0x30, 0, 1, 0, 32, .sat, 0⟩
/-- Erase-count spread that starts a levelling move (R306). -/
def flashWearSpread : Field := ⟨.flash, 0x38, 0, 1, 0, 16, .rw, 0x7d0⟩
/-- Lowest block erase count (R306). -/
def flashWearEraseMin : Field := ⟨.flash, 0x38, 0, 1, 32, 16, .ro, 0⟩
/-- Highest block erase count (R306). -/
def flashWearEraseMax : Field := ⟨.flash, 0x38, 0, 1, 48, 16, .ro, 0⟩
/-- 0 DOWN, 1 TRAINING, 2 UP, 3 DISABLED (R328). -/
def scecyStateLink : Field := ⟨.scecy, 0x0, 0, 1, 0, 2, .ro, 0⟩
/-- Partner's MODULE.ID, learned in training (R328). -/
def scecyStatePartnerMod : Field := ⟨.scecy, 0x0, 0, 1, 16, 16, .ro, 0⟩
/-- Partner's port number (R328). -/
def scecyStatePartnerPort : Field := ⟨.scecy, 0x0, 0, 1, 32, 5, .ro, 0⟩
/-- 0 disables the port; writing 1 to a DOWN port starts training (R328). -/
def scecyCtrlEnable : Field := ⟨.scecy, 0x8, 0, 1, 0, 1, .rw, 1⟩
/-- Writing 1 retrains (R313) (R328). -/
def scecyCtrlRetrain : Field := ⟨.scecy, 0x8, 0, 1, 1, 1, .wo, 0⟩
/-- R313; 0 acts as 1 (R328). -/
def scecyCtrlReplayLimit : Field := ⟨.scecy, 0x8, 0, 1, 8, 8, .rw, 8⟩
/-- R313; 0 acts as 1 (R328). -/
def scecyCtrlRetrainLimit : Field := ⟨.scecy, 0x8, 0, 1, 16, 4, .rw, 3⟩
/-- Port cycles (R312); 0 acts as 1 (R328). -/
def scecyCtrlReplayTimeout : Field := ⟨.scecy, 0x8, 0, 1, 32, 16, .rw, 0x1000⟩
/-- Corrected codewords; 48-bit saturating (R328). -/
def scecyFecCeCnt : Field := ⟨.scecy, 0x10, 0, 1, 0, 48, .sat, 0⟩
/-- Uncorrectable codewords (R328). -/
def scecyFecUeCnt : Field := ⟨.scecy, 0x18, 0, 1, 0, 32, .sat, 0⟩
/-- Flits discarded by CRC or KIND (R328). -/
def scecyCrcErrCnt : Field := ⟨.scecy, 0x20, 0, 1, 0, 32, .sat, 0⟩
/-- Flits replayed; 48-bit saturating (R328). -/
def scecyReplayCnt : Field := ⟨.scecy, 0x28, 0, 1, 0, 48, .sat, 0⟩
/-- Retrains (R328). -/
def scecyRetrainCnt : Field := ⟨.scecy, 0x30, 0, 1, 0, 32, .sat, 0⟩
/-- Non-idle flits sent; 48-bit saturating (R328). -/
def scecyTxFlits : Field := ⟨.scecy, 0x38, 0, 1, 0, 48, .sat, 0⟩
/-- Non-idle flits accepted; 48-bit saturating (R328). -/
def scecyRxFlits : Field := ⟨.scecy, 0x40, 0, 1, 0, 48, .sat, 0⟩
/-- Packets dropped when the port went DOWN (R328). -/
def scecyDownDropCnt : Field := ⟨.scecy, 0x48, 0, 1, 0, 32, .sat, 0⟩
/-- Bit p: Sp is UP (R329). -/
def fabPortUp : Field := ⟨.scecyAll, 0x0, 0, 1, 0, 24, .ro, 0⟩
/-- Network cycles (R318); 0 acts as 1 (R329). -/
def fabEscapeWait : Field := ⟨.scecyAll, 0x8, 0, 1, 0, 16, .rw, 0x100⟩
/-- Units of 2^10 cell cycles (about 10 ms); 0 acts as 1 (R329). -/
def fabRespTimeout : Field := ⟨.scecyAll, 0x10, 0, 1, 0, 32, .rw, 0x2a00⟩
/-- Packets without a usable port (R320) (R329). -/
def fabNorouteCnt : Field := ⟨.scecyAll, 0x18, 0, 1, 0, 32, .sat, 0⟩
/-- Packets dropped by HOPS or OP (R315) (R329). -/
def fabAgeDropCnt : Field := ⟨.scecyAll, 0x20, 0, 1, 0, 32, .sat, 0⟩
/-- Packets discarded after detach; 48-bit saturating (R329). -/
def fabMcastDiscardCnt : Field := ⟨.scecyAll, 0x28, 0, 1, 0, 48, .sat, 0⟩
/-- Receivers detached (R324) (R329). -/
def fabDetachCnt : Field := ⟨.scecyAll, 0x30, 0, 1, 0, 32, .sat, 0⟩
/-- Remote accesses timed out (R322) (R329). -/
def fabTimeoutCnt : Field := ⟨.scecyAll, 0x38, 0, 1, 0, 32, .sat, 0⟩
/-- R317, for g = 0–255 (R329). -/
def fabGroupTbl : Field := ⟨.scecyAll, 0x1000, 8, 256, 0, 28, .rw, 0⟩
/-- VALID of an entry of GROUP_TBL; its bits [62:28] are reserved (R317). -/
def fabGroupTblValid : Field := ⟨.scecyAll, 0x1000, 8, 256, 63, 1, .rw, 0⟩
/-- R317, for m = 0–255 (R329). -/
def fabMemberTbl : Field := ⟨.scecyAll, 0x1800, 8, 256, 0, 28, .rw, 0⟩
/-- VALID of an entry of MEMBER_TBL; its bits [62:28] are reserved (R317). -/
def fabMemberTblValid : Field := ⟨.scecyAll, 0x1800, 8, 256, 63, 1, .rw, 0⟩
/-- Layout epoch of tenant t, for t = 0–15; changed only by PERMUTE (R356). -/
def weaverLayoutEpoch : Field := ⟨.weaver, 0x0, 8, 16, 0, 32, .ro, 0⟩
/-- Instances started on channel c of tenant t; wraps (R356). -/
def weaverChanSeq : Field := ⟨.weaver, 0x80, 8, 256, 0, 32, .ro, 0⟩
/-- Instances running, 0–4 (R356). -/
def weaverChanInflight : Field := ⟨.weaver, 0x80, 8, 256, 32, 3, .ro, 0⟩
/-- Units of 2^10 cell cycles (about 10 ms); 0 acts as 1 (R356). -/
def weaverCollTimeout : Field := ⟨.weaver, 0x900, 0, 1, 0, 32, .rw, 0x2a00⟩
/-- Checksum mismatches detected (R345) (R356). -/
def weaverCsumFailCnt : Field := ⟨.weaver, 0x908, 0, 1, 0, 32, .sat, 0⟩
/-- MODULE.ID of the sender of the latest failed partial (R356). -/
def weaverCsumFailAtSender : Field := ⟨.weaver, 0x910, 0, 1, 0, 16, .ro, 0⟩
/-- Stage of R345 (R356). -/
def weaverCsumFailAtStage : Field := ⟨.weaver, 0x910, 0, 1, 16, 16, .ro, 0⟩
/-- Block index (R356). -/
def weaverCsumFailAtBlock : Field := ⟨.weaver, 0x910, 0, 1, 32, 31, .ro, 0⟩
/-- 1: the fields hold a value (R356). -/
def weaverCsumFailAtValid : Field := ⟨.weaver, 0x910, 0, 1, 63, 1, .w1c, 0⟩
/-- Instances ended by R336 or R352 at this module (R356). -/
def weaverEpochMismatchCnt : Field := ⟨.weaver, 0x918, 0, 1, 0, 32, .sat, 0⟩
/-- Shards whose tag differed from the log (R349) (R356). -/
def weaverDriftCnt : Field := ⟨.weaver, 0x920, 0, 1, 0, 32, .sat, 0⟩
/-- Group index of the latest drifting shard (R356). -/
def weaverLastDrift : Field := ⟨.weaver, 0x928, 0, 1, 0, 32, .ro, 0⟩
/-- Grants dropped for a differing opcode (R332) (R356). -/
def weaverSeqMismatchCnt : Field := ⟨.weaver, 0x930, 0, 1, 0, 32, .sat, 0⟩
/-- Instances ended by a peer's abort (R333) (R356). -/
def weaverAbortCnt : Field := ⟨.weaver, 0x938, 0, 1, 0, 32, .sat, 0⟩
/-- REDUCEs that wrote a flag of 1 (R339) (R356). -/
def weaverNonfiniteCnt : Field := ⟨.weaver, 0x940, 0, 1, 0, 32, .sat, 0⟩
/-- Transactions committed; 48-bit saturating (R392). -/
def poolTxnCommitCnt : Field := ⟨.pool, 0x300, 0, 1, 0, 48, .sat, 0⟩
/-- Transactions aborted, aborting commits included (R392). -/
def poolTxnAbortCnt : Field := ⟨.pool, 0x308, 0, 1, 0, 32, .sat, 0⟩
/-- Commits aborted for NONFINITE (R373) (R392). -/
def poolNonfiniteSkipCnt : Field := ⟨.pool, 0x310, 0, 1, 0, 32, .sat, 0⟩
/-- Writes discarded after an abort (R370) (R392). -/
def poolTxnLateWriteCnt : Field := ⟨.pool, 0x318, 0, 1, 0, 32, .sat, 0⟩
/-- TXN_ID held in slot k of tenant t; a transaction takes the lowest free slot (R392). -/
def poolTxnSlotId : Field := ⟨.pool, 0x400, 8, 128, 0, 16, .ro, 0⟩
/-- 0 free, 1 OPEN, 2 DOOMED, 3 IN_DOUBT, 4 closing (R392). -/
def poolTxnSlotState : Field := ⟨.pool, 0x400, 8, 128, 16, 3, .ro, 0⟩
/-- Shadows held, 0–65,536 (R392). -/
def poolTxnSlotShadows : Field := ⟨.pool, 0x400, 8, 128, 19, 17, .ro, 0⟩
/-- Module identifier, loaded in the option-loading phase (The Clerk, Reset and Firmware Update) (R393). -/
def moduleIdId : Field := ⟨.module, 0x100, 0, 1, 0, 16, .rwl, 0⟩
/-- Tray number from the sideband (R393). -/
def moduleIdTray : Field := ⟨.module, 0x100, 0, 1, 16, 16, .ro, 0⟩
/-- Position in the tray, 0–7 (R393). -/
def moduleIdSlot : Field := ⟨.module, 0x100, 0, 1, 32, 3, .ro, 0⟩
/-- Power feed; 0 is unknown (R393). -/
def moduleFeedFeedId : Field := ⟨.module, 0x108, 0, 1, 0, 16, .ro, 0⟩
/-- Supply unit (R393). -/
def moduleFeedSupply : Field := ⟨.module, 0x108, 0, 1, 16, 8, .ro, 0⟩
/-- Feed alarm, live (R393). -/
def moduleFeedAlarm : Field := ⟨.module, 0x108, 0, 1, 24, 1, .ro, 0⟩
/-- Risk level (R378) (R393). -/
def moduleRiskLevel : Field := ⟨.module, 0x110, 0, 1, 0, 4, .ro, 0⟩
/-- R379 (R393). -/
def moduleRiskThresh : Field := ⟨.module, 0x110, 0, 1, 4, 4, .rw, 8⟩
/-- R379 (R393). -/
def moduleRiskHyst : Field := ⟨.module, 0x110, 0, 1, 8, 4, .rw, 2⟩
/-- R379 (R393). -/
def moduleRiskArmed : Field := ⟨.module, 0x110, 0, 1, 12, 1, .ro, 1⟩
/-- S of MEM, PIN, SRAM, LINK, TEMP, HOLD and FEED, four bits each, from [19:16] up (R393). -/
def moduleRiskScores : Field := ⟨.module, 0x110, 0, 1, 16, 28, .ro, 0⟩
/-- Periods evaluated; wraps (R393). -/
def moduleRiskPeriods : Field := ⟨.module, 0x110, 0, 1, 44, 20, .ro, 0⟩
/-- Weights in the order of SCORES, four bits each (R393). -/
def moduleRiskWeight : Field := ⟨.module, 0x118, 0, 1, 0, 28, .rw, 0x8884282⟩
/-- 64 KiB pages per flash snapshot slot; set in option loading (R393). -/
def moduleSnapSlot : Field := ⟨.module, 0x120, 0, 1, 0, 32, .ro, 0⟩
/-- Partner's MODULE.ID (R393). -/
def modulePartnerId : Field := ⟨.module, 0x180, 8, 16, 0, 16, .rw, 0⟩
/-- Writing 1 pairs (R382) (R393). -/
def modulePartnerPair : Field := ⟨.module, 0x180, 8, 16, 16, 1, .wo, 0⟩
/-- Pairing complete (R393). -/
def modulePartnerPaired : Field := ⟨.module, 0x180, 8, 16, 17, 1, .ro, 0⟩
/-- No answer (R393). -/
def modulePartnerPairFail : Field := ⟨.module, 0x180, 8, 16, 18, 1, .ro, 0⟩
/-- R382 (R393). -/
def modulePartnerCoFed : Field := ⟨.module, 0x180, 8, 16, 19, 1, .ro, 0⟩
/-- Partner's FEED_ID (R393). -/
def modulePartnerPartnerFeed : Field := ⟨.module, 0x180, 8, 16, 20, 16, .ro, 0⟩
/-- Data position; a write arms the streams (R393). -/
def moduleDataPos : Field := ⟨.module, 0x200, 8, 16, 0, 64, .rw, 0⟩
/-- Shared-cache offset of the ring; bits [3:0] ignored (R393). -/
def moduleEvtRingBase : Field := ⟨.module, 0x280, 8, 16, 0, 28, .rw, 0⟩
/-- The ring holds 2^LOG2 records (R393). -/
def moduleEvtRingLog2 : Field := ⟨.module, 0x280, 8, 16, 28, 4, .rw, 0⟩
/-- Records written; wraps (R393). -/
def moduleEvtRingHead : Field := ⟨.module, 0x280, 8, 16, 32, 32, .ro, 0⟩
/-- Word incremented per event; bits [1:0] ignored (R393). -/
def moduleEvtTallyOffset : Field := ⟨.module, 0x300, 8, 16, 0, 28, .rw, 0⟩
/-- 1: events delivered (R393). -/
def moduleEvtTallyEnable : Field := ⟨.module, 0x300, 8, 16, 28, 1, .rw, 0⟩
/-- Key of stream s, for s = 0–3 (R393). -/
def moduleStreamSeed : Field := ⟨.module, 0x1000, 64, 64, 0, 64, .rw, 0⟩
/-- R377 (R393). -/
def moduleStreamBase : Field := ⟨.module, 0x1008, 64, 64, 0, 64, .rw, 0⟩
/-- Draws per unit of data position (R393). -/
def moduleStreamCfgRate : Field := ⟨.module, 0x1010, 64, 64, 0, 32, .rw, 0⟩
/-- R376 (R393). -/
def moduleStreamCfgStreamNo : Field := ⟨.module, 0x1010, 64, 64, 32, 16, .rw, 0⟩
/-- R377 (R393). -/
def moduleStreamCfgArmed : Field := ⟨.module, 0x1010, 64, 64, 48, 1, .ro, 0⟩
/-- R377 (R393). -/
def moduleStreamCfgSkew : Field := ⟨.module, 0x1010, 64, 64, 49, 1, .ro, 0⟩
/-- Draws taken (R393). -/
def moduleStreamOffset : Field := ⟨.module, 0x1018, 64, 64, 0, 64, .rw, 0⟩
/-- A read draws (R376) (R393). -/
def moduleStreamDraw : Field := ⟨.module, 0x1020, 64, 64, 0, 32, .ro, 0⟩
/-- Descriptor offset appended to stream queue q, for q = 0–15; bits [5:0] ignored (R413). -/
def cellDoorbell : Field := ⟨.cell, 0xF00, 8, 16, 0, 21, .wo, 0⟩
/-- Doorbells discarded on a full queue (R413). -/
def cellDbDropCnt : Field := ⟨.cell, 0xF80, 0, 1, 0, 32, .sat, 0⟩
/-- 0 DOWN, 1 TRAINING, 2 UP (R419). -/
def ethState : Field := ⟨.eth, 0x0, 0, 1, 0, 2, .ro, 0⟩
/-- Port MAC address (R419). -/
def ethMac : Field := ⟨.eth, 0x8, 0, 1, 0, 48, .ro, 0⟩
/-- Loaded from the flash configuration table (R419). -/
def ethIpv4 : Field := ⟨.eth, 0x10, 0, 1, 0, 32, .rwl, 0⟩
/-- IPv6 address, low and high halves (R419). -/
def ethIpv6Lo : Field := ⟨.eth, 0x18, 0, 1, 0, 64, .rwl, 0⟩
/-- IPv6 address, low and high halves (R419). -/
def ethIpv6Hi : Field := ⟨.eth, 0x20, 0, 1, 0, 64, .rwl, 0⟩
/-- VLAN identifier (R419). -/
def ethVlanVid : Field := ⟨.eth, 0x28, 0, 1, 0, 12, .rwl, 0⟩
/-- 1: frames carry the 802.1Q tag (R419). -/
def ethVlanTagged : Field := ⟨.eth, 0x28, 0, 1, 12, 1, .rwl, 0⟩
/-- Frames received; 48-bit saturating (R419). -/
def ethRxFrames : Field := ⟨.eth, 0x40, 0, 1, 0, 48, .sat, 0⟩
/-- Frames sent; 48-bit saturating (R419). -/
def ethTxFrames : Field := ⟨.eth, 0x48, 0, 1, 0, 48, .sat, 0⟩
/-- Corrected FEC codewords; 48-bit saturating (R419). -/
def ethFecCeCnt : Field := ⟨.eth, 0x50, 0, 1, 0, 48, .sat, 0⟩
/-- Frames dropped by R398, steps 1 and 2 (R419). -/
def ethNonroceCnt : Field := ⟨.eth, 0x58, 0, 1, 0, 32, .sat, 0⟩
/-- Frames dropped as strangers (R419). -/
def ethStrangerCnt : Field := ⟨.eth, 0x60, 0, 1, 0, 32, .sat, 0⟩
/-- Tag failures (R419). -/
def ethIntegrityFailCnt : Field := ⟨.eth, 0x68, 0, 1, 0, 32, .sat, 0⟩
/-- SEQ replays (R419). -/
def ethReplayDropCnt : Field := ⟨.eth, 0x70, 0, 1, 0, 32, .sat, 0⟩
/-- HELLOs dropped by R400 (R419). -/
def ethHelloDropCnt : Field := ⟨.eth, 0x78, 0, 1, 0, 32, .sat, 0⟩
/-- Packets received marked CE; 48-bit saturating (R419). -/
def ethCeRxCnt : Field := ⟨.eth, 0x80, 0, 1, 0, 48, .sat, 0⟩
/-- CNPs sent (R419). -/
def ethCnpTxCnt : Field := ⟨.eth, 0x88, 0, 1, 0, 32, .sat, 0⟩
/-- CNPs received (R419). -/
def ethCnpRxCnt : Field := ⟨.eth, 0x88, 0, 1, 32, 32, .sat, 0⟩
/-- Packets retransmitted; 48-bit saturating (R419). -/
def ethRetxCnt : Field := ⟨.eth, 0x90, 0, 1, 0, 48, .sat, 0⟩
/-- UDP destination port of R396 (R420). -/
def ethEncapPort : Field := ⟨.ethAll, 0x0, 0, 1, 0, 16, .rwl, 0xc27f⟩
/-- Units of 2^10 cell cycles (about 500 µs); 0 acts as 1 (R420). -/
def ethRetransAckTimeout : Field := ⟨.ethAll, 0x8, 0, 1, 0, 32, .rw, 0x219⟩
/-- Attempts (R406); 0 acts as 1 (R420). -/
def ethRetransRetry : Field := ⟨.ethAll, 0x8, 0, 1, 32, 4, .rw, 7⟩
/-- Units of 2^10 cell cycles (about 100 ms); 0 acts as 1 (R420). -/
def ethHsTimeout : Field := ⟨.ethAll, 0x10, 0, 1, 0, 32, .rw, 0x1a400⟩
/-- Accesses refused by R417 (R420). -/
def ethCtlDenyCnt : Field := ⟨.ethAll, 0x18, 0, 1, 0, 32, .sat, 0⟩
/-- Failed FINISH checks (R402) (R420). -/
def ethAuthFailCnt : Field := ⟨.ethAll, 0x20, 0, 1, 0, 32, .sat, 0⟩
/-- Notices not sent (R414) (R420). -/
def ethNotifyDropCnt : Field := ⟨.ethAll, 0x28, 0, 1, 0, 32, .sat, 0⟩
/-- 0 none, 1 handshake, 2 open (R420). -/
def ethSessionState : Field := ⟨.ethAll, 0x100, 8, 16, 0, 2, .ro, 0⟩
/-- Extension agreed (R407) (R420). -/
def ethSessionSack : Field := ⟨.ethAll, 0x100, 8, 16, 2, 1, .ro, 0⟩
/-- Queue pairs open, 0–4,096 (R420). -/
def ethSessionQps : Field := ⟨.ethAll, 0x100, 8, 16, 16, 13, .ro, 0⟩
/-- Latest fault of the session or its queue pairs (R420). -/
def ethSessionLastFault : Field := ⟨.ethAll, 0x100, 8, 16, 32, 16, .ro, 0⟩
/-- Low 16 bits of the QPN that LAST_FAULT concerns (R420). -/
def ethSessionLastQpn : Field := ⟨.ethAll, 0x100, 8, 16, 48, 16, .ro, 0⟩
/-- Tenant admitted (R420). -/
def ethAdmitAdmitted : Field := ⟨.ethAll, 0x180, 8, 16, 0, 1, .ro, 0⟩
/-- R399 (R420). -/
def ethAdmitManager : Field := ⟨.ethAll, 0x180, 8, 16, 1, 1, .ro, 0⟩
/-- R399 (R420). -/
def ethAdmitMaxQp : Field := ⟨.ethAll, 0x180, 8, 16, 16, 13, .ro, 0⟩
/-- Cell groups held (R420). -/
def ethAdmitCgMask : Field := ⟨.ethAll, 0x180, 8, 16, 32, 16, .ro, 0⟩
/-- Module queue pair of notices (R420). -/
def ethNotifyQpn : Field := ⟨.ethAll, 0x280, 16, 16, 0, 24, .rw, 0⟩
/-- R414 (R420). -/
def ethNotifyEnable : Field := ⟨.ethAll, 0x280, 16, 16, 24, 1, .rw, 0⟩
/-- Host rkey (R420). -/
def ethNotifyRkey : Field := ⟨.ethAll, 0x280, 16, 16, 32, 32, .rw, 0⟩
/-- Host address of record 0 (R420). -/
def ethNotifyVa : Field := ⟨.ethAll, 0x288, 16, 16, 0, 64, .rw, 0⟩
/-- 0 invalid, 1 POOL, 2 ADDR, 3 acts as 0; RO for r = 0 (R420). -/
def ethRegionKind : Field := ⟨.ethAll, 0x1000, 16, 1024, 0, 2, .rw, 0⟩
/-- [2] read, [3] write, [4] atomic (R420). -/
def ethRegionPerm : Field := ⟨.ethAll, 0x1000, 16, 1024, 2, 3, .rw, 0⟩
/-- Increments on every write to the entry (R420). -/
def ethRegionGen : Field := ⟨.ethAll, 0x1000, 16, 1024, 10, 22, .ro, 0⟩
/-- Region length in units of 64 bytes (R420). -/
def ethRegionLength : Field := ⟨.ethAll, 0x1000, 16, 1024, 32, 32, .rw, 0⟩
/-- First TPN (POOL) or global address (ADDR) (R420). -/
def ethRegionBase : Field := ⟨.ethAll, 0x1008, 16, 1024, 0, 48, .rw, 0⟩
/-- Bit per source (R431) (R453). -/
def resetCause : Field := ⟨.rst, 0x0, 0, 1, 0, 7, .w1c, 1⟩
/-- Converter code (R440) (R453). -/
def resetStrapCode : Field := ⟨.rst, 0x8, 0, 1, 0, 6, .ro, 0⟩
/-- R441 (R453). -/
def resetStrapWindow : Field := ⟨.rst, 0x8, 0, 1, 8, 4, .ro, 0⟩
/-- 0 normal, 1 force staging, 2 recovery, 3 hold (R453). -/
def resetStrapPolicy : Field := ⟨.rst, 0x8, 0, 1, 12, 2, .ro, 0⟩
/-- Half Scecy rate (R453). -/
def resetStrapHalfRate : Field := ⟨.rst, 0x8, 0, 1, 14, 1, .ro, 0⟩
/-- Single tenancy (R453). -/
def resetStrapSingle : Field := ⟨.rst, 0x8, 0, 1, 15, 1, .ro, 0⟩
/-- R441, R442 (R453). -/
def resetStrapBad : Field := ⟨.rst, 0x8, 0, 1, 16, 1, .ro, 0⟩
/-- Window 2 in a field module (R453). -/
def resetStrapMfg : Field := ⟨.rst, 0x8, 0, 1, 17, 1, .ro, 0⟩
/-- Option-loading restarts; 8-bit, saturating at 255; writes are ignored, and only a POWER_ON … (R453). -/
def resetOptRestarts : Field := ⟨.rst, 0x10, 0, 1, 0, 8, .ro, 0⟩
/-- Option loading complete (R453). -/
def resetOptDone : Field := ⟨.rst, 0x10, 0, 1, 8, 1, .ro, 0⟩
/-- R447 (R453). -/
def resetLockBootLock : Field := ⟨.rst, 0x18, 0, 1, 0, 1, .ro, 0⟩
/-- R428 (R453). -/
def resetLockOwnerLock : Field := ⟨.rst, 0x18, 0, 1, 1, 1, .ro, 0⟩
/-- Copy of RESET.CAUSE at boot (R454). -/
def moduleBootCause : Field := ⟨.module, 0x400, 0, 1, 0, 7, .ro, 0⟩
/-- Strap window (R454). -/
def moduleBootWindow : Field := ⟨.module, 0x400, 0, 1, 8, 4, .ro, 0⟩
/-- OK, SIG_FAIL or WATCHDOG (R454). -/
def moduleBootFault : Field := ⟨.module, 0x400, 0, 1, 16, 16, .ro, 0⟩
/-- Fused anti-rollback count (R454). -/
def moduleBootArb : Field := ⟨.module, 0x400, 0, 1, 32, 8, .ro, 0⟩
/-- This boot activated the staging image (R454). -/
def moduleBootActivated : Field := ⟨.module, 0x400, 0, 1, 40, 1, .ro, 0⟩
/-- This boot found the flash configuration table bad and used its defaults (R430) (R454). -/
def moduleBootCfgBad : Field := ⟨.module, 0x400, 0, 1, 41, 1, .ro, 0⟩
/-- R435 (R454). -/
def moduleSwResetArm : Field := ⟨.module, 0x408, 0, 1, 0, 1, .wo, 0⟩
/-- R435 (R454). -/
def moduleSwResetGo : Field := ⟨.module, 0x408, 0, 1, 1, 1, .wo, 0⟩
/-- Accesses dropped by R438 (R454). -/
def moduleRstDropCnt : Field := ⟨.module, 0x410, 0, 1, 0, 32, .sat, 0⟩
/-- R423 (R454). -/
def moduleTelemDropCnt : Field := ⟨.module, 0x418, 0, 1, 0, 32, .sat, 0⟩
/-- R423, R428, R449 (R454). -/
def moduleOwnerDropCnt : Field := ⟨.module, 0x420, 0, 1, 0, 32, .sat, 0⟩
/-- R439 (R454). -/
def moduleMemReqStacks : Field := ⟨.module, 0x428, 0, 1, 0, 12, .rw, 0⟩
/-- 1 RECOVERY, 0 SERVICE (R454). -/
def moduleMemReqRecovery : Field := ⟨.module, 0x428, 0, 1, 12, 1, .rw, 0⟩
/-- Writing 1 requests (R454). -/
def moduleMemReqGo : Field := ⟨.module, 0x428, 0, 1, 13, 1, .wo, 0⟩
/-- Request applied (R454). -/
def moduleMemReqDone : Field := ⟨.module, 0x428, 0, 1, 14, 1, .w1c, 0⟩
/-- VERSION of the active image (R454). -/
def moduleFwVersionActive : Field := ⟨.module, 0x438, 0, 1, 0, 32, .ro, 0⟩
/-- VERSION of a VALID staging image; 0 if none (R454). -/
def moduleFwVersionStaged : Field := ⟨.module, 0x438, 0, 1, 32, 32, .ro, 0⟩
/-- Image address (R454). -/
def moduleUpdateImage : Field := ⟨.module, 0x440, 0, 1, 0, 48, .rw, 0⟩
/-- Chain list address (R454). -/
def moduleUpdateChain : Field := ⟨.module, 0x448, 0, 1, 0, 48, .rw, 0⟩
/-- Result list address (R454). -/
def moduleUpdateResult : Field := ⟨.module, 0x450, 0, 1, 0, 48, .rw, 0⟩
/-- R449 (R454). -/
def moduleUpdateCtrlStart : Field := ⟨.module, 0x458, 0, 1, 0, 1, .wo, 0⟩
/-- Seconds (R451); 0 acts as 1 (R454). -/
def moduleUpdateCtrlTimeout : Field := ⟨.module, 0x458, 0, 1, 16, 16, .rw, 0x258⟩
/-- Update in progress here (R454). -/
def moduleUpdateCtrlBusy : Field := ⟨.module, 0x458, 0, 1, 32, 1, .ro, 0⟩
/-- Results written (R454). -/
def moduleUpdateCtrlDone : Field := ⟨.module, 0x458, 0, 1, 33, 1, .w1c, 0⟩
/-- R451 (R454). -/
def moduleUpdateCtrlFault : Field := ⟨.module, 0x458, 0, 1, 48, 16, .ro, 0⟩
/-- Shared-cache offset; bits [4:0] ignored (R454). -/
def moduleTelemBase : Field := ⟨.module, 0x480, 0, 1, 0, 28, .rw, 0⟩
/-- Ring of 2^LOG2 records (R454). -/
def moduleTelemLog2 : Field := ⟨.module, 0x480, 0, 1, 28, 4, .rw, 0⟩
/-- Milliseconds; 0 acts as 1 (R454). -/
def moduleTelemPeriod : Field := ⟨.module, 0x480, 0, 1, 32, 16, .rw, 0x3e8⟩
/-- R425 (R454). -/
def moduleTelemEnable : Field := ⟨.module, 0x480, 0, 1, 48, 1, .rw, 0⟩
/-- Records written; wraps (R454). -/
def moduleTelemHead : Field := ⟨.module, 0x488, 0, 1, 0, 32, .ro, 0⟩
/-- Mean input power of the last 1 ms window [W] (R473). -/
def modulePowerInputW : Field := ⟨.module, 0x500, 0, 1, 0, 16, .ro, 0⟩
/-- Cell clock [MHz] (R473). -/
def modulePowerCellMhz : Field := ⟨.module, 0x500, 0, 1, 16, 11, .ro, 0x44c⟩
/-- 1: the latest step down was called for by power (R473). -/
def modulePowerPwrLimit : Field := ⟨.module, 0x500, 0, 1, 27, 1, .ro, 0⟩
/-- 1: the latest step down was called for by temperature (R473). -/
def modulePowerTempLimit : Field := ⟨.module, 0x500, 0, 1, 28, 1, .ro, 0⟩
/-- Steps down taken (R464) (R473). -/
def moduleClockdownCnt : Field := ⟨.module, 0x508, 0, 1, 0, 32, .sat, 0⟩
/-- Charge [% of full], 0–100 (R473). -/
def moduleHoldupCharge : Field := ⟨.module, 0x510, 0, 1, 0, 8, .ro, 0⟩
/-- 1: the bank is charging (R473). -/
def moduleHoldupCharging : Field := ⟨.module, 0x510, 0, 1, 8, 1, .ro, 0⟩
/-- 1: the latest test failed (R466) (R473). -/
def moduleHoldupFailed : Field := ⟨.module, 0x510, 0, 1, 9, 1, .ro, 0⟩
/-- Tests completed; wraps (R473). -/
def moduleHoldupTests : Field := ⟨.module, 0x510, 0, 1, 32, 16, .ro, 0⟩
/-- 1: TRAY_MOVE_N is low (R473). -/
def moduleSidebandTrayMove : Field := ⟨.module, 0x518, 0, 1, 0, 1, .ro, 0⟩
/-- 1: FEED_ALARM_N is low (R473). -/
def moduleSidebandFeedAlarm : Field := ⟨.module, 0x518, 0, 1, 1, 1, .ro, 0⟩
/-- R461 (R473). -/
def moduleSidebandTrayReadFail : Field := ⟨.module, 0x518, 0, 1, 2, 1, .ro, 0⟩
/-- Temperature of sensor i in units of 0.125 °C, for i = 0–38 (R473). -/
def moduleTempCur : Field := ⟨.module, 0x540, 8, 39, 0, 12, .ro, 0⟩
/-- Warning limit, same units (R473). -/
def moduleTempWarn : Field := ⟨.module, 0x540, 8, 39, 12, 12, .ro, 0⟩
/-- Trip limit, same units (R473). -/
def moduleTempTrip : Field := ⟨.module, 0x540, 8, 39, 24, 12, .ro, 0⟩
/-- 1: CUR is above WARN (R473). -/
def moduleTempAboveWarn : Field := ⟨.module, 0x540, 8, 39, 36, 1, .ro, 0⟩
/-- Accesses to addresses in no aperture (R8). -/
def moduleHoleCnt : Field := ⟨.module, 0x10, 0, 1, 0, 32, .sat, 0⟩
/-- Control-space accesses to a fenced cell (R50). -/
def moduleFenceDropCnt : Field := ⟨.module, 0x18, 0, 1, 0, 32, .sat, 0⟩
/-- Single-bit errors of the shared cache (R275). -/
def scacheSramCeCnt : Field := ⟨.scache, 0x200, 0, 1, 0, 32, .sat, 0⟩
/-- Set-and-clear coincidences of a block (R109). -/
def coincideCnt (b : Blk) : Field := ⟨b, 0xFF8, 0, 1, 0, 32, .sat, 0⟩
/-- Cycles of the block's domain since its last reset (R472). -/
def cycles (b : Blk) : Field := ⟨b, 0xFE8, 0, 1, 0, 64, .ro, 0⟩
/-- SWRST.RESET: writing 1 resets the unit (R436). -/
def swrstReset (b : Blk) : Field := ⟨b, 0xFF0, 0, 1, 0, 4, .wo, 0⟩
/-- SWRST.IN_RESET: 1 while the unit is in reset (R436). -/
def swrstInReset (b : Blk) : Field := ⟨b, 0xFF0, 0, 1, 4, 4, .ro, 0⟩
/-- SWRST.IDLE: 1 while the unit meets R437; computed on a read (R436). -/
def swrstIdle (b : Blk) : Field := ⟨b, 0xFF0, 0, 1, 8, 4, .ro, 0⟩
/-- SWRST.NOT_IDLE: sticky, the unit was reset while not idle (R436). -/
def swrstNotIdle (b : Blk) : Field := ⟨b, 0xFF0, 0, 1, 12, 4, .w1c, 0⟩

end Fd

/-- Blocks that carry SWRST (R436). -/
def Blk.resettable : Blk → Bool
  | .cell => true
  | .stack => true
  | .scecy => true
  | .eth => true
  | .flash => true
  | .weaver => true
  | .scecyAll => false
  | .ethAll => false
  | .pool => false
  | .scache => false
  | .clerk => false
  | .rst => false
  | .module => false

/-- The fields of each kind of block that are its own. -/
def Blk.ownFields : Blk → List Field
  | .cell =>
    [Fd.cellStateFenced, Fd.cellStateMillBusy, Fd.cellStateBank0Drain, Fd.cellStateBank1Drain, Fd.cellBusyCnt, Fd.cellSramCeCnt, Fd.cellWrapCnt, Fd.cellStallCnt, Fd.cellTkEntry, Fd.cellTkRun0, Fd.cellTkRun1, Fd.cellTkTrap0] ++
    [Fd.cellTkTrap1, Fd.cellSqDone, Fd.cellQueueDepth, Fd.cellQueueOutst, Fd.cellTallyBase, Fd.cellBadopCnt, Fd.cellDiscardCnt, Fd.cellTally, Fd.cellKvWidenCnt, Fd.cellMaskSkipCnt, Fd.cellTillSlotWs, Fd.cellTillSlotValid] ++
    [Fd.cellTillSlotBusy, Fd.cellTillSlotSat, Fd.cellTillSlotNar, Fd.cellTillAddCnt, Fd.cellReblockFlushCnt, Fd.cellTableSlotActive, Fd.cellTableSlotValid0, Fd.cellTableSlotValid1, Fd.cellTableSlotPending, Fd.cellTableSlotLoading, Fd.cellTableSlotGen0, Fd.cellTableSlotGen1] ++
    [Fd.cellCodedBlockCnt, Fd.cellRawBlockCnt, Fd.cellPlainFrameCnt, Fd.cellTruncBlockCnt, Fd.cellOverlongBlockCnt, Fd.cellStaleBlockCnt, Fd.cellWinMapValid, Fd.cellWinMapStack, Fd.cellWinMapRegion, Fd.cellWinMapGroupBase, Fd.cellDoorbell, Fd.cellDbDropCnt]
  | .stack =>
    [Fd.stackStateInService, Fd.stackStateRetiring, Fd.stackStateRetired, Fd.stackMode, Fd.stackCapacity, Fd.stackInnerCeCnt, Fd.stackOuterCeCnt, Fd.stackErasureCnt, Fd.stackUeCnt, Fd.stackUeAddrAddr, Fd.stackUeAddrValid, Fd.stackRmwCnt] ++
    [Fd.stackRetiredAccessCnt, Fd.stackScrubPeriod, Fd.stackScrubPasses, Fd.stackPinThresh, Fd.stackLostPinsDq, Fd.stackLostPinsCb, Fd.stackMsDst, Fd.stackMsSrc, Fd.stackMsCount, Fd.stackMsGoKind, Fd.stackMsGoImm, Fd.stackMsStatusFault] ++
    [Fd.stackMsStatusBusy, Fd.stackMsStatusDone, Fd.stackMsRefusedCnt]
  | .scecy =>
    [Fd.scecyStateLink, Fd.scecyStatePartnerMod, Fd.scecyStatePartnerPort, Fd.scecyCtrlEnable, Fd.scecyCtrlRetrain, Fd.scecyCtrlReplayLimit, Fd.scecyCtrlRetrainLimit, Fd.scecyCtrlReplayTimeout, Fd.scecyFecCeCnt, Fd.scecyFecUeCnt, Fd.scecyCrcErrCnt, Fd.scecyReplayCnt] ++
    [Fd.scecyRetrainCnt, Fd.scecyTxFlits, Fd.scecyRxFlits, Fd.scecyDownDropCnt]
  | .scecyAll =>
    [Fd.fabPortUp, Fd.fabEscapeWait, Fd.fabRespTimeout, Fd.fabNorouteCnt, Fd.fabAgeDropCnt, Fd.fabMcastDiscardCnt, Fd.fabDetachCnt, Fd.fabTimeoutCnt, Fd.fabGroupTbl, Fd.fabGroupTblValid, Fd.fabMemberTbl, Fd.fabMemberTblValid]
  | .weaver =>
    [Fd.weaverLayoutEpoch, Fd.weaverChanSeq, Fd.weaverChanInflight, Fd.weaverCollTimeout, Fd.weaverCsumFailCnt, Fd.weaverCsumFailAtSender, Fd.weaverCsumFailAtStage, Fd.weaverCsumFailAtBlock, Fd.weaverCsumFailAtValid, Fd.weaverEpochMismatchCnt, Fd.weaverDriftCnt, Fd.weaverLastDrift] ++
    [Fd.weaverSeqMismatchCnt, Fd.weaverAbortCnt, Fd.weaverNonfiniteCnt]
  | .eth =>
    [Fd.ethState, Fd.ethMac, Fd.ethIpv4, Fd.ethIpv6Lo, Fd.ethIpv6Hi, Fd.ethVlanVid, Fd.ethVlanTagged, Fd.ethRxFrames, Fd.ethTxFrames, Fd.ethFecCeCnt, Fd.ethNonroceCnt, Fd.ethStrangerCnt] ++
    [Fd.ethIntegrityFailCnt, Fd.ethReplayDropCnt, Fd.ethHelloDropCnt, Fd.ethCeRxCnt, Fd.ethCnpTxCnt, Fd.ethCnpRxCnt, Fd.ethRetxCnt]
  | .ethAll =>
    [Fd.ethEncapPort, Fd.ethRetransAckTimeout, Fd.ethRetransRetry, Fd.ethHsTimeout, Fd.ethCtlDenyCnt, Fd.ethAuthFailCnt, Fd.ethNotifyDropCnt, Fd.ethSessionState, Fd.ethSessionSack, Fd.ethSessionQps, Fd.ethSessionLastFault, Fd.ethSessionLastQpn] ++
    [Fd.ethAdmitAdmitted, Fd.ethAdmitManager, Fd.ethAdmitMaxQp, Fd.ethAdmitCgMask, Fd.ethNotifyQpn, Fd.ethNotifyEnable, Fd.ethNotifyRkey, Fd.ethNotifyVa, Fd.ethRegionKind, Fd.ethRegionPerm, Fd.ethRegionGen, Fd.ethRegionLength] ++
    [Fd.ethRegionBase]
  | .flash =>
    [Fd.flashCapacity, Fd.flashInUse, Fd.flashReserved, Fd.flashRetiredBlocks, Fd.flashRefreshCnt, Fd.flashRetryCnt, Fd.flashReadFailCnt, Fd.flashWearSpread, Fd.flashWearEraseMin, Fd.flashWearEraseMax]
  | .pool =>
    [Fd.poolCapacity, Fd.poolFree, Fd.poolAgePeriod, Fd.poolFreeTarget, Fd.poolEvictCnt, Fd.poolFaultinCnt, Fd.poolCowWriteCnt, Fd.poolFreeNopCnt, Fd.poolRefSatCnt, Fd.poolDemoteSkipCnt, Fd.poolOwnerFaultCnt, Fd.poolPtWriteDropCnt] ++
    [Fd.poolRetireWait, Fd.poolPtBase, Fd.poolPtEntries, Fd.poolEpochEpoch, Fd.poolEpochPending, Fd.poolPinLimitLimit, Fd.poolPinLimitPinned, Fd.poolTxnCommitCnt, Fd.poolTxnAbortCnt, Fd.poolNonfiniteSkipCnt, Fd.poolTxnLateWriteCnt, Fd.poolTxnSlotId] ++
    [Fd.poolTxnSlotState, Fd.poolTxnSlotShadows]
  | .scache =>
    [Fd.scacheSliceStatWrap, Fd.scacheSliceStatLastWrap, Fd.scacheSramCeCnt]
  | .clerk => []
  | .rst =>
    [Fd.resetCause, Fd.resetStrapCode, Fd.resetStrapWindow, Fd.resetStrapPolicy, Fd.resetStrapHalfRate, Fd.resetStrapSingle, Fd.resetStrapBad, Fd.resetStrapMfg, Fd.resetOptRestarts, Fd.resetOptDone, Fd.resetLockBootLock, Fd.resetLockOwnerLock]
  | .module =>
    [Fd.moduleSteppingStep, Fd.moduleSteppingCellsLog2, Fd.moduleCgAvailAvail, Fd.moduleCgAvailFencedCells, Fd.moduleIdId, Fd.moduleIdTray, Fd.moduleIdSlot, Fd.moduleFeedFeedId, Fd.moduleFeedSupply, Fd.moduleFeedAlarm, Fd.moduleRiskLevel, Fd.moduleRiskThresh] ++
    [Fd.moduleRiskHyst, Fd.moduleRiskArmed, Fd.moduleRiskScores, Fd.moduleRiskPeriods, Fd.moduleRiskWeight, Fd.moduleSnapSlot, Fd.modulePartnerId, Fd.modulePartnerPair, Fd.modulePartnerPaired, Fd.modulePartnerPairFail, Fd.modulePartnerCoFed, Fd.modulePartnerPartnerFeed] ++
    [Fd.moduleDataPos, Fd.moduleEvtRingBase, Fd.moduleEvtRingLog2, Fd.moduleEvtRingHead, Fd.moduleEvtTallyOffset, Fd.moduleEvtTallyEnable, Fd.moduleStreamSeed, Fd.moduleStreamBase, Fd.moduleStreamCfgRate, Fd.moduleStreamCfgStreamNo, Fd.moduleStreamCfgArmed, Fd.moduleStreamCfgSkew] ++
    [Fd.moduleStreamOffset, Fd.moduleStreamDraw, Fd.moduleBootCause, Fd.moduleBootWindow, Fd.moduleBootFault, Fd.moduleBootArb, Fd.moduleBootActivated, Fd.moduleBootCfgBad, Fd.moduleSwResetArm, Fd.moduleSwResetGo, Fd.moduleRstDropCnt, Fd.moduleTelemDropCnt] ++
    [Fd.moduleOwnerDropCnt, Fd.moduleMemReqStacks, Fd.moduleMemReqRecovery, Fd.moduleMemReqGo, Fd.moduleMemReqDone, Fd.moduleFwVersionActive, Fd.moduleFwVersionStaged, Fd.moduleUpdateImage, Fd.moduleUpdateChain, Fd.moduleUpdateResult, Fd.moduleUpdateCtrlStart, Fd.moduleUpdateCtrlTimeout] ++
    [Fd.moduleUpdateCtrlBusy, Fd.moduleUpdateCtrlDone, Fd.moduleUpdateCtrlFault, Fd.moduleTelemBase, Fd.moduleTelemLog2, Fd.moduleTelemPeriod, Fd.moduleTelemEnable, Fd.moduleTelemHead, Fd.modulePowerInputW, Fd.modulePowerCellMhz, Fd.modulePowerPwrLimit, Fd.modulePowerTempLimit] ++
    [Fd.moduleClockdownCnt, Fd.moduleHoldupCharge, Fd.moduleHoldupCharging, Fd.moduleHoldupFailed, Fd.moduleHoldupTests, Fd.moduleSidebandTrayMove, Fd.moduleSidebandFeedAlarm, Fd.moduleSidebandTrayReadFail, Fd.moduleTempCur, Fd.moduleTempWarn, Fd.moduleTempTrip, Fd.moduleTempAboveWarn] ++
    [Fd.moduleHoleCnt, Fd.moduleFenceDropCnt]

/-- Every field of a kind of block, those that every block has included. -/
def Blk.fields (b : Blk) : List Field :=
  b.ownFields ++ [Fd.coincideCnt b, Fd.cycles b] ++
    (if b.resettable then [Fd.swrstReset b, Fd.swrstInReset b, Fd.swrstIdle b, Fd.swrstNotIdle b] else [])

/-- The stall causes that have a code (R72); the other STALL_CNT offsets are unassigned. -/
def stallCodes : List Nat := [9, 8, 2, 18, 17, 16, 19, 10, 1, 3, 7, 6, 5, 4]

/-- Whether an index of a run of registers is assigned: STALL_CNT of a code of R72, TALLY from 1 (R122). -/
def Field.assigned (f : Field) (i : Nat) : Bool :=
  if f = Fd.cellStallCnt then stallCodes.contains i else if f = Fd.cellTally then decide (i ≠ 0) else true

/-- The fields of the register at an offset of control space, with the index of the register in its run. -/
def fieldsAt (o : Nat) : List (Field × Nat) :=
  match blockOf o with
  | none => []
  | some (b, _, p) =>
    b.fields.filterMap (fun f => match f.indexAt p with
      | some i => if f.assigned i then some (f, i) else none
      | none => none)

/-- Warning and trip limits of the sensors in degrees Celsius (R469). -/
def sensorLimits (i : Nat) : Nat × Nat :=
  if i < 20 then (95, 110) else if i < 32 then (85, 95) else if i < 33 then (80, 90) else if i < 37 then (110, 125)
  else if i < 38 then (40, 50) else (60, 70)

/-- The reset value of one field: its table value, the fused MAC address (R419), the limits of a sensor (R469). -/
def Field.resetAt (f : Field) (b i : Nat) : Nat :=
  if f = Fd.ethMac then (Config.fuseMac b).toNat
  else if f = Fd.moduleTempWarn then 8 * (sensorLimits i).1
  else if f = Fd.moduleTempTrip then 8 * (sensorLimits i).2
  else f.reset

/-- The reset value of a register (the After reset columns). -/
def resetValue (o : Nat) : BitVec 64 :=
  match blockOf o with
  | none => 0
  | some (_, b, _) => BitVec.ofNat 64 ((fieldsAt o).foldl (fun a fi => a + fi.1.resetAt b fi.2 * 2 ^ fi.1.lo) 0)

end Sys2Proof.Machine
end

