-- ==== Sys2Proof/Machine/LogNum.lean ====
section
/-! DEFINITION. Logarithmic number formats (R16 to R45): codes, embeddings, products, the accumulator, the store path, the
fallback history, TILL48 sums, INT24 quantisation and the checksum. A logarithm is an exact integer in units of 2^-10, on
which every format's grid lies (R19, R93). -/

namespace Sys2Proof.Machine

/-- The three logarithmic codes (R16). -/
inductive Fmt where
  | l4
  | l8
  | l16
  deriving DecidableEq, Repr

/-- Grid exponent (R16). -/
def Fmt.g : Fmt → Nat
  | .l4 => 1
  | .l8 => 3
  | .l16 => 10

/-- Bias (R16). -/
def Fmt.bias : Fmt → Int
  | .l4 => 4
  | .l8 => 64
  | .l16 => 16384

/-- Largest exponent field (R16). -/
def Fmt.emax : Fmt → Int
  | .l4 => 7
  | .l8 => 127
  | .l16 => 32767

/-- Top offset (R16). -/
def Fmt.top (f : Fmt) : Int := f.emax - f.bias

/-- Width in bits (R16). -/
def Fmt.bits : Fmt → Nat
  | .l4 => 4
  | .l8 => 8
  | .l16 => 16

/-- Elements in a block (R20). -/
def Fmt.blk : Fmt → Nat
  | .l4 => 32
  | .l8 => 32
  | .l16 => 128

/-- The two-bit format fields: 0 L4, 1 L8, 2 L16, 3 read as 2 (R128). -/
def Fmt.ofField (x : Nat) : Fmt :=
  if x % 4 = 0 then .l4 else if x % 4 = 1 then .l8 else .l16

/-- The value of a code: zero, NaR, or a sign and a logarithm in units of 2^-10 (R16, R17). -/
inductive LVal where
  | zero
  | nar
  | num (neg : Bool) (l : Int)
  deriving DecidableEq, Repr

/-- The sign bit of a code. -/
def Fmt.signOf (f : Fmt) (code : Nat) : Bool := decide (code / 2 ^ (f.bits - 1) % 2 = 1)

/-- The exponent field of a code. -/
def Fmt.expOf (f : Fmt) (code : Nat) : Nat := code % 2 ^ (f.bits - 1)

/-- A code under its block exponent, embedded exactly (R16, R17, R93). -/
def decodeCode (f : Fmt) (code : Nat) (k : Int) : LVal :=
  if f.expOf code = 0 then (if f.signOf code then .nar else .zero)
  else .num (f.signOf code) (((f.expOf code : Int) - f.bias) * 2 ^ (10 - f.g) + 1024 * k)

/-- A code from its sign and exponent field. -/
def mkCode (f : Fmt) (neg : Bool) (e : Nat) : Nat := (if neg then 2 ^ (f.bits - 1) else 0) + e

/-- The zero code (R17, R18). -/
def zeroCode : Nat := 0

/-- The NaR code of a format (R17). -/
def narCode (f : Fmt) : Nat := 2 ^ (f.bits - 1)

/-- L4 to L8, exact (R19). -/
def widen48 (c : Nat) : Nat :=
  if Fmt.expOf .l4 c = 0 then (if Fmt.signOf .l4 c then narCode .l8 else 0)
  else mkCode .l8 (Fmt.signOf .l4 c) (4 * Fmt.expOf .l4 c + 48)

/-- L8 to L16, exact (R19). -/
def widen816 (c : Nat) : Nat :=
  if Fmt.expOf .l8 c = 0 then (if Fmt.signOf .l8 c then narCode .l16 else 0)
  else mkCode .l16 (Fmt.signOf .l8 c) (128 * Fmt.expOf .l8 c + 8192)

/-- L4 to L16, exact (R19). -/
def widen416 (c : Nat) : Nat := widen816 (widen48 c)

/-! ## Exact powers of two -/

/-- Bits of the largest y with y^(2^n) ≤ 2^p, from the top. -/
def rootBits (p n : Nat) : Nat → Nat → Nat
  | 0, y => y
  | b + 1, y => if (y + 2 ^ b) ^ (2 ^ n) ≤ 2 ^ p then rootBits p n b (y + 2 ^ b) else rootBits p n b y

/-- floor(2^(p / 2^n)). -/
def pow2Floor (p n : Nat) : Nat := rootBits p n (p / 2 ^ n + 1) 0

/-- floor(2^(p / 2^n) + 1/2) where the argument is scaled by two. -/
def pow2Round (p n : Nat) : Nat := (pow2Floor (p + 2 ^ n) n + 1) / 2

/-- The geometric midpoints mid[g][i] = floor(2^((2i+1)/2^(g+1)) × 2^23 + 1/2) (R34). -/
def mid (g i : Nat) : Nat := pow2Round (2 * i + 1 + 23 * 2 ^ (g + 1)) (g + 1)

/-- Cg[f] × 2^23: 2^(f/2^g) rounded at a 24-bit significand (R26). -/
def cg (g f : Nat) : Nat := if f = 0 then 2 ^ 23 else pow2Round (f + 23 * 2 ^ g) g

/-- The trim factor TR = floor(2^(t/65536) × 2^23 + 1/2) (R36, R188). -/
def trimFactor (t : Int) : Nat := if t = 0 then 2 ^ 23 else pow2Round (t + 23 * 65536).toNat 16

/-- The L8 fraction table (R28). -/
def t8 (f : Nat) : Nat := [0x1000, 0x1172, 0x1306, 0x14BF, 0x16A0, 0x18AC, 0x1AE8, 0x1D58].getD f 0

/-- H[h] = floor(2^(h/32) × 2^15 + 1/2) (R30). -/
def tabH (h : Nat) : Nat := pow2Round (h + 15 * 32) 5

/-- L[l] = floor(2^(l/1024) × 2^15 + 1/2) (R30). -/
def tabL (l : Nat) : Nat := pow2Round (l + 15 * 1024) 10

/-- The L16 product magnitude T16 = floor(H[h] × L[l] / 2^14) of a 10-bit fraction (R30). -/
def t16 (f : Nat) : Nat := tabH (f / 32) * tabL (f % 32) / 2 ^ 14

/-! ## Counts -/

/-- The four counts of a command (R44). -/
structure Counts where
  sat : Nat
  flush : Nat
  narOp : Nat
  narRes : Nat
  deriving DecidableEq, Repr

/-- No counts. -/
def Counts.none : Counts := ⟨0, 0, 0, 0⟩

/-- Counts of one more piece of work, saturating at 32 bits (R44). -/
def Counts.add (a b : Counts) : Counts :=
  ⟨satTo (2 ^ 32 - 1) (a.sat + b.sat), satTo (2 ^ 32 - 1) (a.flush + b.flush),
   satTo (2 ^ 32 - 1) (a.narOp + b.narOp), satTo (2 ^ 32 - 1) (a.narRes + b.narRes)⟩

def Counts.oneSat : Counts := ⟨1, 0, 0, 0⟩
def Counts.oneFlush : Counts := ⟨0, 1, 0, 0⟩
def Counts.oneNarOp : Counts := ⟨0, 0, 1, 0⟩
def Counts.oneNarRes : Counts := ⟨0, 0, 0, 1⟩

/-! ## Products and the accumulator -/

/-- One accumulator element: the held integer, the saturation mark and the NaR mark (R32, R57). -/
structure Acc where
  v : Int
  satd : Bool
  nar : Bool
  deriving DecidableEq, Repr

/-- A cleared element (R57). -/
def Acc.clear : Acc := ⟨0, false, false⟩

/-- The limits of an accumulator element (R32). -/
def accMax : Int := 2 ^ 63 - 1
def accMin : Int := -2 ^ 63

/-- Adding an exact integer to an element: saturation holds the nearer limit, and a saturated element ignores the value (R32). -/
def Acc.addInt (a : Acc) (x : Int) : Acc :=
  if a.satd then a
  else if a.v + x > accMax then { a with v := accMax, satd := true }
  else if a.v + x < accMin then { a with v := accMin, satd := true }
  else { a with v := a.v + x }

/-- The product of two values: sign and logarithm (R18, R27). -/
def lmulVal (a b : LVal) : LVal :=
  match a, b with
  | .nar, _ => .nar
  | _, .nar => .nar
  | .zero, _ => .zero
  | _, .zero => .zero
  | .num sa la, .num sb lb => .num (sa != sb) (la + lb)

/-- The table magnitude of a fraction in units of 2^-10, and its fractional bits c: T8 for pairs on the L8 table, T16
otherwise (R28 to R31). -/
def prodMag (table8 : Bool) (f : Nat) : Nat × Nat := if table8 then (t8 (f / 128), 12) else (t16 f, 16)

/-- A table magnitude with c fractional bits and integer part n in units of 2^(W - 30), low bits dropped (R31). -/
def shiftMag (t c : Nat) (n w : Int) : Nat :=
  let s := n - w + 30 - c
  if 0 ≤ s then t * 2 ^ s.toNat else t / 2 ^ (-s).toNat

/-- A magnitude with its sign enters an element: zero is flushed; 2^63 or more saturates it by itself; a saturated element ignores it
(R31, R32). The element, and whether the magnitude was flushed. -/
def Acc.addMag (a : Acc) (neg : Bool) (mag : Nat) : Acc × Bool :=
  if a.satd then (a, false)
  else if mag = 0 then (a, true)
  else if 2 ^ 63 ≤ mag then ({ a with v := if neg then accMin else accMax, satd := true }, false)
  else (a.addInt (if neg then -(mag : Int) else mag), false)

/-- A product entering an element (R31, R32): the element, and whether the product was flushed. -/
def Acc.addVal (table8 : Bool) (w : Int) (a : Acc) (p : LVal) : Acc × Bool :=
  match p with
  | .zero => (a, false)
  | .nar => ({ a with nar := true }, false)
  | .num neg l =>
    let tc := prodMag table8 (l % 1024).toNat
    a.addMag neg (shiftMag tc.1 tc.2 (l / 1024) w)

/-- What the drain counts for an element: NaR, else saturated (R32). -/
def Acc.drainCount (a : Acc) : Counts :=
  if a.nar then Counts.oneNarRes else if a.satd then Counts.oneSat else Counts.none

/-! ## Rounding to a grid -/

/-- Rounding num / den to the nearest integer, ties to even. -/
def roundHE (num : Int) (den : Nat) : Int :=
  let q := num / (den : Int)
  let r := num % (den : Int)
  if 2 * r < den then q
  else if 2 * r > den then q + 1
  else if q % 2 = 0 then q else q + 1

/-- floor(log2(num / den)) of a positive rational. -/
def floorLog2 (num den : Nat) : Int :=
  let e : Int := (Nat.log2 num : Int) - (Nat.log2 den : Int)
  let ge := if 0 ≤ e then decide (den * 2 ^ e.toNat ≤ num) else decide (den ≤ num * 2 ^ (-e).toNat)
  if ge then e else e - 1

/-- num / den × 2^s, truncated. -/
def scaleFloor (num den : Nat) (s : Int) : Nat :=
  if 0 ≤ s then num * 2 ^ s.toNat / den else num / (den * 2 ^ (-s).toNat)

/-- The mantissa and exponent after the trim (R36). -/
def applyTrim (t : Int) (m : Nat) (e : Int) : Nat × Int :=
  let m1 := m * trimFactor t / 2 ^ 23
  let (m2, e2) := if 2 ^ 24 ≤ m1 then (m1 / 2, e + 1) else (m1, e)
  if m2 < 2 ^ 23 then (2 * m2, e2 - 1) else (m2, e2)

/-- How many midpoints of grid g lie below a mantissa (R34): m > mid[g][i] holds exactly where
(2m - 1)^(2^(g+1)) > 2^(24 × 2^(g+1) + 2i + 1), so one power decides for every i. -/
def midsBelow (g m : Nat) : Nat := (Nat.log2 ((2 * m - 1) ^ 2 ^ (g + 1)) + 1 - 24 * 2 ^ (g + 1)) / 2

/-- The fraction to which a 24-bit mantissa rounds on grid g: a mantissa that equals a midpoint goes to the even code (R34). -/
def gridFrac (g m : Nat) : Nat :=
  let j := min (2 ^ g) (midsBelow g m)
  if min (2 ^ g) (midsBelow g (m + 1)) = j then j else if j % 2 = 0 then j else j + 1

/-- The logarithm in grid units of a mantissa and exponent (R34). -/
def gridLog (g m : Nat) (e : Int) : Int := e * 2 ^ g + gridFrac g m

/-- R34 of the positive value num / den × 2^e2, with trim t. -/
def roundLog (g : Nat) (num den : Nat) (e2 t : Int) : Int :=
  let e := floorLog2 num den
  let m := scaleFloor num den (23 - e)
  let me := applyTrim t m (e + e2)
  gridLog g me.1 me.2

/-- A logarithm in units of 2^-16 rounded to grid g, ties to the even code (R91, R152). -/
def roundLogDomain (g : Nat) (u : Int) : Int := roundHE u (2 ^ (16 - g))

/-! ## The store path -/

/-- A result on its way to a code: zero, NaR, a linear magnitude num / den × 2^e2, a logarithm in units of 2^-16 (R152), or
exp2 of the exact value x × 2^e (R147). -/
inductive SVal where
  | zero
  | nar
  | lin (neg : Bool) (num den : Nat) (e2 : Int)
  | logv (neg : Bool) (u : Int)
  | expv (x : Int) (e : Int)
  deriving DecidableEq, Repr

/-- The trim-corrected logarithm of a result on grid g (R34, R36, R147, R152). -/
def SVal.log (g : Nat) (t : Int) : SVal → Option (Bool × Int)
  | .zero => none
  | .nar => none
  | .lin neg num den e2 => if num = 0 then none else some (neg, roundLog g num den e2 t)
  | .logv neg u => some (neg, roundLogDomain g (u + t))
  | .expv x e =>
    -- q = round((x·2^e + t·2^-16)·2^g), exactly
    let s := e + g
    let tt := t * 2 ^ g
    some (false,
      if -16 ≤ s then roundHE (x * 2 ^ (s + 16).toNat + tt) (2 ^ 16)
      else roundHE (x + tt * 2 ^ (-s - 16).toNat) (2 ^ (-s).toNat))

/-- Whether a result is NaR. -/
def SVal.isNar : SVal → Bool
  | .nar => true
  | _ => false

/-- The block exponent of the main path from the largest logarithm of a block (R35). -/
def blockExp (f : Fmt) (qmax : Int) : Int :=
  let k := -((-(qmax - f.top)) / 2 ^ f.g)
  max (-128) (min 127 k)

/-- One element's code under a block exponent, with its count (R35). -/
def codeElem (f : Fmt) (k : Int) (neg : Bool) (q : Int) : Nat × Counts :=
  let e := q - k * 2 ^ f.g + f.bias
  if e < 1 then (zeroCode, Counts.oneFlush)
  else if f.emax < e then (mkCode f neg f.emax.toNat, Counts.oneSat)
  else (mkCode f neg e.toNat, Counts.none)

/-- A result's code under a block exponent, with its count (R34, R35). -/
def codeSVal (f : Fmt) (t k : Int) (v : SVal) : Nat × Counts :=
  if v.isNar then (narCode f, Counts.oneNarRes)
  else match v.log f.g t with
    | none => (zeroCode, Counts.none)
    | some (neg, q) => codeElem f k neg q

/-- The largest of a list of logarithms. -/
def maxLog : List (Option (Bool × Int)) → Option Int
  | [] => none
  | none :: xs => maxLog xs
  | some (_, q) :: xs =>
    match maxLog xs with
    | none => some q
    | some r => some (max q r)

/-- The main path's exponent of a block of results (R35). -/
def blockExpOf (f : Fmt) (t : Int) (vs : List SVal) : Int :=
  match maxLog (vs.map (SVal.log f.g t)) with
  | none => 0
  | some q => blockExp f q

/-- A block coded by the main path: its exponent, its codes and its counts (R35). -/
def codeBlock (f : Fmt) (t : Int) (vs : List SVal) : Int × List Nat × Counts :=
  let k := blockExpOf f t vs
  let cs := vs.map (codeSVal f t k)
  (k, cs.map Prod.fst, cs.foldl (fun a c => a.add c.2) Counts.none)

/-- The merge value of a conversion: R34 on grid 10 after the trim of the largest magnitude (R38). -/
def histMaxOf (t : Int) (vs : List SVal) : Option Int := maxLog (vs.map (SVal.log 10 t))

/-- The larger of two optional merge values. -/
def optMax (a b : Option Int) : Option Int :=
  match a, b with
  | none, y => y
  | x, none => x
  | some x, some y => some (max x y)

/-! ## The fallback history -/

/-- The predicted block exponent (R39): the largest valid entry other than CUR, HEADROOM and INIT_EXP. -/
def predictExp (f : Fmt) (maxOther : Option Int) (headroom : Nat) (initExp : Int) : Int :=
  match maxOther with
  | none => initExp
  | some q => max (-128) (min 127 (-((-(q - f.top * 2 ^ (10 - f.g))) / 1024) + headroom))

/-- The clamp of a merge value (R38). -/
def clampMax (q : Int) : Int := max (-8388608) (min 8388607 q)

/-! ## Linear formats -/

/-- Quantisation to INT24 of sign, magnitude num × 2^e2, against the shared exponent s (R24): the value, and whether it
saturated. -/
def quant24 (neg : Bool) (num : Nat) (e2 s : Int) : Int × Bool :=
  let sh := e2 + 23 - s
  -- magnitude of 2^s or more is clamped
  let big := if 0 ≤ sh then decide (2 ^ 23 ≤ num * 2 ^ sh.toNat) else decide (2 ^ 23 * 2 ^ (-sh).toNat ≤ num)
  if big then (if neg then -2 ^ 23 else 2 ^ 23 - 1, true)
  else
    let x : Int := if neg then -(num : Int) else num
    let r := if 0 ≤ sh then x * 2 ^ sh.toNat else roundHE x (2 ^ (-sh).toNat)
    (if r = 2 ^ 23 then 2 ^ 23 - 1 else r, false)

/-- LSE32 codes of the empty row and the NaR row (R25). -/
def lseEmpty : Int := -2147483648
def lseNar : Int := 0x7FFFFFFF

/-- The clamp of a finite row statistic in units of 2^-16, and whether it was clamped (R25). -/
def lseClamp (x : Int) : Int × Bool :=
  if x < -2147483647 then (-2147483647, true)
  else if 0x7FFFFFFE < x then (0x7FFFFFFE, true)
  else (x, false)

/-- The TILL48 element that stands for NaR (R43). -/
def till48Nar : Int := -2 ^ 47

/-- The magnitude limit of a TILL48 number (R43). -/
def till48Max : Int := 2 ^ 47 - 1

/-- An exact sum in units of 2^u rounded at 2^l, where u ≤ l (R43). -/
def roundAt (u l : Int) (x : Int) : Int := roundHE x (2 ^ (l - u).toNat)

/-- Whether every rounded sum lies in the number range (R43). -/
def tillFits (u l : Int) (xs : List Int) : Bool :=
  xs.all (fun x => decide (-till48Max ≤ roundAt u l x) && decide (roundAt u l x ≤ till48Max))

/-- The smallest weight from l upward, at most 127, at which every sum fits (R43). -/
def tillWeight (u : Int) (xs : List Int) : Nat → Int → Int
  | 0, l => l
  | n + 1, l => if 127 ≤ l then 127 else if tillFits u l xs then l else tillWeight u xs n (l + 1)

/-- One element of an R43 sum: the page element (in units of 2^X), the added element (in units of 2^A, with its NaR mark). -/
structure TillPair where
  page : Int
  add : Int
  addNar : Bool
  deriving DecidableEq, Repr

/-- The exact sum of a pair in units of 2^u, u ≤ X and u ≤ A. -/
def TillPair.sum (u x a : Int) (p : TillPair) : Int := p.page * 2 ^ (x - u).toNat + p.add * 2 ^ (a - u).toNat

/-- Whether the element is NaR after the add (R43). -/
def TillPair.isNar (p : TillPair) : Bool := p.addNar || decide (p.page = till48Nar)

/-- The R43 sum of a tile: page exponent X, added weight A. The new exponent, the new elements, and the counts. -/
def tillAdd (x a : Int) (ps : List TillPair) : Int × List Int × Counts :=
  let u := min x a
  let l0 := max x a
  let sums := (ps.filter (fun p => !p.isNar)).map (TillPair.sum u x a)
  let span := (sums.foldl (fun m s => max m (Nat.log2 s.natAbs)) 0) + 2
  let l := if 127 < l0 then 127 else tillWeight u sums (span + 1) l0
  let one (p : TillPair) : Int × Counts :=
    if p.isNar then (till48Nar, if p.addNar then Counts.oneNarRes else Counts.none)
    else
      let r := if u ≤ l then roundAt u l (p.sum u x a) else p.sum u x a * 2 ^ (u - l).toNat
      if r < -till48Max then (-till48Max, Counts.oneSat)
      else if till48Max < r then (till48Max, Counts.oneSat)
      else (r, Counts.none)
  let rs := ps.map one
  (l, rs.map Prod.fst, rs.foldl (fun c r => c.add r.2) Counts.none)

/-! ## The checksum -/

/-- The modulus of the checksum (R344). -/
def csumP : Nat := 2 ^ 61 - 1

/-- Modular power by repeated multiplication. -/
def powMod (a p : Nat) : Nat → Nat
  | 0 => 1 % p
  | n + 1 => powMod a p n * a % p

/-- The checksum of one block: a = 3^(b+1), csum = sum of a^(i+1) × (x_i mod p), modulo p (R344). -/
def blockCsum (b : Nat) (xs : List Int) : Nat :=
  let a := powMod 3 csumP (b + 1)
  (xs.foldl (fun (st : Nat × Nat) x =>
    let w := st.2 * a % csumP
    ((st.1 + w * (x % (csumP : Int)).toNat) % csumP, w)) (0, 1 % csumP)).1

end Sys2Proof.Machine
end

