-- ==== Sys2Proof/Machine/CellTypes.lean ====
section
/-! DEFINITION. What one cell holds: its Tinkers, its stream queues with their started commands, and its engines. Plain data
throughout. -/

namespace Sys2Proof.Machine

/-! ## Tinkers -/

/-- A global access, atomic or history operation of a Tinker, with what it needs at its target (R80, R90, R91, R102, R105). -/
inductive TkOp where
  /-- LOADG: n bytes, zero-extended where u. -/
  | load (n : Nat) (u : Bool)
  /-- STOREG: the bytes to store. -/
  | store (bytes : List Byte)
  /-- Global VLD into vd under pg, fmt and block exponent k. -/
  | vload (vd pg fmt : Nat) (k : Int)
  /-- Global VST: fmt, one code or word per active lane, and what the lanes count. -/
  | vstore (fmt : Nat) (lanes : List (Option Nat)) (c : Counts)
  | fai
  | faa (v : Word)
  | cas (cmp new : Word)
  | hmerge (q : Int)
  | hpred (fmt : Nat)
  deriving DecidableEq, Repr

/-- An outstanding access: its destination register, its address, and what has come back: a fault code and bytes (R110). -/
structure TkAcc where
  rd : Nat
  addr : Nat
  op : TkOp
  answer : Option (Code × List Byte)
  deriving DecidableEq, Repr

/-- A global store that its Tinker has gone past (R81), with the pc of its instruction. -/
structure TkStore where
  pc : Word
  acc : TkAcc
  deriving DecidableEq, Repr

/-- What a Tinker waits for. -/
inductive TkWait where
  | none
  /-- WAITQ on a queue until its count reaches the target (R107). -/
  | waitq (q : Nat) (target : Word)
  /-- ISSUE with W = 1 on a full queue: rd, descriptor offset, queue and the length of the form (R106). -/
  | issue (rd off q len : Nat)
  /-- An outstanding global load, atomic or history access (R110). -/
  | access (a : TkAcc)
  deriving DecidableEq, Repr

/-- The architectural state of a Tinker (R76 to R78, R82). The RUN and TRAP bits lie in the registers of its cell (R83). -/
structure Tinker where
  g : Tab Word
  /-- Lane i of register n at key 8n + i. -/
  v : Tab Word
  p : Tab (BitVec 8)
  pc : Word
  cstat : Word
  tvec : Word
  epc : Word
  tval : Word
  satc : Word
  flsc : Word
  narc : Word
  /-- The instruction buffer: entry a[11:6] to the line's address, its 64 bytes and its 64-bit words that had a double-bit error when
  it was fetched (R70, R82). -/
  ibuf : Tab (Option (Nat × List Byte × List Nat))
  /-- The word at the pc and the words fetched ahead of it, of these at most two (R82). -/
  fetched : List (Nat × Word)
  wait : TkWait
  /-- Global stores that have not been answered, oldest first (R81, R110). -/
  stores : List TkStore
  deriving DecidableEq, Repr

/-- A Tinker after reset: halted, all registers zero (R83), buffer empty (log entry 8). -/
def Tinker.init : Tinker := ⟨[], [], [], 0, 0, 0, 0, 0, 0, 0, 0, [], [], .none, []⟩

/-! ## Stream queues and commands -/

/-- Counters of one hand-over of a chain (R125, R126): units complete in the buffer, tallies passed, units the next stage has
finished reading, credits returned. -/
structure HandSt where
  made : Nat
  passed : Nat
  done : Nat
  returned : Nat
  deriving DecidableEq, Repr

def HandSt.init : HandSt := ⟨0, 0, 0, 0⟩

/-- An output tile handed to the compress or store stage (R130, R247): its C_BUF slot, the pieces to store (destination, cell-store
offset, length), and, until the coder has had it, the index entry and the codes of each unit. -/
structure Staged where
  slot : Nat
  pieces : List (Nat × Nat × Nat)
  units : List (Nat × List Byte)
  issued : Bool
  deriving DecidableEq, Repr

/-- The running state of one attention row (R187): reference, sum register in units of 2^-88, NaR mark. -/
structure AttnRow where
  ref : Option Int
  sum : Nat
  nar : Bool
  deriving DecidableEq, Repr

/-- A started command: what its engine copied at the start (R112), what it has counted (R44, R118), and how far it has come. -/
structure Cmd where
  /-- Its number in the cell, in the order of starting. -/
  num : Nat
  q : Nat
  off : Nat
  seq : Nat
  root : Nat
  desc : List Byte
  /-- The tenant that held the cell at the start, and the read epoch taken (R290). -/
  tenant : Option (Fin 16)
  epoch : Nat
  counts : Counts
  bytes : Nat
  stall : Nat
  cause : Nat
  /-- The first fault, and the first warning or status (R15). -/
  fault : Option Code
  warn : Option Code
  /-- The first fault-class code that does not stop the command (NAR_OPERAND of R45, TRUNCATED_BLOCK of R251). -/
  soft : Option Code
  cancelled : Bool
  /-- Every k-step has been read (R115). -/
  kdone : Bool
  /-- The work has ended; only COMMAND_COMPLETE remains (R119). -/
  finished : Bool
  /-- The merge value gathered for a history record (R38). -/
  hist : Option Int
  /-- Units of work completed, in the order the command's rules give. -/
  pos : Nat
  /-- A second place inside the unit. -/
  sub : Nat
  /-- Transfers issued: rows of a MOVE, streaming tiles of a Mill command (R134). -/
  issued : Nat
  /-- Loads of the resident panel issued (R51). -/
  loads : Nat
  /-- Hand-overs of the chain, by number (R125). -/
  hand : Tab HandSt
  /-- The frame index entries of the tile column under way (R248), and which frames fetched are plain: key 2f for frame f of the
  panel, 2q + 1 for streaming tile q. -/
  idx : List Nat
  plainOf : Tab Bool
  /-- The predicate bitmaps, once read (R59, R226). -/
  maps : Option (List Byte × List Byte)
  /-- Output tiles staged and not yet stored (R130). -/
  staged : List Staged
  /-- Results drained from banks whose block is not complete (R474), with the saturation mark of their elements, by row and
  column: key 2^33 × row + column. -/
  held : Tab (Option (SVal × Bool))
  /-- Codes of tiles on their way to the coder (R247), by the same key; 1 more than the code. -/
  codes : Tab Nat
  /-- Pieces written to C_BUF of the tile under way (R130): destination, offset in the slot's areas, length. -/
  pieces : List (Nat × Nat × Nat)
  /-- Rows whose row-sum record this command has written (R157). -/
  sumRows : List Nat
  /-- Rows of the attention row tile under way (R187), and its output accumulators: key 256 × row + element. -/
  rows : List AttnRow
  acc : Tab Acc
  /-- Weights and score gradients of the key tile under way, or other words a command keeps. -/
  words : List Int
  /-- Multicast credits returned by die-row members, and members that have withdrawn (R64, R65). -/
  mcCredit : Tab Nat
  mcOut : List Nat
  /-- CANCEL: the commands matched, by number, and the bytes discarded (R143). -/
  matched : List Nat
  /-- Its TXN_ID names no transaction that takes part: from its start (R363, R366), or since an abort (R370). -/
  late : Bool
  /-- An outcome that an event brings (a vote's readiness and causes, R366; a remote fault). -/
  outcome : Option (List Bool)
  /-- The CANCEL that stopped it: what it still discards counts in that record's BYTES too (R143). -/
  canceller : Option Nat
  /-- A stopped GEMM: how many of its tiles were closed when it stopped, which drain and are stored in full (R127, R142). -/
  tiles : Option Nat
  /-- k-steps of the streaming unit under way that the Mill has read (R52, R249). -/
  kread : Nat
  /-- Whether a transfer of this command has wrapped already, by its number (R69). -/
  wrapped : List Nat
  /-- ATTN: the row tile whose rows are finished and stored, and their state (R187, R190). -/
  out : Option (Nat × List AttnRow)
  deriving DecidableEq, Repr

/-- An accepted command that has not started (R106, R136): the pointer, the descriptor where it was read with its
predecessor, the place in the order of appending, what its tally-in has done, and whether CANCEL removed it (R142). -/
structure QEnt where
  off : Nat
  desc : Option (List Byte)
  seq : Nat
  /-- Place in the order of appending; a successor has its predecessor's. -/
  root : Nat
  tallyTaken : Bool
  /-- Number of the command whose successor this is, and what a prologue has fetched on its behalf (R137). -/
  pred : Option Nat
  early : Option Cmd
  cancelled : Bool
  /-- The descriptor read with its predecessor held an uncorrectable word (R70, R112, R136). -/
  bad : Bool
  deriving DecidableEq, Repr

/-- An outstanding Carter transfer: command, Carter queue, destination pieces with the bytes read, whether it feeds an engine
only, and the refusal met at the source (R134, R144). -/
structure Xfer where
  num : Nat
  cq : Nat
  pieces : List (Nat × List Byte)
  unit : Nat
  fault : Option Code
  deriving DecidableEq, Repr

/-- A Mill bank in use (R55 to R57): its command, its output tile, what it latched, its sums, and how far it has drained. -/
structure Bank where
  num : Nat
  rt : Nat
  ct : Nat
  ord : Nat
  w : Int
  trim : Int
  func : Nat
  /-- Element (i, j) at key 128 × i + j. -/
  acc : Tab Acc
  closed : Bool
  rows : Nat
  deriving DecidableEq, Repr

/-- A pending or running Till page add (R216): command, slot, address of the region and tile index; claimed at the stack. -/
structure TillAdd where
  num : Nat
  slot : Nat
  region : Nat
  tile : Nat
  claimed : Bool
  added : Bool
  deriving DecidableEq, Repr

/-- A requested swap of a table slot (R253): the requesting command and the ports still on the old bank. -/
structure Swap where
  num : Nat
  slot : Nat
  ports : List Nat
  deriving DecidableEq, Repr

/-- A Cooper port (R249): its command, the unit it decodes, the next place of it, the offset of the next header in the frame, the
place's bytes decoded and not yet all read by the Mill, at most four groups, by unit and place, and the frame of the unit: where it
lies in the own store and whether it is plain. -/
structure CooperSt where
  num : Nat
  unit : Nat
  place : Nat
  at_ : Nat
  groups : List (Nat × Nat × List Byte)
  frame : Option (Nat × Bool)
  deriving DecidableEq, Repr

/-- A square buffer of the Turner (R204): first k-step and end of the square in its operand, and what it delivers for each of
them: the elements of the lines. -/
structure Square where
  unit : Nat
  lo : Nat
  hi : Nat
  vals : List (List LVal)
  deriving DecidableEq, Repr

/-- A half of the Turner (R204): its command, the unit that it reads, the next k-step of it, and the squares in its eight buffers. -/
structure TurnSt where
  num : Nat
  unit : Nat
  next : Nat
  bufs : List Square
  deriving DecidableEq, Repr

/-- A die-row multicast in progress, seen from a member (R62 to R65): tag and mask. -/
structure McastSt where
  tag : Nat
  mask : Nat
  deriving DecidableEq, Repr

/-- What a cell holds beside its registers and memories. -/
structure CellSt where
  queues : Tab (List QEnt)
  cmds : List Cmd
  nextNum : Nat
  nextSeq : Nat
  xfers : List Xfer
  banks : Tab (Option Bank)
  /-- The bank the next tile starts in (R55). -/
  nextBank : Nat
  /-- Till SRAM: element e of slot s at key 16384 × s + e, with its marks (R209). -/
  till : Tab Acc
  tillAdds : List TillAdd
  /-- Slots that an ATTN_BWD holds (R214). -/
  tillHeld : List Nat
  /-- Code lengths of bank b of slot s at key 2s + b (R237). -/
  tables : Tab (List Nat)
  /-- The bank each port uses: key 3 × slot + port; ports 0 and 1 the Coopers, 2 the coder (R253). -/
  portBank : Tab Nat
  swaps : List Swap
  coopers : Tab (Option CooperSt)
  turners : Tab (Option TurnSt)
  mcast : Option McastSt
  /-- Multicasts from which the cell has withdrawn before a member started its command (R65): tag and that member. -/
  mcGone : List (Nat × Nat)
  deriving DecidableEq, Repr

/-- A cell after reset: queues empty, banks free, slots and tables empty (R83, R209, R237; log entry 10). -/
def CellSt.init : CellSt := ⟨[], [], 0, 0, [], [], 0, [], [], [], [], [], [], [], [], none, []⟩

/-- A new command record. -/
def Cmd.start (num q off seq root : Nat) (desc : List Byte) (tenant : Option (Fin 16)) (epoch : Nat) : Cmd :=
  { num, q, off, seq, root, desc, tenant, epoch, counts := Counts.none, bytes := 0, stall := 0, cause := 0, fault := none,
    warn := none, soft := none, cancelled := false, kdone := false, finished := false, hist := none, pos := 0, sub := 0, issued := 0,
    loads := 0, hand := [], idx := [], plainOf := [], maps := none, staged := [], held := [], codes := [], pieces := [], sumRows := [], rows := [], acc := [],
    words := [], mcCredit := [], mcOut := [], matched := [], late := false, outcome := none, canceller := none, tiles := none,
    kread := 0, wrapped := [], out := none }

end Sys2Proof.Machine
end

