-- ==== Sys2Proof/Machine/UnitTypes.lean ====
section
/-! DEFINITION. What the units outside the cells hold: shared-cache slices, stack controllers, the pool, transactions, the
flash, the fabric, the Weaver, the Ethernet side and the Clerk. Plain data throughout. -/

namespace Sys2Proof.Machine

/-! ## Shared cache -/

/-- An operation waiting at a slice (R103, R122). -/
inductive SliceOp where
  /-- An outstanding access of a Tinker, by global index: its oldest at this offset that has no answer. -/
  | tinker (k : Nat)
  /-- A consume request of a waiting head: cell, queue and the head's place in the order of appending (R122). -/
  | consume (c q seq : Nat)
  /-- A production of a shared tally by a command of a cell and queue (R119, R122). -/
  | produce (c q : Nat)
  deriving DecidableEq, Repr

/-- A request at a slice: the slice, the network cycle of its arrival, its class in the order of R103, its rank inside the
class, the word offset, and the operation. -/
structure SliceReq where
  slice : Nat
  arrival : Nat
  cls : Nat
  rank : Nat
  off : Nat
  op : SliceOp
  deriving DecidableEq, Repr

/-! ## Stacks -/

/-- A memory-side operation between MS_GO and its end (R277): its outcome. -/
structure MsOp where
  stack : Nat
  fault : Code
  deriving DecidableEq, Repr

/-- The stack controllers: suspect counts by 18 × (128 × stack + channel) + pin (R264), symbol errors of bursts by bulk address
div 64 (R261 to R263), running memory-side operations, and the next stack offset of the scrubber, by stack (R271). -/
structure StackSt where
  suspect : Tab Nat
  bursts : Tab (List (Nat × Byte))
  ms : List MsOp
  scrubAt : Tab Nat
  deriving DecidableEq, Repr

/-! ## The pool -/

/-- The tag of a frame (R280), its referenced bit (R293), and the page it holds (the frame table). -/
structure FrameInfo where
  tag : Nat
  cow : Bool
  refd : Bool
  tpn : Nat
  deriving DecidableEq, Repr

/-- After reset every frame has STATE 32 (R280). -/
def FrameInfo.free : FrameInfo := ⟨32, false, false, 0⟩

/-- A frame waiting for release (R291): its tenant, the epoch it was stamped with, and whether its release keeps the tenant's
mark (not after RELEASE, R418). -/
structure Stamped where
  frame : Nat
  t : Fin 16
  epoch : Nat
  keep : Bool
  deriving DecidableEq, Repr

/-- A shadow frame (R360): tenant, slot of its transaction, page, committed frame, shadow frame, and after the flip the commit
epoch (R367). -/
structure Shadow where
  t : Fin 16
  slot : Nat
  tpn : Nat
  frame : Nat
  shadow : Nat
  flip : Option Nat
  deriving DecidableEq, Repr

/-- An allocation that waits for a frame (R294): the page it is for, the cell and number of its command, and the frame that the
eviction it began vacates. -/
structure AllocWait where
  t : Fin 16
  tpn : Nat
  cmd : Option (Nat × Nat)
  victim : Nat
  deriving DecidableEq, Repr

/-- The pool controller. Page tables lie in the bulk memory (R282). -/
structure PoolSt where
  frames : Tab FrameInfo
  stamped : List Stamped
  shadows : List Shadow
  /-- Allocations that wait for a frame, oldest first (R294). -/
  waiters : List AllocWait
  deriving DecidableEq, Repr

/-! ## The flash -/

/-- A flash read or write under way: its purpose (0 a fault-in, 1 a copy for PAGE_COW, 2 TIER_READ, 3 a demotion, 4 the pool's
eviction, 6 an evacuation, 7 a snapshot image), the command it serves (none: the pool itself), the page, the logical page, the
frame, the retry level (R303), and the outcome once it is known. -/
structure FlashOp where
  write : Bool
  purpose : Nat
  cmd : Option (Nat × Nat)
  t : Fin 16
  tpn : Nat
  lpn : Nat
  frame : Nat
  level : Nat
  result : Option Bool
  deriving DecidableEq, Repr

/-- A firmware slot: its header bits and its image (R446). -/
structure FwSlot where
  valid : Bool
  pending : Bool
  image : List Byte
  deriving DecidableEq, Repr

def FwSlot.empty : FwSlot := ⟨false, false, []⟩

/-- The flash controller (R300 to R304). -/
structure FlashSt where
  /-- The block that holds a logical page. -/
  map : Tab (Option Nat)
  /-- Contents by 65,536 × logical page + byte. -/
  data : Mem
  eraseCnt : Tab Nat
  readCnt : Tab Nat
  /-- Blocks that are retired or bad from the factory (R300, R304). -/
  retired : List Nat
  /-- Blocks whose program failed, or whose reads reached the last retry level (R304). -/
  failing : List Nat
  ops : List FlashOp
  /-- The snapshot partition: by 2^40 × slot + byte (R386). -/
  snap : Mem
  /-- The firmware slots (R446). -/
  active : FwSlot
  staging : FwSlot
  /-- The configuration table (R430); none where its SHA-384 fails. -/
  cfg : Option Config.CfgTab
  deriving DecidableEq, Repr

/-! ## The fabric -/

/-- A packet of the fabric: its header fields (R315) and its data. -/
structure Packet where
  dst : Nat
  src : Nat
  tenant : Nat
  op : Nat
  hops : Nat
  tag : Nat
  addr : Nat
  len : Nat
  data : List Byte
  deriving DecidableEq, Repr

/-- A flit in a replay buffer (R310, R312): sequence number, kind, dateline class, body, times replayed, and the number of its
packet. -/
structure Flit where
  seq : Nat
  kind : Nat
  dcls : Nat
  body : List Byte
  tries : Nat
  pkt : Nat
  deriving DecidableEq, Repr

/-- A Scecy port (R311 to R314), by virtual channel or by pool (key 2 × channel + class). -/
structure PortSt where
  /-- Packets placed on the port, oldest first, until their last flit is sent. -/
  waiting : Tab (List Nat)
  /-- The replay buffer: flits sent and not acknowledged. -/
  replay : Tab (List Flit)
  nextSeq : Tab Nat
  /-- SEQ of the last flit accepted. -/
  lastSeq : Tab Nat
  credits : Tab Nat
  /-- Buffers freed and not yet returned, by pool. -/
  owed : Tab Nat
  /-- The port cycle of the last NAK for the present gap, plus 1; 0: none sent (R312). -/
  nakAt : Tab Nat
  /-- Port cycles of the latest uncorrectable codewords, at most 16 (R313). -/
  ues : List Nat
  /-- A retrain is called for (R313), a retrain runs, and the retrains that failed in a row. -/
  due : Bool
  retraining : Bool
  fails : Nat
  deriving DecidableEq, Repr

/-- A packet in its module (R317 to R320): it is routed once its first flit is here and moves on flit by flit. -/
structure Transit where
  id : Nat
  /-- Its header fields. -/
  pkt : Packet
  /-- The port it came in by; none: it was injected here. -/
  port : Option Nat
  /-- The channel and class it came on. -/
  vc : Nat
  dcls : Nat
  /-- The pool of the in-port that its flits occupy (R314); 8: none any more. -/
  pool : Nat
  /-- Flits received and not moved on: kind and body; whether the last one has come, and whether the first one has moved on. -/
  bodies : List (Nat × List Byte)
  whole : Bool
  moved : Bool
  /-- The routing entry it read (R319), and whether it has left the adaptive channels (R318). -/
  entry : Option (BitVec 64)
  esc : Bool
  /-- The port, channel and class it is placed on. -/
  out : Option (Nat × Nat × Nat)
  /-- It is for this module, with the bodies taken so far; or it is dropped. -/
  here : Bool
  got : List (List Byte)
  drop : Bool
  /-- The port that it must leave on (R429). -/
  via : Option Nat
  /-- Cell and number of the command that injected it. -/
  cmd : Option (Nat × Nat)
  deriving DecidableEq, Repr

/-- What a remote access is for. -/
inductive RemKind where
  /-- A read that feeds piece p of transfer u of command n of cell c. -/
  | fetch (c n u p : Nat)
  /-- A write of piece p of the same. -/
  | store (c n u p : Nat)
  deriving DecidableEq, Repr

/-- A remote access without its response (R322). -/
structure RemAcc where
  tag : Nat
  kind : RemKind
  deriving DecidableEq, Repr

/-- The fabric: ports, packets in the routers, packets delivered here, outstanding remote accesses. -/
structure FabSt where
  ports : Tab PortSt
  transit : List Transit
  arrived : List Packet
  outstanding : List RemAcc
  nextTag : Nat
  /-- The number of the next packet. -/
  nextId : Nat
  deriving DecidableEq, Repr

/-- Buffers of the partner, by pool: 256 flits, or 128 in each class of the response and escape channels (R314). -/
def creditInit (p : Nat) : Nat := if p / 2 = 1 ∨ p / 2 = 3 then 128 else if p % 2 = 0 then 256 else 0

/-- A port after reset: nothing in flight; the first SEQ of a channel is 0 (log entry 10). -/
def PortSt.init : PortSt := ⟨[], [], [], [], [], [], [], [], false, false, 0⟩

/-! ## The Weaver -/

/-- A started Weaver command (R331, R332) and what it has gathered. -/
structure Inst where
  t : Fin 16
  ch : Fin 16
  num : Nat
  cell : Nat
  cmd : Nat
  opcode : Nat
  /-- 0: its command has not begun; 1: it has begun; 2: its own values are ready; 3: it waits for the result; 4: the result is
  known; above: the later phases of its command. -/
  phase : Nat
  /-- MODULE.ID and tray of each member (R334), and this member's index. -/
  group : List (Nat × Nat)
  me : Nat
  epoch : Nat
  /-- Members whose grant has come, and messages held for one that has not (R332). -/
  grants : List Nat
  held : List (Nat × Msg)
  /-- Packets that have arrived and wait to be taken up. -/
  inbox : List CollMsg
  mbox : List McastMsg
  /-- Values received on the way up: stage, shard, block (R345); votes stand at shard 2^32, by sender. -/
  got : List (Nat × Nat × Nat)
  /-- Partials: values and carried sum at key 2^32 × shard + block; those already sent. -/
  part : Tab (List Int × Nat)
  passed : List Nat
  exps : List Int
  flag : Bool
  words : List (BitVec 64)
  /-- Readiness and causes of a voting commit (R366). -/
  votes : List Bool
  /-- Shards handled or moves landed, and the tags of shards not yet handled (R349): shard, epoch, step, checksum. -/
  landed : List Nat
  tags : List (Nat × Nat × Nat × Nat)
  /-- MCAST: contiguous bytes by member (R323), receivers detached with their counts (R324), bytes sent. -/
  credits : Tab Nat
  detached : List (Nat × Nat)
  sent : Nat
  /-- MCAST at a receiver: the ranges written, first byte and end. -/
  ranges : List (Nat × Nat)
  deriving DecidableEq, Repr

/-- An instance that has taken its number. -/
def Inst.start (t ch : Fin 16) (num cell cmd opcode epoch : Nat) : Inst :=
  { t, ch, num, cell, cmd, opcode, phase := 0, group := [], me := 0, epoch, grants := [], held := [], inbox := [], mbox := [],
    got := [], part := [], passed := [], exps := [], flag := false, words := [], votes := [], landed := [], tags := [],
    credits := [], detached := [], sent := 0, ranges := [] }

/-- The Weaver. -/
structure WeavSt where
  insts : List Inst
  /-- Grants that came before their instance began: tenant, channel, number, member, opcode (R332). -/
  early : List (Fin 16 × Fin 16 × Nat × Nat × BitVec 16)
  deriving DecidableEq, Repr

/-! ## Hosts -/

/-- Keys of one direction of a connection (R403): the key and the SALT. -/
structure Keys where
  key : List Byte
  salt : List Byte
  deriving DecidableEq, Repr

/-- The receive window of a protected connection (R398, step 6): the highest SEQ accepted, and those accepted within 1,024. -/
structure SeqWin where
  high : Nat
  seen : List Nat
  deriving DecidableEq, Repr

/-- A handshake under way (R400): the HELLO, where it came from, the draw of its secrets, whether its report has been signed and
sent, the STATE before it, and the attempts made. -/
structure Handshake where
  hello : HelloMsg
  port : Nat
  draw : Nat
  signed : Bool
  /-- The REPORT message, once signed. -/
  report : List Byte
  prev : Nat
  tries : Nat
  /-- The window of the session's own key (R398, step 6), and its next SEQ to send (R396). -/
  win : SeqWin
  txSeq : Nat
  deriving DecidableEq, Repr

/-- The session of a tenant (R400, R402). -/
structure Session where
  hs : Option Handshake
  /-- Host source, keys and windows of the open session. -/
  port : Nat
  ip : BitVec 128
  udp : BitVec 16
  /-- The extracted key of the session, and its own keys (R403). -/
  prk : List Byte
  keyIn : Keys
  keyOut : Keys
  win : SeqWin
  txSeq : Nat
  sack : Bool
  /-- The host key hash admitted (R399). -/
  hostKey : List Byte
  deriving DecidableEq, Repr

/-- An operation of the module as requester, not acknowledged (R406): the PSN, the attempts, the notice it carries (R414). -/
structure TxReq where
  psn : Nat
  tries : Nat
  va : Nat
  rkey : Nat
  imm : Nat
  record : List Byte
  deriving DecidableEq, Repr

/-- A request of a host (R411): its rkey, its offset, and its data, length or values. -/
inductive HostOp where
  | write (rkey off : Nat) (data : List Byte)
  | read (rkey off len : Nat)
  | fetchAdd (rkey off v : Nat)
  | cmpSwap (rkey off cmp new : Nat)
  deriving DecidableEq, Repr

/-- An operation of a host that waits for a page to come from flash (R290, R411): its tenant, queue pair and PSN, the epoch it took,
and the request. -/
structure HostWait where
  t : Fin 16
  qpn : Nat
  psn : Nat
  epoch : Nat
  op : HostOp
  deriving DecidableEq, Repr

/-- A queue pair (R404 to R408). -/
structure Qp where
  qpn : Nat
  t : Fin 16
  port : Nat
  /-- The error state. -/
  err : Bool
  hostQpn : Nat
  hostIp : BitVec 128
  hostUdp : BitVec 16
  pmtu : Nat
  keyIn : Keys
  keyOut : Keys
  win : SeqWin
  txSeq : Nat
  sack : Bool
  /-- The first PSN not performed, and PSNs received beyond it (R407). -/
  expPsn : Nat
  beyond : List Nat
  /-- Ordered requests received beyond it and not yet performed (R407). -/
  held : List (Nat × HostOp)
  /-- Answers to READ requests and atomics, for duplicates (R405): PSN and bytes. -/
  answers : List (Nat × List Byte)
  nextPsn : Nat
  unacked : List TxReq
  /-- Sending rate in units of 10^-6 Gb/s (R408). -/
  rate : Nat
  /-- Clerk cycle of the latest CNP sent, and of the latest cut of the rate (R408). -/
  cnpAt : Option Nat
  cutAt : Option Nat
  deriving DecidableEq, Repr

/-- A message that arrives in segments (R400): its port and source, whether it is protected, MSG, the number of its segments, its
length, and the segments that have come. -/
structure HsJoin where
  port : Nat
  ip : BitVec 128
  udp : BitVec 16
  prot : Bool
  msg : Nat
  nseg : Nat
  len : Nat
  segs : List (Nat × List Byte)
  deriving DecidableEq, Repr

/-- What passed the checks of a port (R398, step 7): a HANDSHAKE message with its MSG, at connection 0, or the payload of a DATA frame,
at its queue pair. -/
structure Passed where
  conn : Nat
  msg : Nat
  bytes : List Byte
  deriving DecidableEq, Repr

/-- The Ethernet side. -/
structure EthSt where
  sessions : Tab Session
  qps : List Qp
  joins : List HsJoin
  passed : List Passed
  /-- Clerk cycle of each HELLO taken in the last second, by port (R400). -/
  hellos : Tab (List Nat)
  /-- Operations of hosts that wait for a page, oldest first (R290, R411). -/
  waiting : List HostWait
  /-- SEQ of the next OWNER packet (R396). -/
  ownerTx : Nat
  deriving DecidableEq, Repr

def Keys.none : Keys := ⟨[], []⟩
def SeqWin.init : SeqWin := ⟨0, []⟩
def Session.init : Session := ⟨none, 0, 0, 0, [], Keys.none, Keys.none, SeqWin.init, 1, false, []⟩

/-! ## The Clerk -/

/-- The phases of a module between power and running (R431, R434, R443, R447, R448, R466). -/
inductive Phase where
  /-- No input power. -/
  | off
  /-- MOD_RESET_N is low. -/
  | pinLow
  /-- A full reset has begun; option loading follows. -/
  | loading
  /-- Options are loaded; the boot follows. -/
  | loaded
  | hold
  | recovery
  | running
  /-- The hold-up sequence runs after a loss of input (R466). -/
  | holdup
  deriving DecidableEq, Repr

/-- Where an owner command came from (R427, R429): a port with its IP address and UDP port, or the module that relayed it. -/
inductive OwnerSrc where
  | eth (port : Nat) (ip : BitVec 128) (udp : BitVec 16)
  | module (id : Nat)
  deriving DecidableEq, Repr

/-- An accepted owner command that has not taken effect (R427): its OP, OWNER_SEQ, body, and where it came from. -/
structure OwnerCmd where
  op : Nat
  seq : Nat
  body : List Byte
  src : OwnerSrc
  deriving DecidableEq, Repr

/-- An image on its way along a chain (R450): position, chain, results, image, whether this is the originator. -/
structure UpdSt where
  image : List Byte
  chain : List Nat
  results : List (Nat × Nat)
  pos : Nat
  /-- The position that a forward under way is addressed to. -/
  next : Nat
  origin : Bool
  deriving DecidableEq, Repr

/-- What the Clerk holds beside the registers. -/
structure ClkSt where
  phase : Phase
  /-- The fused anti-rollback count (R443, R446). -/
  arb : Nat
  /-- The Clerk cycle of an ARM (R435). -/
  armed : Option Nat
  /-- Owner commands that wait, oldest first, at most 8 (R423). -/
  ownerQ : List (OwnerSrc × List Byte)
  /-- Relays without their reply (R429): where the command came from, its OP and OWNER_SEQ, and its target. -/
  relays : List (OwnerSrc × Nat × Nat × Nat)
  accepted : Option OwnerCmd
  /-- A held boot's observations (R448). -/
  obs : Option BootObs
  /-- The recovery image (R448): bytes, and the ranges taken, first byte and end. -/
  image : Mem
  taken : List (Nat × Nat)
  update : Option UpdSt
  /-- Windows below 2,300 W in a row (R464). -/
  below : Nat
  /-- The last sample of TRAY_MOVE_N and FEED_ALARM_N (R459). -/
  lastTray : Bool
  lastFeed : Bool
  /-- Values of the counters at the last period of the health monitor: stacks, SRAM, retrains, FEC (R378). -/
  risk : List Nat
  /-- An uncorrectable SRAM word was met in the present period. -/
  sramUe : Bool
  /-- Pairings that wait for an answer (R382). -/
  pairing : List (Fin 16)
  /-- The source of the latest full reset (R431), for the boot that follows (R426). -/
  source : Nat
  /-- The input switch is closed (R457). -/
  inputSwitch : Bool
  /-- Alert and ready pins (R459): MOD_ALERT_N low, MOD_READY high. -/
  alert : Bool
  ready : Bool
  /-- The ADMIT body of the configuration table that option loading read (R430, R443): a table that CONFIG writes later is not in
  force before the next reset (R428). -/
  admitBody : Option (List Byte)
  deriving DecidableEq, Repr

/-- The Clerk right after a POWER_ON reset. -/
def ClkSt.init : ClkSt :=
  ⟨.loading, 0, none, [], [], none, none, [], [], none, 0, true, true, [], false, [], 0, true, false, false, none⟩

/-! ## What leaves the module -/

/-- What an Ethernet packet of the module carries (R395): a segment of a message (R400, R427); an ACK or NAK with its PSN, its kind (0
ACK, 1 sequence error, 2 remote access error, 3 invalid request), and the BASE and BITMAP of a SACK block; a part of a READ response
or an atomic's answer; a CNP; an event notice with its PSN, host address, key, immediate and record (R414). -/
inductive EthMsg where
  | segment (bytes : List Byte)
  | ack (psn kind base : Nat) (bitmap : List Bool)
  | data (psn : Nat) (bytes : List Byte)
  | cnp
  | notice (psn va rkey imm : Nat) (record : List Byte)
  deriving DecidableEq, Repr

/-- An Ethernet packet as sent (R396, R397, R408): port, destination, ECN codepoint, the encapsulation header, what it carries, the
bytes after the header, sealed where the packet is protected, and the tag. -/
structure EthPacket where
  port : Nat
  ip : BitVec 128
  udp : BitVec 16
  ecn : Nat
  hdr : List Byte
  content : EthMsg
  body : List Byte
  tag : List Byte
  deriving DecidableEq, Repr

/-- What the module sends. -/
inductive Out where
  /-- A flit on a Scecy port. -/
  | flit (p : Nat) (bytes : List Byte)
  /-- An ARP or neighbour-discovery answer of a port. -/
  | arp (e : Nat)
  /-- A packet on an Ethernet port. -/
  | eth (p : EthPacket)
  deriving DecidableEq, Repr

end Sys2Proof.Machine

namespace Sys2Proof.Config

/-- The bytes from the BTH to the end of the payload: RoCE v2 formats, which R395 names and does not give (log entry 4). -/
opaque roceBytes : Nat → Machine.EthMsg → List Byte

end Sys2Proof.Config
end

