-- ==== Sys2Proof/Machine/State.lean ====
section
/-! DEFINITION. The state of the module as plain data, the reasons a step can stop, and the state after reset. -/

namespace Sys2Proof.Machine

/-- Why a step can end in a fault. -/
inductive Fault where
  /-- Raised by BOOT alone: a part that is not a field module, strapped to window 2, runs a manufacturing test that R441
  leaves outside the manual. Safe: nothing is claimed about that part. -/
  | outsideManual
  deriving DecidableEq, Repr

/-- Why a command has no meaning. -/
inductive Refusal where
  /-- Raised by the dispatcher for a command without a meaning in this model. Safe: no next state is claimed. -/
  | notModelled (mnemonic : String)
  deriving DecidableEq, Repr

/-- The state of the module. -/
structure State where
  /-- Control space: registers that differ from their reset values, by offset (R10, R11). -/
  regs : Tab (BitVec 64)
  /-- The bulk aperture by address (R7). -/
  bulk : Mem
  /-- The shared cache by offset (R275). -/
  scache : Mem
  /-- The cell stores: 2^21 × cell + offset (R66). -/
  stores : Mem
  /-- The local memories of the Tinkers: 2^15 × global index + offset (R79). -/
  locals : Mem
  /-- Errors of 64-bit SRAM words (R70, R275): 1 single-bit, 2 double-bit. Keys: see Ops. -/
  sramErr : Tab Nat
  tinkers : Tab Tinker
  cells : Tab CellSt
  slices : List SliceReq
  stk : StackSt
  pool : PoolSt
  flash : FlashSt
  fab : FabSt
  weav : WeavSt
  eth : EthSt
  clk : ClkSt
  /-- What the module has sent, in order: the model's record of its outputs. -/
  out : List Out
  /-- The model's own counter of free values drawn (log entry 3). -/
  freeCtr : Nat
  /-- The commands that wait, first in, first out. -/
  pending : List Instr
  deriving DecidableEq, Repr

/-- The module right after reset: every register at its reset value, RESET.CAUSE holding POWER_ON (R431, R433), memories with
nothing listed, every unit empty. -/
def State.reset : State where
  regs := []
  bulk := []
  scache := []
  stores := []
  locals := []
  sramErr := []
  tinkers := []
  cells := []
  slices := []
  stk := ⟨[], [], [], []⟩
  pool := ⟨[], [], [], []⟩
  flash := ⟨[], [], [], [], [], [], [], [], FwSlot.empty, FwSlot.empty, none⟩
  fab := ⟨[], [], [], [], 0, 0⟩
  weav := ⟨[], []⟩
  eth := ⟨[], [], [], [], [], [], 1⟩
  clk := ClkSt.init
  out := []
  freeCtr := 0
  pending := []

end Sys2Proof.Machine
end

