-- ==== Sys2Proof/Machine/Regs.lean ====
section
/-! DEFINITION. Registers: the one operation that reads and the one that writes a field of control space, counters, and who
holds a cell. -/

namespace Sys2Proof.Machine

/-- A register of control space (R11): unlisted registers hold their reset values. -/
def State.reg (s : State) (o : Nat) : BitVec 64 := Tab.get resetValue s.regs o

/-- Writing a register whole, by the hardware. -/
def State.setReg (s : State) (o : Nat) (v : BitVec 64) : State := { s with regs := Tab.set resetValue s.regs o v }

/-- A number with bits [lo + w - 1 : lo] replaced. -/
def putBits (x lo w v : Nat) : Nat := x - bitsOf x (lo + w - 1) lo * 2 ^ lo + v % 2 ^ w * 2 ^ lo

/-- The value of a field: block index b, register index i. -/
def State.fld (s : State) (f : Field) (b : Nat := 0) (i : Nat := 0) : Nat :=
  bitsOf (s.reg (f.reg b i)).toNat (f.lo + f.w - 1) f.lo

/-- Setting a field by the hardware, whatever its access code. -/
def State.setFld (s : State) (f : Field) (b i v : Nat) : State :=
  s.setReg (f.reg b i) (BitVec.ofNat 64 (putBits (s.reg (f.reg b i)).toNat f.lo f.w v))

/-- Counting into a SAT counter (R13). -/
def State.bump (s : State) (f : Field) (b : Nat := 0) (i : Nat := 0) (n : Nat := 1) : State :=
  s.setFld f b i (satTo (2 ^ f.w - 1) (s.fld f b i + n))

/-- Counting into a counter that wraps. -/
def State.inc (s : State) (f : Field) (b : Nat := 0) (i : Nat := 0) : State := s.setFld f b i (s.fld f b i + 1)

/-- Whether a one-bit field is set. -/
def State.flag (s : State) (f : Field) (b : Nat := 0) (i : Nat := 0) : Bool := decide (s.fld f b i = 1)

/-- Whether bit n of a field is set. -/
def State.bitOf (s : State) (f : Field) (b i n : Nat) : Bool := (s.fld f b i).testBit n

/-- Setting or clearing bit n of a field. -/
def State.setBit (s : State) (f : Field) (b i n : Nat) (v : Bool) : State :=
  s.setFld f b i (putBits (s.fld f b i) n 1 (if v then 1 else 0))

/-! ## Cells, Tinkers and tenants -/

/-- The tenant that holds a cell's group (R415; ETH[4].ADMIT of R420). -/
def State.cellTenant (s : State) (c : Nat) : Option (Fin 16) :=
  (List.finRange 16).find? (fun t => s.flag Fd.ethAdmitAdmitted 0 t.val && s.bitOf Fd.ethAdmitCgMask 0 t.val (c / 16))

/-- The issuer that a cell's accesses carry (R281). -/
def State.cellWho (s : State) (c : Nat) : Who :=
  match s.cellTenant c with
  | some t => .tenant t
  | none => .nobody

/-- Whether a tenant is admitted. -/
def State.admitted (s : State) (t : Fin 16) : Bool := s.flag Fd.ethAdmitAdmitted 0 t.val

/-- What a cell holds. -/
def State.cell (s : State) (c : Nat) : CellSt := Tab.get (fun _ => CellSt.init) s.cells c

def State.setCell (s : State) (c : Nat) (x : CellSt) : State :=
  { s with cells := Tab.set (fun _ => CellSt.init) s.cells c x }

/-- Changing what a cell holds. -/
def State.onCell (s : State) (c : Nat) (f : CellSt → CellSt) : State := s.setCell c (f (s.cell c))

/-- A Tinker by its global index (R6). -/
def State.tinker (s : State) (k : Nat) : Tinker := Tab.get (fun _ => Tinker.init) s.tinkers k

def State.setTinker (s : State) (k : Nat) (x : Tinker) : State :=
  { s with tinkers := Tab.set (fun _ => Tinker.init) s.tinkers k x }

/-- Changing a Tinker. -/
def State.onTinker (s : State) (k : Nat) (f : Tinker → Tinker) : State := s.setTinker k (f (s.tinker k))

/-- The cell and the number inside the cell of a Tinker (R6). -/
def tkCell (k : Nat) : Nat := k / 100
def tkNum (k : Nat) : Nat := k % 100

/-- The RUN bit of a Tinker: TK_RUN0 for T00 to T63, TK_RUN1 above (R83). -/
def State.running (s : State) (k : Nat) : Bool :=
  if tkNum k < 64 then s.bitOf Fd.cellTkRun0 (tkCell k) 0 (tkNum k) else s.bitOf Fd.cellTkRun1 (tkCell k) 0 (tkNum k - 64)

def State.setRun (s : State) (k : Nat) (v : Bool) : State :=
  if tkNum k < 64 then s.setBit Fd.cellTkRun0 (tkCell k) 0 (tkNum k) v else s.setBit Fd.cellTkRun1 (tkCell k) 0 (tkNum k - 64) v

/-- Setting the TRAP bit of a Tinker (R84). -/
def State.setTrapBit (s : State) (k : Nat) : State :=
  if tkNum k < 64 then s.setBit Fd.cellTkTrap0 (tkCell k) 0 (tkNum k) true
  else s.setBit Fd.cellTkTrap1 (tkCell k) 0 (tkNum k - 64) true

/-- A cell that the boot test fenced (R48). -/
def State.fenced (s : State) (c : Nat) : Bool := s.flag Fd.cellStateFenced c

/-- A block whose unit is in reset (R436, R438). -/
def State.inReset (s : State) (b : Blk) (i : Nat) (u : Nat := 0) : Bool := s.bitOf (Fd.swrstInReset b) i 0 u

/-- A cell that cannot act: fenced (R48) or in reset (R438). -/
def State.cellDead (s : State) (c : Nat) : Bool := s.fenced c || s.inReset .cell c

/-! ## Free values -/

/-- A free value and the state after it has been drawn (log entry 3). -/
def State.draw (s : State) : Nat × State := (Config.free s.freeCtr, { s with freeCtr := s.freeCtr + 1 })

/-! ## Fault codes (R14) -/

def cOK : Code := 0x0000
def cAccSaturated : Code := 0x1001
def cNarOperand : Code := 0x1002
def cNonfiniteGrad : Code := 0x1003
def cMemUncorrectable : Code := 0x2001
def cMemPinLost : Code := 0x2002
def cPoolExhausted : Code := 0x2003
def cFlashReadFail : Code := 0x2004
def cPageOwner : Code := 0x2005
def cMemsideRefused : Code := 0x2006
def cTruncatedBlock : Code := 0x3001
def cOverlongBlock : Code := 0x3002
def cStaleTable : Code := 0x3003
def cLengthLimit : Code := 0x4001
def cStrictPrecision : Code := 0x4002
def cLengthTableInvalid : Code := 0x4004
def cReduceChecksum : Code := 0x5001
def cEpochMismatch : Code := 0x5002
def cReceiverDetached : Code := 0x5003
def cLinkDown : Code := 0x5004
def cRouteUnreachable : Code := 0x5005
def cShardDrift : Code := 0x6001
def cStreamSkew : Code := 0x6002
def cTxnAbort : Code := 0x6003
def cTxnFootprint : Code := 0x6004
def cCoFedPartner : Code := 0x6005
def cRiskEvent : Code := 0x6006
def cConnUnauth : Code := 0x7001
def cIntegrityFail : Code := 0x7002
def cUpdateRefusedMoving : Code := 0x8001
def cUpdateRefusedHoldup : Code := 0x8002
def cUpdateRefusedLocked : Code := 0x8003
def cSigFail : Code := 0x8004
def cWatchdog : Code := 0x8005
def cAdmitTenantHeld : Code := 0x8006
def cAdmitCgUnavailable : Code := 0x8007
def cAdmitManagerHeld : Code := 0x8008
def cAdmitSingleTenancy : Code := 0x8009

/-- Codes whose kind is a warning, a status or OK; every other value is classed as a fault (R14, R15). -/
def codeIsFault (c : Code) : Bool :=
  !(c = cOK || c = cAccSaturated || c = cMemPinLost || c = cOverlongBlock || c = cCoFedPartner)

end Sys2Proof.Machine
end

