-- ==== Sys2Proof/Machine/Clock.lean ====
section
/-! DEFINITION. Time passing while no command waits: each clock domain of R470 counts a free number of cycles in the CYCLES
registers of its blocks (R472; log entries 3 and 13). -/

namespace Sys2Proof.Machine

/-- Counting n cycles in a block. -/
def State.addCycles (s : State) (b : Blk) (i n : Nat) : State :=
  s.setFld (Fd.cycles b) i 0 ((s.fld (Fd.cycles b) i + n) % 2 ^ 64)

/-- A domain whose blocks all count the same free number of cycles. -/
def State.tickDomain (s : State) (bs : List (Blk × Nat)) : State :=
  let d := s.draw
  bs.foldl (fun z b => z.addCycles b.1 b.2 d.1) d.2

/-- Blocks of the domains that R470 names once. -/
def cellDomain : List (Blk × Nat) := (List.range 256).map (fun c => (.cell, c))
def networkDomain : List (Blk × Nat) := [(.scecyAll, 0), (.weaver, 0), (.ethAll, 0), (.pool, 0), (.scache, 0)]
def clerkDomain : List (Blk × Nat) := [(.clerk, 0), (.rst, 0), (.module, 0)]

/-- A port counts only while it is UP (R472). -/
def State.tickPort (s : State) (b : Blk) (link : Field) (i : Nat) : State :=
  if s.fld link i = 2 then s.tickDomain [(b, i)] else s

/-- An Ethernet port that is UP also corrects a free number of codewords (R419; log entry 13). -/
def State.tickEth (s : State) (e : Nat) : State :=
  let z := s.tickPort .eth Fd.ethState e
  if s.fld Fd.ethState e = 2 then
    let d := z.draw
    d.2.bump Fd.ethFecCeCnt e 0 d.1
  else z

/-- Time passes in every domain. -/
def State.tick (s : State) : State :=
  let s1 := (((s.tickDomain cellDomain).tickDomain networkDomain).tickDomain clerkDomain).tickDomain [(.flash, 0)]
  let s2 := (List.range 12).foldl (fun z m => z.tickDomain [(.stack, m)]) s1
  let s3 := (List.range 24).foldl (fun z p => z.tickPort .scecy Fd.scecyStateLink p) s2
  (List.range 4).foldl (fun z e => z.tickEth e) s3

end Sys2Proof.Machine
end

