-- ==== Sys2Proof/WellFormed.lean ====
section
/-! DEFINITION. Which commands are well formed: the field values that R85, R86, R91 and R99 leave undefined are not (a Tinker
that meets one takes the ILLEGAL trap), nor is a frame without a whole encapsulation header (R396) or a chain list beyond
R449. -/

namespace Sys2Proof

/-- A field that names a vector register has a zero in bit 4 (R85). -/
def vreg (f : BitVec 5) : Bool := decide (f.toNat < 16)

/-- The destination field of a compare has zeros in its upper two bits (R99). -/
def preg (f : BitVec 5) : Bool := decide (f.toNat < 8)

/-- The check that every command passes before its encoding is defined. For SHI with imm[6:5] = 3 R88 gives no shift and R86 does not
name the field: it is taken as undefined (DESIGN CHOICE; log entry 57). -/
def wellFormed : Instr → Bool
  | .shi _ _ _ imm => decide (imm.extractLsb' 5 2 ≠ 3#2)
  | .bp _ _ cond _ => decide (cond ≠ 3#2)
  | .load _ _ _ width _ _ => decide (width ≠ 3#2)
  | .store _ _ _ width _ _ => decide (width ≠ 3#2)
  | .loadg _ _ _ width _ _ => decide (width ≠ 3#2)
  | .storeg _ _ _ width _ _ => decide (width ≠ 3#2)
  | .vld _ vd _ _ _ fmt _ _ => vreg vd && decide (fmt.toNat ≤ 3)
  | .vst _ vd _ _ _ fmt _ _ => vreg vd && decide (fmt.toNat ≤ 3)
  | .vfadd _ vd va vb _ => vreg vd && vreg va && vreg vb
  | .vfsub _ vd va vb _ => vreg vd && vreg va && vreg vb
  | .vfmul _ vd va vb _ => vreg vd && vreg va && vreg vb
  | .vfma _ vd va vb _ => vreg vd && vreg va && vreg vb
  | .vfmin _ vd va vb _ => vreg vd && vreg va && vreg vb
  | .vfmax _ vd va vb _ => vreg vd && vreg va && vreg vb
  | .vadd _ vd va vb _ => vreg vd && vreg va && vreg vb
  | .vsub _ vd va vb _ => vreg vd && vreg va && vreg vb
  | .vmul _ vd va vb _ => vreg vd && vreg va && vreg vb
  | .vand _ vd va vb _ => vreg vd && vreg va && vreg vb
  | .vor _ vd va vb _ => vreg vd && vreg va && vreg vb
  | .vxor _ vd va vb _ => vreg vd && vreg va && vreg vb
  | .vsll _ vd va vb _ => vreg vd && vreg va && vreg vb
  | .vsrl _ vd va vb _ => vreg vd && vreg va && vreg vb
  | .vsra _ vd va vb _ => vreg vd && vreg va && vreg vb
  | .vmin _ vd va vb _ => vreg vd && vreg va && vreg vb
  | .vmax _ vd va vb _ => vreg vd && vreg va && vreg vb
  | .lmul _ vd va vb _ => vreg vd && vreg va && vreg vb
  | .ldiv _ vd va vb _ => vreg vd && vreg va && vreg vb
  | .ladd _ vd va vb _ => vreg vd && vreg va && vreg vb
  | .lsub _ vd va vb _ => vreg vd && vreg va && vreg vb
  | .vfabs _ vd va _ => vreg vd && vreg va
  | .vfneg _ vd va _ => vreg vd && vreg va
  | .lhalf _ vd va _ => vreg vd && vreg va
  | .lnegx _ vd va _ => vreg vd && vreg va
  | .f2x _ vd va _ => vreg vd && vreg va
  | .x2f _ vd va _ => vreg vd && vreg va
  | .f2i _ vd va _ => vreg vd && vreg va
  | .i2f _ vd va _ => vreg vd && vreg va
  | .q2f _ vd va _ => vreg vd && vreg va
  | .f2q _ vd va _ => vreg vd && vreg va
  | .vmv _ vd va _ => vreg vd && vreg va
  | .exp2X _ vd va _ _ => vreg vd && vreg va
  | .log2X _ vd va _ _ => vreg vd && vreg va
  | .exp2F _ vd va _ _ => vreg vd && vreg va
  | .log2F _ vd va _ _ => vreg vd && vreg va
  | .feq _ pd va vb _ => preg pd && vreg va && vreg vb
  | .flt _ pd va vb _ => preg pd && vreg va && vreg vb
  | .fle _ pd va vb _ => preg pd && vreg va && vreg vb
  | .ieq _ pd va vb _ => preg pd && vreg va && vreg vb
  | .ilt _ pd va vb _ => preg pd && vreg va && vreg vb
  | .iltu _ pd va vb _ => preg pd && vreg va && vreg vb
  | .leq _ pd va vb _ => preg pd && vreg va && vreg vb
  | .llt _ pd va vb _ => preg pd && vreg va && vreg vb
  | .lle _ pd va vb _ => preg pd && vreg va && vreg vb
  | .pand _ pd _ _ => preg pd
  | .por _ pd _ _ => preg pd
  | .pxor _ pd _ _ => preg pd
  | .pnot _ pd _ => preg pd
  | .vbcast _ vd _ _ => vreg vd
  | .vext _ _ va _ => vreg va
  | .vfrsum _ _ va _ => vreg va
  | .vfrmax _ _ va _ => vreg va
  | .virsum _ _ va _ => vreg va
  | .vlrmax _ _ va _ => vreg va
  | .ethFrameReceive _ f => decide (f.hdr.length = 16)
  | .updateImageArrive _ chain _ _ => decide (chain.length ≤ 4096)
  | _ => true

end Sys2Proof
end

