-- ==== Sys2Proof/Decode.lean ====
section
/-! DEFINITION. The decoder and the encoder of the Tinkers' instruction words (R85 to R108), and the table's own words, of
which there are none. -/

namespace Sys2Proof

/-- Functions of opcode 0x00 (R88). -/
def decR (k : Fin 25600) (rd rs1 rs2 : BitVec 5) (funct : BitVec 11) : Option Instr :=
  match funct.toNat with
  | 0 => some (.add k rd rs1 rs2)
  | 1 => some (.sub k rd rs1 rs2)
  | 2 => some (.and k rd rs1 rs2)
  | 3 => some (.or k rd rs1 rs2)
  | 4 => some (.xor k rd rs1 rs2)
  | 5 => some (.sll k rd rs1 rs2)
  | 6 => some (.srl k rd rs1 rs2)
  | 7 => some (.sra k rd rs1 rs2)
  | 8 => some (.slt k rd rs1 rs2)
  | 9 => some (.sltu k rd rs1 rs2)
  | 10 => some (.mul k rd rs1 rs2)
  | 11 => some (.mulh k rd rs1 rs2)
  | 12 => some (.mulhu k rd rs1 rs2)
  | 13 => some (.min k rd rs1 rs2)
  | 14 => some (.max k rd rs1 rs2)
  | _ => none

/-- Kinds of opcode 0x14 (R102). -/
def decA (k : Fin 25600) (rd base rs2 rs3 : BitVec 5) (kind : BitVec 6) : Option Instr :=
  match kind.toNat with
  | 0x00 => some (.fai k rd base)
  | 0x01 => some (.faa k rd base rs2)
  | 0x02 => some (.cas k rd base rs2 rs3)
  | 0x08 => some (.hmerge k rd base rs2)
  | 0x09 => some (.hpred k rd base rs2)
  | _ => none

/-- Functions of VFP (R94). -/
def decVfp (k : Fin 25600) (vd va vb : BitVec 5) (pg : BitVec 3) (funct : BitVec 8) : Option Instr :=
  match funct.toNat with
  | 0 => some (.vfadd k vd va vb pg)
  | 1 => some (.vfsub k vd va vb pg)
  | 2 => some (.vfmul k vd va vb pg)
  | 3 => some (.vfma k vd va vb pg)
  | 4 => some (.vfmin k vd va vb pg)
  | 5 => some (.vfmax k vd va vb pg)
  | 6 => some (.vfabs k vd va pg)
  | 7 => some (.vfneg k vd va pg)
  | _ => none

/-- Functions of VINT (R95). -/
def decVint (k : Fin 25600) (vd va vb : BitVec 5) (pg : BitVec 3) (funct : BitVec 8) : Option Instr :=
  match funct.toNat with
  | 0 => some (.vadd k vd va vb pg)
  | 1 => some (.vsub k vd va vb pg)
  | 2 => some (.vmul k vd va vb pg)
  | 3 => some (.vand k vd va vb pg)
  | 4 => some (.vor k vd va vb pg)
  | 5 => some (.vxor k vd va vb pg)
  | 6 => some (.vsll k vd va vb pg)
  | 7 => some (.vsrl k vd va vb pg)
  | 8 => some (.vsra k vd va vb pg)
  | 9 => some (.vmin k vd va vb pg)
  | 10 => some (.vmax k vd va vb pg)
  | _ => none

/-- Functions of VLOG (R96). -/
def decVlog (k : Fin 25600) (vd va vb : BitVec 5) (pg : BitVec 3) (funct : BitVec 8) : Option Instr :=
  match funct.toNat with
  | 0 => some (.lmul k vd va vb pg)
  | 1 => some (.ldiv k vd va vb pg)
  | 2 => some (.ladd k vd va vb pg)
  | 3 => some (.lsub k vd va vb pg)
  | 4 => some (.lhalf k vd va pg)
  | 5 => some (.lnegx k vd va pg)
  | _ => none

/-- Functions of VSF: funct[7:1] selects, funct[0] is XC (R97). -/
def decVsf (k : Fin 25600) (vd va : BitVec 5) (pg : BitVec 3) (sel : BitVec 7) (xc : Bool) : Option Instr :=
  match sel.toNat with
  | 0 => some (.exp2X k vd va pg xc)
  | 1 => some (.log2X k vd va pg xc)
  | 2 => some (.exp2F k vd va pg xc)
  | 3 => some (.log2F k vd va pg xc)
  | _ => none

/-- Functions of VCVT (R98). -/
def decVcvt (k : Fin 25600) (vd va : BitVec 5) (pg : BitVec 3) (funct : BitVec 8) : Option Instr :=
  match funct.toNat with
  | 0 => some (.f2x k vd va pg)
  | 1 => some (.x2f k vd va pg)
  | 2 => some (.f2i k vd va pg)
  | 3 => some (.i2f k vd va pg)
  | 4 => some (.q2f k vd va pg)
  | 5 => some (.f2q k vd va pg)
  | _ => none

/-- Functions of VCMP (R99). -/
def decVcmp (k : Fin 25600) (pd va vb : BitVec 5) (pg : BitVec 3) (funct : BitVec 8) : Option Instr :=
  match funct.toNat with
  | 0 => some (.feq k pd va vb pg)
  | 1 => some (.flt k pd va vb pg)
  | 2 => some (.fle k pd va vb pg)
  | 8 => some (.ieq k pd va vb pg)
  | 9 => some (.ilt k pd va vb pg)
  | 10 => some (.iltu k pd va vb pg)
  | 16 => some (.leq k pd va vb pg)
  | 17 => some (.llt k pd va vb pg)
  | 18 => some (.lle k pd va vb pg)
  | 32 => some (.pand k pd va vb)
  | 33 => some (.por k pd va vb)
  | 34 => some (.pxor k pd va vb)
  | 0x23 => some (.pnot k pd va)
  | _ => none

/-- Functions of VMOV (R100). -/
def decVmov (k : Fin 25600) (vd va vb : BitVec 5) (pg : BitVec 3) (funct : BitVec 8) : Option Instr :=
  match funct.toNat with
  | 0x00 => some (.vmv k vd va pg)
  | 0x01 => some (.vbcast k vd va pg)
  | 0x03 => some (.vext k vd va (vb.extractLsb' 0 3))
  | 0x04 => some (.ptog k vd va)
  | 0x05 => some (.gtop k vd va)
  | _ => none

/-- Functions of VRED (R100). -/
def decVred (k : Fin 25600) (gd va : BitVec 5) (pg : BitVec 3) (funct : BitVec 8) : Option Instr :=
  match funct.toNat with
  | 0 => some (.vfrsum k gd va pg)
  | 1 => some (.vfrmax k gd va pg)
  | 2 => some (.virsum k gd va pg)
  | 3 => some (.vlrmax k gd va pg)
  | _ => none

/-- Functions of the system opcode (R108). -/
def decS (k : Fin 25600) (rd rs1 : BitVec 5) (csr funct : BitVec 8) : Option Instr :=
  match funct.toNat with
  | 0x00 => some (.csrr k rd csr)
  | 0x01 => some (.csrw k rs1 csr)
  | 0x02 => some (.csrc k rs1 csr)
  | 0x10 => some (.fenceT k)
  | 0x11 => some (.iflush k)
  | 0x12 => some (.halt k)
  | 0x13 => some (.trap k rs1)
  | 0x14 => some (.rett k)
  | 0x20 => some (.qdone k rd (csr.extractLsb' 0 4))
  | 0x21 => some (.waitq k rs1 (csr.extractLsb' 0 4))
  | _ => none

/-- Sub-operations of the long forms (R87). -/
def decLong (k : Fin 25600) (rd sub : BitVec 5) (hi : BitVec 16) (imm : BitVec 32) : Option Instr :=
  match sub.toNat with
  | 0x00 => some (.li k rd imm)
  | 0x01 => some (.lip k rd hi imm)
  | 0x02 => some (.issueL k rd (hi.extractLsb' 0 4) (hi.getLsbD 4) imm)
  | 0x03 => some (.ja k rd imm)
  | _ => none

/-- The major opcodes (R86), before the field checks. -/
def decMajor (k : Fin 25600) (w w1 : BitVec 32) : Option Instr :=
  let f21 := w.extractLsb' 21 5
  let f16 := w.extractLsb' 16 5
  let f11 := w.extractLsb' 11 5
  let imm := w.extractLsb' 0 16
  let pg := w.extractLsb' 8 3
  let fn := w.extractLsb' 0 8
  match (w.extractLsb' 26 6).toNat with
  | 0x00 => decR k f21 f16 f11 (w.extractLsb' 0 11)
  | 0x01 => some (.addi k f21 f16 imm)
  | 0x02 => some (.andi k f21 f16 imm)
  | 0x03 => some (.ori k f21 f16 imm)
  | 0x04 => some (.xori k f21 f16 imm)
  | 0x05 => some (.slti k f21 f16 imm)
  | 0x06 => some (.sltiu k f21 f16 imm)
  | 0x07 => some (.shi k f21 f16 imm)
  | 0x08 => some (.lui k f21 imm)
  | 0x10 => some (.load k f21 f16 (w.extractLsb' 14 2) (w.getLsbD 13) (w.extractLsb' 0 13))
  | 0x11 => some (.store k f21 f16 (w.extractLsb' 14 2) (w.getLsbD 13) (w.extractLsb' 0 13))
  | 0x12 => some (.loadg k f21 f16 (w.extractLsb' 14 2) (w.getLsbD 13) (w.extractLsb' 0 13))
  | 0x13 => some (.storeg k f21 f16 (w.extractLsb' 14 2) (w.getLsbD 13) (w.extractLsb' 0 13))
  | 0x14 => decA k f21 f16 f11 (w.extractLsb' 6 5) (w.extractLsb' 0 6)
  | 0x17 => some (.bp k (w.extractLsb' 23 3) (w.extractLsb' 21 2) imm)
  | 0x18 => some (.beq k f21 f16 imm)
  | 0x19 => some (.bne k f21 f16 imm)
  | 0x1a => some (.blt k f21 f16 imm)
  | 0x1b => some (.bge k f21 f16 imm)
  | 0x1c => some (.bltu k f21 f16 imm)
  | 0x1d => some (.bgeu k f21 f16 imm)
  | 0x1e => some (.jal k f21 (w.extractLsb' 0 21))
  | 0x1f => some (.jalr k f21 f16 imm)
  | 0x20 => decVfp k f21 f16 f11 pg fn
  | 0x21 => decVint k f21 f16 f11 pg fn
  | 0x22 => decVlog k f21 f16 f11 pg fn
  | 0x23 => decVsf k f21 f16 pg (w.extractLsb' 1 7) (w.getLsbD 0)
  | 0x24 => decVcvt k f21 f16 pg fn
  | 0x25 => decVcmp k f21 f16 f11 pg fn
  | 0x26 => decVmov k f21 f16 f11 pg fn
  | 0x27 => decVred k f21 f16 pg fn
  | 0x28 => some (.vld k f21 f16 f11 pg (w.extractLsb' 5 3) (w.getLsbD 4) (w.extractLsb' 0 4))
  | 0x29 => some (.vst k f21 f16 f11 pg (w.extractLsb' 5 3) (w.getLsbD 4) (w.extractLsb' 0 4))
  | 0x30 => decS k f21 f16 (w.extractLsb' 8 8) fn
  | 0x31 => some (.issue k f21 f16 (w.extractLsb' 12 4) (w.getLsbD 11))
  | 0x3f => decLong k f21 f16 imm w1
  | _ => none

/-- The Fuqualos decoder (R85, R86): what Tinker k reads from an instruction word and, for a long form, the word after it;
none where this raises ILLEGAL. -/
def decodeTinker (k : Fin 25600) (w w1 : BitVec 32) : Option Instr :=
  (decMajor k w w1).filter (fun i => wellFormed i)

/-- Whether an instruction word begins a long form, which is two words (R87). -/
def isLongForm (w : BitVec 32) : Bool := decide (w.extractLsb' 26 6 = 0x3f#6)

/-- The table gives no row any bits, so no word spells a command of it. -/
def decodeTableWord (_nbits _w : Nat) : Option Instr := none

/-! ## The encoder -/

def encR (rd rs1 rs2 : BitVec 5) (funct : BitVec 11) : BitVec 32 := 0x00#6 ++ rd ++ rs1 ++ rs2 ++ funct
def encI (op : BitVec 6) (rd rs1 : BitVec 5) (imm : BitVec 16) : BitVec 32 := op ++ rd ++ rs1 ++ imm
def encM (op : BitVec 6) (rd base : BitVec 5) (width : BitVec 2) (u : Bool) (off : BitVec 13) : BitVec 32 :=
  op ++ rd ++ base ++ width ++ BitVec.ofBool u ++ off
def encA (rd base rs2 rs3 : BitVec 5) (kind : BitVec 6) : BitVec 32 := 0x14#6 ++ rd ++ base ++ rs2 ++ rs3 ++ kind
def encBP (p : BitVec 3) (cond : BitVec 2) (off : BitVec 16) : BitVec 32 := 0x17#6 ++ p ++ cond ++ 0#5 ++ off
def encJ (rd : BitVec 5) (off : BitVec 21) : BitVec 32 := 0x1e#6 ++ rd ++ off
def encV (op : BitVec 6) (vd va vb : BitVec 5) (pg : BitVec 3) (funct : BitVec 8) : BitVec 32 :=
  op ++ vd ++ va ++ vb ++ pg ++ funct
def encVM (op : BitVec 6) (vd base rk : BitVec 5) (pg fmt : BitVec 3) (g : Bool) (off : BitVec 4) : BitVec 32 :=
  op ++ vd ++ base ++ rk ++ pg ++ fmt ++ BitVec.ofBool g ++ off
def encS (rd rs1 : BitVec 5) (csr funct : BitVec 8) : BitVec 32 := 0x30#6 ++ rd ++ rs1 ++ csr ++ funct
def encQ (rd rs1 : BitVec 5) (q : BitVec 4) (w : Bool) : BitVec 32 := 0x31#6 ++ rd ++ rs1 ++ q ++ BitVec.ofBool w ++ 0#11
def encLong (rd sub : BitVec 5) (hi : BitVec 16) : BitVec 32 := 0x3f#6 ++ rd ++ sub ++ hi

/-- The words of a Tinker instruction (R85-R87): one word, and a second for the long forms; none for the commands that are
no Tinker instruction. -/
def encodeTinker : Instr → Option (BitVec 32 × Option (BitVec 32))
  | .add _ rd rs1 rs2 => some (encR rd rs1 rs2 0, none)
  | .sub _ rd rs1 rs2 => some (encR rd rs1 rs2 1, none)
  | .and _ rd rs1 rs2 => some (encR rd rs1 rs2 2, none)
  | .or _ rd rs1 rs2 => some (encR rd rs1 rs2 3, none)
  | .xor _ rd rs1 rs2 => some (encR rd rs1 rs2 4, none)
  | .sll _ rd rs1 rs2 => some (encR rd rs1 rs2 5, none)
  | .srl _ rd rs1 rs2 => some (encR rd rs1 rs2 6, none)
  | .sra _ rd rs1 rs2 => some (encR rd rs1 rs2 7, none)
  | .slt _ rd rs1 rs2 => some (encR rd rs1 rs2 8, none)
  | .sltu _ rd rs1 rs2 => some (encR rd rs1 rs2 9, none)
  | .mul _ rd rs1 rs2 => some (encR rd rs1 rs2 10, none)
  | .mulh _ rd rs1 rs2 => some (encR rd rs1 rs2 11, none)
  | .mulhu _ rd rs1 rs2 => some (encR rd rs1 rs2 12, none)
  | .min _ rd rs1 rs2 => some (encR rd rs1 rs2 13, none)
  | .max _ rd rs1 rs2 => some (encR rd rs1 rs2 14, none)
  | .addi _ rd rs1 imm => some (encI 1 rd rs1 imm, none)
  | .andi _ rd rs1 imm => some (encI 2 rd rs1 imm, none)
  | .ori _ rd rs1 imm => some (encI 3 rd rs1 imm, none)
  | .xori _ rd rs1 imm => some (encI 4 rd rs1 imm, none)
  | .slti _ rd rs1 imm => some (encI 5 rd rs1 imm, none)
  | .sltiu _ rd rs1 imm => some (encI 6 rd rs1 imm, none)
  | .shi _ rd rs1 imm => some (encI 7 rd rs1 imm, none)
  | .jalr _ rd rs1 imm => some (encI 31 rd rs1 imm, none)
  | .lui _ rd imm => some (encI 8 rd 0 imm, none)
  | .beq _ rs1 rs2 off => some (encI 24 rs1 rs2 off, none)
  | .bne _ rs1 rs2 off => some (encI 25 rs1 rs2 off, none)
  | .blt _ rs1 rs2 off => some (encI 26 rs1 rs2 off, none)
  | .bge _ rs1 rs2 off => some (encI 27 rs1 rs2 off, none)
  | .bltu _ rs1 rs2 off => some (encI 28 rs1 rs2 off, none)
  | .bgeu _ rs1 rs2 off => some (encI 29 rs1 rs2 off, none)
  | .bp _ p cond off => some (encBP p cond off, none)
  | .jal _ rd off => some (encJ rd off, none)
  | .li _ rd imm => some (encLong rd 0 0, some imm)
  | .lip _ rd hi imm => some (encLong rd 1 hi, some imm)
  | .issueL _ rd q w imm => some (encLong rd 2 (0#11 ++ BitVec.ofBool w ++ q), some imm)
  | .ja _ rd imm => some (encLong rd 3 0, some imm)
  | .load _ rd base width u off => some (encM 16 rd base width u off, none)
  | .store _ rd base width u off => some (encM 17 rd base width u off, none)
  | .loadg _ rd base width u off => some (encM 18 rd base width u off, none)
  | .storeg _ rd base width u off => some (encM 19 rd base width u off, none)
  | .fai _ rd base => some (encA rd base 0 0 0x00, none)
  | .faa _ rd base rs2 => some (encA rd base rs2 0 0x01, none)
  | .cas _ rd base rs2 rs3 => some (encA rd base rs2 rs3 0x02, none)
  | .hmerge _ rd base rs2 => some (encA rd base rs2 0 0x08, none)
  | .hpred _ rd base rs2 => some (encA rd base rs2 0 0x09, none)
  | .vld _ vd base rk pg fmt g off => some (encVM 40 vd base rk pg fmt g off, none)
  | .vst _ vd base rk pg fmt g off => some (encVM 41 vd base rk pg fmt g off, none)
  | .vfadd _ vd va vb pg => some (encV 32 vd va vb pg 0, none)
  | .vfsub _ vd va vb pg => some (encV 32 vd va vb pg 1, none)
  | .vfmul _ vd va vb pg => some (encV 32 vd va vb pg 2, none)
  | .vfma _ vd va vb pg => some (encV 32 vd va vb pg 3, none)
  | .vfmin _ vd va vb pg => some (encV 32 vd va vb pg 4, none)
  | .vfmax _ vd va vb pg => some (encV 32 vd va vb pg 5, none)
  | .vfabs _ vd va pg => some (encV 32 vd va 0 pg 6, none)
  | .vfneg _ vd va pg => some (encV 32 vd va 0 pg 7, none)
  | .vadd _ vd va vb pg => some (encV 33 vd va vb pg 0, none)
  | .vsub _ vd va vb pg => some (encV 33 vd va vb pg 1, none)
  | .vmul _ vd va vb pg => some (encV 33 vd va vb pg 2, none)
  | .vand _ vd va vb pg => some (encV 33 vd va vb pg 3, none)
  | .vor _ vd va vb pg => some (encV 33 vd va vb pg 4, none)
  | .vxor _ vd va vb pg => some (encV 33 vd va vb pg 5, none)
  | .vsll _ vd va vb pg => some (encV 33 vd va vb pg 6, none)
  | .vsrl _ vd va vb pg => some (encV 33 vd va vb pg 7, none)
  | .vsra _ vd va vb pg => some (encV 33 vd va vb pg 8, none)
  | .vmin _ vd va vb pg => some (encV 33 vd va vb pg 9, none)
  | .vmax _ vd va vb pg => some (encV 33 vd va vb pg 10, none)
  | .lmul _ vd va vb pg => some (encV 34 vd va vb pg 0, none)
  | .ldiv _ vd va vb pg => some (encV 34 vd va vb pg 1, none)
  | .ladd _ vd va vb pg => some (encV 34 vd va vb pg 2, none)
  | .lsub _ vd va vb pg => some (encV 34 vd va vb pg 3, none)
  | .lhalf _ vd va pg => some (encV 34 vd va 0 pg 4, none)
  | .lnegx _ vd va pg => some (encV 34 vd va 0 pg 5, none)
  | .exp2X _ vd va pg xc => some (encV 0x23 vd va 0 pg (0#7 ++ BitVec.ofBool xc), none)
  | .log2X _ vd va pg xc => some (encV 0x23 vd va 0 pg (1#7 ++ BitVec.ofBool xc), none)
  | .exp2F _ vd va pg xc => some (encV 0x23 vd va 0 pg (2#7 ++ BitVec.ofBool xc), none)
  | .log2F _ vd va pg xc => some (encV 0x23 vd va 0 pg (3#7 ++ BitVec.ofBool xc), none)
  | .f2x _ vd va pg => some (encV 36 vd va 0 pg 0, none)
  | .x2f _ vd va pg => some (encV 36 vd va 0 pg 1, none)
  | .f2i _ vd va pg => some (encV 36 vd va 0 pg 2, none)
  | .i2f _ vd va pg => some (encV 36 vd va 0 pg 3, none)
  | .q2f _ vd va pg => some (encV 36 vd va 0 pg 4, none)
  | .f2q _ vd va pg => some (encV 36 vd va 0 pg 5, none)
  | .feq _ vd va vb pg => some (encV 37 vd va vb pg 0, none)
  | .flt _ vd va vb pg => some (encV 37 vd va vb pg 1, none)
  | .fle _ vd va vb pg => some (encV 37 vd va vb pg 2, none)
  | .ieq _ vd va vb pg => some (encV 37 vd va vb pg 8, none)
  | .ilt _ vd va vb pg => some (encV 37 vd va vb pg 9, none)
  | .iltu _ vd va vb pg => some (encV 37 vd va vb pg 10, none)
  | .leq _ vd va vb pg => some (encV 37 vd va vb pg 16, none)
  | .llt _ vd va vb pg => some (encV 37 vd va vb pg 17, none)
  | .lle _ vd va vb pg => some (encV 37 vd va vb pg 18, none)
  | .pand _ pd pa pb => some (encV 0x25 pd pa pb 0 32, none)
  | .por _ pd pa pb => some (encV 0x25 pd pa pb 0 33, none)
  | .pxor _ pd pa pb => some (encV 0x25 pd pa pb 0 34, none)
  | .pnot _ pd pa => some (encV 0x25 pd pa 0 0 0x23, none)
  | .vmv _ vd va pg => some (encV 0x26 vd va 0 pg 0, none)
  | .vbcast _ vd ga pg => some (encV 0x26 vd ga 0 pg 1, none)
  | .vext _ gd va lane => some (encV 0x26 gd va (0#2 ++ lane) 0 3, none)
  | .ptog _ gd pa => some (encV 0x26 gd pa 0 0 4, none)
  | .gtop _ pd ga => some (encV 0x26 pd ga 0 0 5, none)
  | .vfrsum _ vd va pg => some (encV 39 vd va 0 pg 0, none)
  | .vfrmax _ vd va pg => some (encV 39 vd va 0 pg 1, none)
  | .virsum _ vd va pg => some (encV 39 vd va 0 pg 2, none)
  | .vlrmax _ vd va pg => some (encV 39 vd va 0 pg 3, none)
  | .csrr _ rd csr => some (encS rd 0 csr 0x00, none)
  | .csrw _ rs1 csr => some (encS 0 rs1 csr 0x01, none)
  | .csrc _ rs1 csr => some (encS 0 rs1 csr 0x02, none)
  | .fenceT _ => some (encS 0 0 0 16, none)
  | .iflush _ => some (encS 0 0 0 17, none)
  | .halt _ => some (encS 0 0 0 18, none)
  | .rett _ => some (encS 0 0 0 20, none)
  | .trap _ rs1 => some (encS 0 rs1 0 0x13, none)
  | .qdone _ rd q => some (encS rd 0 (0#4 ++ q) 0x20, none)
  | .waitq _ rs1 q => some (encS 0 rs1 (0#4 ++ q) 0x21, none)
  | .issue _ rd rs1 q w => some (encQ rd rs1 q w, none)
  | _ => none

/-- The first word of a Tinker instruction, which an ILLEGAL trap reports (R84). -/
def firstWord (i : Instr) : BitVec 32 :=
  match encodeTinker i with
  | some (w, _) => w
  | none => 0

end Sys2Proof
end

