-- ==== Sys2Proof/Machine/Fp32.lean ====
section
/-! DEFINITION. FP32 arithmetic (R94), its conversions (R26, R98) and the built-in EXP2 and LOG2 (R148 to R151). Every
result is an exact rational rounded once, to nearest even or toward zero. -/

namespace Sys2Proof.Machine

/-- The sticky flags of cstat in their places: NV [0], OF [1], UF [2], NX [3] (R77). -/
abbrev FpFlags := BitVec 4

def fpNV : FpFlags := 1
def fpOF : FpFlags := 2
def fpUF : FpFlags := 4
def fpNX : FpFlags := 8

/-- Rounding directions: nearest even (R94), toward zero (R151, R156). -/
inductive RMode where
  | ne
  | tz
  deriving DecidableEq, Repr

/-- A binary32 datum: NaN, infinity, or a finite value (-1)^neg × mag × 2^-149. -/
inductive Fp where
  | nan (signaling : Bool)
  | inf (neg : Bool)
  | fin (neg : Bool) (mag : Nat)
  deriving DecidableEq, Repr

/-- The datum that 32 bits encode (IEEE 754 binary32). -/
def fpDecode (x : Word) : Fp :=
  let neg := x.msb
  let e := bitsOf x.toNat 30 23
  let m := bitsOf x.toNat 22 0
  if e = 255 then (if m = 0 then .inf neg else .nan (decide (m < 2 ^ 22)))
  else if e = 0 then .fin neg m
  else .fin neg ((m + 2 ^ 23) * 2 ^ (e - 1))

/-- The NaN that every operation generates (R94). -/
def fpNaN : Word := 0x7FC00000

def fpSign (neg : Bool) : Nat := if neg then 2 ^ 31 else 0

/-- Infinity. -/
def fpInf (neg : Bool) : Word := BitVec.ofNat 32 (fpSign neg + 0x7F800000)

/-- Zero. -/
def fpZero (neg : Bool) : Word := BitVec.ofNat 32 (fpSign neg)

/-- num / den × 2^s rounded to an integer in a direction. -/
def roundTo (md : RMode) (num den : Nat) (s : Int) : Nat :=
  let n := if 0 ≤ s then num * 2 ^ s.toNat else num
  let d := if 0 ≤ s then den else den * 2 ^ (-s).toNat
  match md with
  | .ne => (roundHE n d).toNat
  | .tz => n / d

/-- Whether num / den × 2^s is an integer. -/
def isIntAt (num den : Nat) (s : Int) : Bool :=
  if 0 ≤ s then decide (num * 2 ^ s.toNat % den = 0) else decide (num % (den * 2 ^ (-s).toNat) = 0)

/-- The binary32 nearest in the given direction to the positive value num / den × 2^e2, with its flags. Tininess is detected
after rounding (R94). Overflow gives infinity to nearest, the largest finite number toward zero (IEEE 754). -/
def fpRound (md : RMode) (neg : Bool) (num den : Nat) (e2 : Int) : Word × FpFlags :=
  if num = 0 then (fpZero neg, 0)
  else
    let e := floorLog2 num den + e2
    let m := roundTo md num den (e2 + 23 - e)
    let e1 := if m = 2 ^ 24 then e + 1 else e
    let m1 := if m = 2 ^ 24 then 2 ^ 23 else m
    if 127 < e1 then
      (match md with
        | .ne => fpInf neg
        | .tz => BitVec.ofNat 32 (fpSign neg + 0x7F7FFFFF), fpOF ||| fpNX)
    else if -126 ≤ e then
      (BitVec.ofNat 32 (fpSign neg + ((e1 + 127).toNat * 2 ^ 23 + (m1 - 2 ^ 23))),
        if isIntAt num den (e2 + 23 - e) then 0 else fpNX)
    else
      let q := roundTo md num den (e2 + 149)
      (BitVec.ofNat 32 (fpSign neg + q),
        if isIntAt num den (e2 + 149) then 0 else if e1 < -126 then fpUF ||| fpNX else fpNX)

/-- A signed exact value over 2^s as a binary32; an exact zero takes the sign given. -/
def fpRoundInt (md : RMode) (zneg : Bool) (x : Int) (s : Int) : Word × FpFlags :=
  if x = 0 then (fpZero zneg, 0) else fpRound md (decide (x < 0)) x.natAbs 1 s

/-- Signed magnitude as an integer. -/
def sInt (neg : Bool) (m : Nat) : Int := if neg then -(m : Int) else m

def Fp.isNan : Fp → Bool
  | .nan _ => true
  | _ => false

def Fp.isSnan : Fp → Bool
  | .nan b => b
  | _ => false

/-- A NaN result of an operation on NaN operands: invalid where one signals. -/
def nanOf (xs : List Fp) : Word × FpFlags := (fpNaN, if xs.any Fp.isSnan then fpNV else 0)

/-- The invalid operation. -/
def fpInvalid : Word × FpFlags := (fpNaN, fpNV)

/-- Sum (R94). -/
def fpAdd (md : RMode) (a b : Word) : Word × FpFlags :=
  match fpDecode a, fpDecode b with
  | .nan x, y => nanOf [.nan x, y]
  | x, .nan y => nanOf [x, .nan y]
  | .inf s, .inf t => if s = t then (fpInf s, 0) else fpInvalid
  | .inf s, .fin _ _ => (fpInf s, 0)
  | .fin _ _, .inf t => (fpInf t, 0)
  | .fin s m, .fin t n => fpRoundInt md (s && t) (sInt s m + sInt t n) (-149)

/-- Sign inverted, without flags (R94). -/
def fpNeg (a : Word) : Word := a ^^^ 0x80000000

/-- Sign cleared, without flags (R94). -/
def fpAbs (a : Word) : Word := a &&& 0x7FFFFFFF

/-- Difference (R94); the sign of a NaN operand has no effect. -/
def fpSub (md : RMode) (a b : Word) : Word × FpFlags := fpAdd md a (fpNeg b)

/-- Product (R94). -/
def fpMul (md : RMode) (a b : Word) : Word × FpFlags :=
  match fpDecode a, fpDecode b with
  | .nan x, y => nanOf [.nan x, y]
  | x, .nan y => nanOf [x, .nan y]
  | .inf s, .inf t => (fpInf (s != t), 0)
  | .inf s, .fin t n => if n = 0 then fpInvalid else (fpInf (s != t), 0)
  | .fin s m, .inf t => if m = 0 then fpInvalid else (fpInf (s != t), 0)
  | .fin s m, .fin t n => fpRoundInt md (s != t) (sInt (s != t) (m * n)) (-298)

/-- Quotient, used by R156 only. -/
def fpDiv (md : RMode) (a b : Word) : Word × FpFlags :=
  match fpDecode a, fpDecode b with
  | .nan x, y => nanOf [.nan x, y]
  | x, .nan y => nanOf [x, .nan y]
  | .inf _, .inf _ => fpInvalid
  | .inf s, .fin t _ => (fpInf (s != t), 0)
  | .fin s _, .inf t => (fpZero (s != t), 0)
  | .fin s m, .fin t n =>
    if n = 0 then (if m = 0 then fpInvalid else (fpInf (s != t), 0))
    else if m = 0 then (fpZero (s != t), 0)
    else fpRound md (s != t) m n 0

/-- a × b + c, rounded once (R94). Infinity times zero with a quiet NaN addend signals as Config.fmaQuietInvalid says
(log entry 5). -/
def fpFma (md : RMode) (a b c : Word) : Word × FpFlags :=
  let x := fpDecode a
  let y := fpDecode b
  let z := fpDecode c
  let invalidProduct : Bool :=
    match x, y with
    | .inf _, .fin _ n => decide (n = 0)
    | .fin _ m, .inf _ => decide (m = 0)
    | _, _ => false
  if x.isNan || y.isNan then nanOf [x, y, z]
  else match z with
  | .nan sg => (fpNaN, if sg || (invalidProduct && Config.fmaQuietInvalid) then fpNV else 0)
  | _ =>
    if invalidProduct then fpInvalid
    else match x, y, z with
    | .fin s m, .fin t n, .fin u p =>
      let pr := sInt (s != t) (m * n)
      fpRoundInt md ((s != t) && u) (pr + sInt u p * 2 ^ 149) (-298)
    | .fin _ _, .fin _ _, .inf u => (fpInf u, 0)
    | .inf s, .inf t, .inf u => if (s != t) = u then (fpInf u, 0) else fpInvalid
    | .inf s, .fin t _, .inf u => if (s != t) = u then (fpInf u, 0) else fpInvalid
    | .fin s _, .inf t, .inf u => if (s != t) = u then (fpInf u, 0) else fpInvalid
    | .inf s, .inf t, _ => (fpInf (s != t), 0)
    | .inf s, .fin t _, _ => (fpInf (s != t), 0)
    | .fin s _, .inf t, _ => (fpInf (s != t), 0)
    | _, _, _ => (fpNaN, 0)

/-- The place of a datum in the order of values, with -0 below +0. -/
def fpKey : Fp → Int
  | .nan _ => 0
  | .inf neg => if neg then -2 ^ 400 else 2 ^ 400
  | .fin neg m => if neg then -(m : Int) - 1 else m

/-- The value of a datum as an exact integer in units of 2^-149, infinities beyond every finite one. -/
def fpVal : Fp → Int
  | .nan _ => 0
  | .inf neg => if neg then -2 ^ 400 else 2 ^ 400
  | .fin neg m => sInt neg m

/-- Minimum or maximum (R94): a single NaN operand yields the other operand; a signaling NaN is invalid; -0 lies below +0
(log entry 6). -/
def fpMinMax (isMax : Bool) (a b : Word) : Word × FpFlags :=
  let x := fpDecode a
  let y := fpDecode b
  let fl : FpFlags := if x.isSnan || y.isSnan then fpNV else 0
  if x.isNan && y.isNan then (fpNaN, fl)
  else if x.isNan then (b, fl)
  else if y.isNan then (a, fl)
  else if isMax then (if fpKey x < fpKey y then b else a, 0)
  else (if fpKey y < fpKey x then b else a, 0)

/-- Equality (R99): quiet. -/
def fpEq (a b : Word) : Bool × FpFlags :=
  let x := fpDecode a
  let y := fpDecode b
  if x.isNan || y.isNan then (false, if x.isSnan || y.isSnan then fpNV else 0)
  else (decide (fpVal x = fpVal y), 0)

/-- Less than, or less or equal (R99): a NaN operand is invalid. -/
def fpLt (orEq : Bool) (a b : Word) : Bool × FpFlags :=
  let x := fpDecode a
  let y := fpDecode b
  if x.isNan || y.isNan then (false, fpNV)
  else (if orEq then decide (fpVal x ≤ fpVal y) else decide (fpVal x < fpVal y), 0)

/-! ## Conversions -/

/-- FP32 to a result of the store path (R26): zero, NaR for infinities and NaNs, else the linear value. -/
def fpToS (a : Word) : SVal :=
  match fpDecode a with
  | .nan _ => .nar
  | .inf _ => .nar
  | .fin neg m => if m = 0 then .zero else .lin neg m 1 (-149)

/-- The LX32 code of a value (R93): the code and its counts. -/
def lxOfVal (v : LVal) : Word × Counts :=
  match v with
  | .zero => (0, Counts.none)
  | .nar => (0x80000000, Counts.none)
  | .num neg l =>
    let e := l + 2 ^ 30
    if e < 1 then (0, Counts.oneFlush)
    else if 2 ^ 31 - 1 < e then (BitVec.ofNat 32 (fpSign neg + (2 ^ 31 - 1)), Counts.oneSat)
    else (BitVec.ofNat 32 (fpSign neg + e.toNat), Counts.none)

/-- The value of an LX32 code (R93). -/
def lxVal (x : Word) : LVal :=
  let e : Nat := x.toNat % 2 ^ 31
  if e = 0 then (if x.msb then .nar else .zero) else .num x.msb ((e : Int) - 2 ^ 30)

/-- The LX32 value nearest a linear result, R34 with g = 10 and no trim. -/
def lvalOfS (v : SVal) : LVal :=
  match v with
  | .nar => .nar
  | _ => match v.log 10 0 with
    | none => .zero
    | some (neg, q) => .num neg q

/-- The sum of two values (R96): exact on the values C10[f] × 2^n of R26, rounded by R34 with g = 10 and no trim. -/
def lxAdd (a b : LVal) : LVal :=
  match a, b with
  | .nar, _ => .nar
  | _, .nar => .nar
  | .zero, y => y
  | x, .zero => x
  | .num sa la, .num sb lb =>
    let na := la / 1024
    let nb := lb / 1024
    let lo := min na nb
    let x := sInt sa (cg 10 (la % 1024).toNat) * 2 ^ (na - lo).toNat + sInt sb (cg 10 (lb % 1024).toNat) * 2 ^ (nb - lo).toNat
    if x = 0 then .zero else .num (decide (x < 0)) (roundLog 10 x.natAbs 1 (lo - 23) 0)

/-- A value as an L16 code under block exponent 0: results beyond its range become the zero code or Emax (R277). -/
def codeL16 (v : LVal) : Nat :=
  match v with
  | .zero => zeroCode
  | .nar => narCode .l16
  | .num neg l => (codeElem .l16 0 neg l).1

/-- A code value to FP32 (R26) on grid g, logarithm in units of 2^-10: the bits, the counts and the flags. An infinite result
sets OF and NX, a rounded subnormal one UF and NX, by R94 (log entry 6). -/
def fpOfLog (v : LVal) : Word × Counts × FpFlags :=
  match v with
  | .zero => (0, Counts.none, 0)
  | .nar => (fpNaN, Counts.none, 0)
  | .num neg l =>
    let n := l / 1024
    let c := cg 10 (l % 1024).toNat
    if 127 < n then (fpInf neg, Counts.oneSat, fpOF ||| fpNX)
    else if -126 ≤ n then (BitVec.ofNat 32 (fpSign neg + ((n + 127).toNat * 2 ^ 23 + (c - 2 ^ 23))), Counts.none, 0)
    else
      let s := n - 23 + 149
      let q := roundTo .ne c 1 s
      (BitVec.ofNat 32 (fpSign neg + q), if q = 0 then Counts.oneFlush else Counts.none,
        if isIntAt c 1 s then 0 else if q < 2 ^ 23 then fpUF ||| fpNX else fpNX)

/-- FP32 to a 32-bit integer with fraction bits fr, rounded to nearest even and clamped (R98). R98 names NV alone: that an inexact
rounding sets NX is the model's choice (DESIGN CHOICE; log entry 55). -/
def fpToInt (fr : Nat) (nanVal : Word) (a : Word) : Word × FpFlags :=
  match fpDecode a with
  | .nan _ => (nanVal, fpNV)
  | .inf neg => (if neg then 0x80000000 else 0x7FFFFFFF, fpNV)
  | .fin neg m =>
    let x := sInt neg m
    let r := roundHE (x * 2 ^ fr) (2 ^ 149)
    if 2 ^ 31 - 1 < r then (0x7FFFFFFF, fpNV)
    else if r < -2 ^ 31 then (0x80000000, fpNV)
    else (BitVec.ofInt 32 r, if r * 2 ^ 149 = x * 2 ^ fr then 0 else fpNX)

/-- A 32-bit integer with fraction bits fr to FP32, rounded to nearest even (R98). -/
def fpOfInt (fr : Nat) (a : Word) : Word × FpFlags := fpRoundInt .ne false a.toInt (-(fr : Int))

/-! ## EXP2 and LOG2 -/

/-- Coefficients c0 to c4 of R148: Chebyshev-node interpolation of 2^f, each the nearest FP32. -/
def expCoef : List Word := [0x3F80001D, 0x3F3166AC, 0x3E776722, 0x3D53F290, 0x3C5FF96F]
/-- Coefficients d0 to d5 of R149: interpolation of log2(1 + t), each the nearest FP32. -/
def logCoef : List Word := [0x378A88FC, 0x3FB882D3, 0xBF34DC4C, 0x3ED1A617, 0xBE3FFD03, 0x3D3025F7]
/-- The degree-3 coefficients of 2^f, toward zero (R151). -/
def expCoefXc : List Word := [0x3F7FF977, 0x3F324257, 0x3E6615F6, 0x3DA1B995]
/-- The degree-3 coefficients of log2(1 + t), toward zero (R151). -/
def logCoefXc : List Word := [0x3A5863DF, 0x3FB5341F, 0xBF119696, 0x3E1C5D76]

/-- The exact integer in units of 2^-149 of a finite datum. -/
def fpFix (a : Word) : Int := fpVal (fpDecode a)

/-- p × f + c, rounded once, for an exact f in units of 2^-149: f need not be an FP32 value (R148: "exact"). -/
def fmaExact (p : Word) (f : Int) (c : Word) : Word × FpFlags :=
  fpRoundInt .ne false (fpFix p * f + fpFix c * 2 ^ 149) (-298)

/-- p × f toward zero for an exact f in units of 2^-149 (R151). -/
def mulExactTz (p : Word) (f : Int) : Word × FpFlags := fpRoundInt .tz false (fpFix p * f) (-298)

/-- Horner evaluation, one fused step per coefficient (R148). R97 speaks of the flags of the result alone: that an inexact step sets NX
is the model's choice (DESIGN CHOICE; log entry 55). -/
def hornerFma (f : Int) : List Word → Word × FpFlags
  | [] => (0, 0)
  | [c] => (c, 0)
  | c :: cs =>
    let p := hornerFma f cs
    let r := fmaExact p.1 f c
    (r.1, p.2 ||| r.2)

/-- Horner evaluation, one multiply and one add per step, each toward zero (R151). -/
def hornerXc (f : Int) : List Word → Word × FpFlags
  | [] => (0, 0)
  | [c] => (c, 0)
  | c :: cs =>
    let p := hornerXc f cs
    let m := mulExactTz p.1 f
    let r := fpAdd .tz m.1 c
    (r.1, p.2 ||| m.2 ||| r.2)

/-- A positive FP32 scaled by 2^n, rounded in a direction; overflow gives infinity with OF (R97). -/
def fpScale (md : RMode) (p : Word) (n : Int) : Word × FpFlags :=
  match fpDecode p with
  | .fin neg m =>
    let r := fpRound md neg m 1 (n - 149)
    if (r.2 &&& fpOF) = 0 then r else (fpInf neg, r.2)
  | _ => (p, 0)

/-- Whether a value scaled by 2^n, as if the exponent range were unbounded, is below 2^-126 (R94). -/
def fpTiny (p : Word) (n : Int) : Bool :=
  match fpDecode p with
  | .fin _ m => decide (m ≠ 0) && decide (floorLog2 m 1 + (n - 149) < -126)
  | _ => false

/-- The flags of a polynomial's result scaled by 2^n: of its steps only NX counts, and UF goes by the result (R94). -/
def fpPolyFlags (p : Word × FpFlags) (n : Int) (last : FpFlags) : FpFlags :=
  last ||| (p.2 &&& fpNX) ||| (if fpTiny p.1 n && decide ((last ||| p.2) &&& fpNX ≠ 0) then fpUF else 0)

/-- EXP2.F (R97, R148, R151). -/
def fpExp2 (xc : Bool) (a : Word) : Word × FpFlags :=
  match fpDecode a with
  | .nan sg => (fpNaN, if sg then fpNV else 0)
  | .inf neg => if neg then (0, 0) else (fpInf false, 0)
  | .fin neg m =>
    let x := sInt neg m
    let n := x / (2 ^ 149 : Int)
    let f := x % (2 ^ 149 : Int)
    let md := if xc then RMode.tz else RMode.ne
    -- far beyond the range the exact power is not formed: the rounded result is the same
    let nc := max (-1000) (min 1000 n)
    if f = 0 then fpScale md 0x3F800000 nc
    else
      let p := if xc then hornerXc f expCoefXc else hornerFma f expCoef
      let r := fpScale md p.1 nc
      (r.1, fpPolyFlags p nc r.2)

/-- LOG2.F (R97, R149, R151). -/
def fpLog2 (xc : Bool) (a : Word) : Word × FpFlags :=
  match fpDecode a with
  | .nan sg => (fpNaN, if sg then fpNV else 0)
  | .inf neg => if neg then fpInvalid else (fpInf false, 0)
  | .fin neg m =>
    if m = 0 then (fpInf true, 0)
    else if neg then fpInvalid
    else
      let lg := Nat.log2 m
      let e : Int := (lg : Int) - 149
      let md := if xc then RMode.tz else RMode.ne
      let ew := fpRoundInt md false e 0
      if m = 2 ^ lg then ew
      else
        let t : Int := (((m - 2 ^ lg) * 2 ^ 149 / 2 ^ lg : Nat) : Int)
        let p := if xc then hornerXc t logCoefXc else hornerFma t logCoef
        let r := fpAdd md ew.1 p.1
        (r.1, r.2 ||| (p.2 &&& fpNX))

end Sys2Proof.Machine
end

