-- ==== Sys2Proof/Machine/Ecc.lean ====
section
/-! DEFINITION. The two memory codes of the stacks: the inner code of R260, and the Reed-Solomon code of R261 to R266 over
GF(2^8), decoded from the error pattern of a burst (the code is linear, so what is delivered differs from what was written by
the errors that decoding leaves). -/

namespace Sys2Proof.Machine

/-- Multiplication by x in GF(2^8) with x^8 + x^4 + x^3 + x^2 + 1 (R261). -/
def gfX (a : Nat) : Nat := let b := 2 * a; if 256 ≤ b then Nat.xor (b - 256) 0x1D else b

/-- Product, bit by bit of the second factor. -/
def gfMulN : Nat → Nat → Nat → Nat
  | 0, _, _ => 0
  | n + 1, a, b => Nat.xor (if b % 2 = 1 then a else 0) (gfMulN n (gfX a) (b / 2))

def gfMul (a b : Nat) : Nat := gfMulN 8 a b

def gfPow (a : Nat) : Nat → Nat
  | 0 => 1
  | n + 1 => gfMul (gfPow a n) a

/-- Inverse: a^254. -/
def gfInv (a : Nat) : Nat := gfPow a 254

/-- The locator of symbol i: it is the coefficient of x^(71 - i) (R261). -/
def gfLoc (i : Nat) : Nat := gfPow 2 (71 - i)

/-- Syndromes 0 to 7 of an error pattern. -/
def rsSyndromes (e : List (Nat × Byte)) : List Nat :=
  (List.range 8).map (fun j => e.foldl (fun a p => Nat.xor a (gfMul p.2.toNat (gfPow (gfLoc p.1) j))) 0)

/-- One row minus a multiple of another. -/
def gfRowSub (r p : List Nat) (f : Nat) : List Nat := List.zipWith (fun a b => Nat.xor a (gfMul f b)) r p

/-- Gaussian elimination on rows that end in their right-hand side: reduced pivot rows, and the rows left over. -/
def gfElim : Nat → Nat → List (List Nat) → List (List Nat) → Option (List (List Nat) × List (List Nat))
  | 0, _, done, rows => some (done, rows)
  | n + 1, col, done, rows =>
    match rows.find? (fun r => r.getD col 0 ≠ 0) with
    | none => none
    | some p =>
      let rest := rows.erase p
      let pn := p.map (gfMul (gfInv (p.getD col 0)))
      let clear := fun (r : List Nat) => gfRowSub r pn (r.getD col 0)
      gfElim n (col + 1) (done.map clear ++ [pn]) (rest.map clear)

/-- The unique solution of a system in n unknowns, if it is consistent. -/
def gfSolve (n : Nat) (rows : List (List Nat)) : Option (List Nat) :=
  match gfElim n 0 [] rows with
  | none => none
  | some (done, rest) => if rest.all (fun r => r.getD n 0 = 0) then some (done.map (fun r => r.getD n 0)) else none

/-- Error values at given positions that explain the syndromes. -/
def rsValues (syn : List Nat) (ps : List Nat) : Option (List (Nat × Byte)) :=
  match gfSolve ps.length ((List.range 8).map (fun j => ps.map (fun p => gfPow (gfLoc p) j) ++ [syn.getD j 0])) with
  | none => none
  | some vs => some ((ps.zip vs).map (fun pv => (pv.1, BitVec.ofNat 8 pv.2)))

/-- Error positions for v errors: the locator polynomial of the syndromes, and its roots among the 72 symbols. -/
def rsPositions (syn : List Nat) (v : Nat) : Option (List Nat) :=
  match gfSolve v ((List.range (8 - v)).map (fun j =>
      (List.range v).map (fun k => syn.getD (j + v - 1 - k) 0) ++ [syn.getD (j + v) 0])) with
  | none => none
  | some lam =>
    -- X^v = sum of lam_k X^(v-1-k) at every locator
    let ps := (List.range 72).filter (fun i =>
      let x := gfLoc i
      gfPow x v = (List.range v).foldl (fun a k => Nat.xor a (gfMul (lam.getD k 0) (gfPow x (v - 1 - k)))) 0)
    if ps.length = v then some ps else none

/-- Decoding without erasures: up to four symbol errors (R263). -/
def rsDecode0 (syn : List Nat) : Option (List (Nat × Byte)) :=
  [1, 2, 3, 4].findSome? (fun v =>
    match rsPositions syn v with
    | none => none
    | some ps => rsValues syn ps)

/-- Decoding with one pin erased: its four symbols and at most one further error (R265). -/
def rsDecode1 (syn : List Nat) (er : List Nat) : Option (List (Nat × Byte)) :=
  match rsValues syn er with
  | some e => some e
  | none => ((List.range 72).filter (fun i => !er.contains i)).findSome? (fun p => rsValues syn (er ++ [p]))

/-- What reading a burst gives: none where it is uncorrectable, else the corrected error pattern (R263, R265, R266). The lost
pins are given by number, 0 to 15 DQ and 16, 17 CB. -/
def rsDecode (lost : List Nat) (e : List (Nat × Byte)) : Option (List (Nat × Byte)) :=
  let er := lost.flatMap (fun p => [4 * p, 4 * p + 1, 4 * p + 2, 4 * p + 3])
  let syn := rsSyndromes e
  match lost with
  | [] => if syn.all (fun x => decide (x = 0)) then some [] else rsDecode0 syn
  | [_] => rsDecode1 syn er
  | [_, _] => rsValues syn er
  | _ => none

/-- The error of a symbol in a pattern. -/
def symErr (e : List (Nat × Byte)) (i : Nat) : Byte := e.foldl (fun a p => if p.1 = i then a ^^^ p.2 else a) 0

/-- The wrong bits of internal word g: beats 8g to 8g + 7 of DQ0 to DQ15 (R260). -/
def innerWord (e : List (Nat × Byte)) (g : Nat) : Nat :=
  (List.range 16).foldl (fun a p => a + (symErr e (4 * p + g)).toNat * 2 ^ (8 * p)) 0

/-- The wrong CB bits of a burst: its half of the word that it shares (R260). -/
def cbHalf (e : List (Nat × Byte)) : Nat := (List.range 8).foldl (fun a i => a + (symErr e (64 + i)).toNat * 2 ^ (8 * i)) 0

/-- The number of set bits among 128. -/
def popcount128 (x : Nat) : Nat := (List.range 128).countP (fun i => x.testBit i)

/-- The inner code on the wrong bits of one word (R260): a single one is corrected; two or more stay, or a further bit is flipped,
as the die's code has it (log entry 47). The wrong bits delivered, and whether a correction is flagged. -/
def innerFix (w : Nat) : Nat × Bool :=
  if w = 0 then (0, false)
  else if popcount128 w = 1 then (0, true)
  else
    let v := Config.innerFlip w
    if 136 ≤ v then (w, false)
    else if 128 ≤ v then (w, true)
    else if popcount128 w = 2 && w.testBit v then (w, false)
    else (Nat.xor w (2 ^ v), true)

/-- The inner code on a burst, with the burst that shares the word of its CB bits and whether it is the odd one of the two: the
errors left, and the corrections flagged (R260). -/
def innerDecode (odd : Bool) (e other : List (Nat × Byte)) : List (Nat × Byte) × Nat :=
  let ws := (List.range 4).map (fun g => innerFix (innerWord e g))
  let cb := innerFix (if odd then cbHalf other + 2 ^ 64 * cbHalf e else cbHalf e + 2 ^ 64 * cbHalf other)
  let half := if odd then cb.1 / 2 ^ 64 else cb.1 % 2 ^ 64
  let data := (List.range 64).map (fun i => (i, BitVec.ofNat 8 (((ws.getD (i % 4) (0, false)).1) / 2 ^ (8 * (i / 4)))))
  let check := (List.range 8).map (fun i => (64 + i, BitVec.ofNat 8 (half / 2 ^ (8 * i))))
  ((data ++ check).filter (fun p => decide (p.2 ≠ 0)), ws.countP (fun x => x.2) + (if half = cbHalf e then 0 else 1))

end Sys2Proof.Machine
end

