-- ==== Sys2Proof/Machine/Mem.lean ====
section
/-! DEFINITION. The memories below the apertures: SRAM words with their code (R70, R275), stack bursts with theirs (R257 to
R269), frames and their owners (R280, R281), page-table entries (R283), allocation (R285), read epochs (R290, R291) and
shadows (R360 to R367). -/

namespace Sys2Proof.Machine

/-! ## SRAM -/

/-- The SRAM arrays whose bytes are addressed. -/
inductive Sram where
  | store
  | local
  | scache
  deriving DecidableEq, Repr

/-- The bytes of an array. -/
def State.sram (s : State) : Sram → Mem
  | .store => s.stores
  | .local => s.locals
  | .scache => s.scache

def State.setSram (s : State) : Sram → Mem → State
  | .store, m => { s with stores := m }
  | .local, m => { s with locals := m }
  | .scache, m => { s with scache := m }

/-- The key of a 64-bit word in the table of SRAM errors. -/
def sramKey : Sram → Nat → Nat
  | .store, a => a / 8
  | .local, a => 2 ^ 32 + a / 8
  | .scache, a => 2 ^ 33 + a / 8

/-- The key of a word of the Till SRAM (R70, R209): each element takes a word of its own; element e of slot i of cell c. -/
def tillKey (c i e : Nat) : Nat := 2 ^ 34 + 131072 * c + 16384 * i + e

/-- The error mark of the word that holds an address: 0 none, 1 single-bit, 2 double-bit. -/
def State.sramMark (s : State) (r : Sram) (a : Nat) : Nat := Tab.get (fun _ => 0) s.sramErr (sramKey r a)

/-- Counting into a counter of R73, which changes only while its cell is unfenced (R74). -/
def State.bumpCell (s : State) (f : Field) (c : Nat) (n : Nat := 1) : State := if s.fenced c then s else s.bump f c 0 n

/-- The counter of corrected SRAM errors of the word at an address (R73, R275); local memories count in their cell. -/
def State.sramCount (s : State) (r : Sram) (a n : Nat) : State :=
  match r with
  | .store => s.bumpCell Fd.cellSramCeCnt (a / 2 ^ 21) n
  | .local => s.bumpCell Fd.cellSramCeCnt (tkCell (a / 2 ^ 15)) n
  | .scache => s.bump Fd.scacheSramCeCnt 0 0 n

/-- Noting an uncorrectable SRAM word for the health monitor (R378). -/
def State.noteSramUe (s : State) : State := { s with clk := { s.clk with sramUe := true } }

/-- Reading words of a slot of the Till SRAM (R70): whether one had a double-bit error; single-bit errors are counted. -/
def State.tillRead (s : State) (c i : Nat) (es : List Nat) : Bool × State :=
  if s.sramErr = [] then (false, s)
  else
    let marks := es.map (fun e => Tab.get (fun _ => 0) s.sramErr (tillKey c i e))
    let ce := marks.countP (· = 1)
    let bad := marks.any (fun x => decide (2 ≤ x))
    let z := if ce = 0 then s else s.bumpCell Fd.cellSramCeCnt c ce
    (bad, if bad then z.noteSramUe else z)

/-- Writing words of a slot whole: their marks go (R70). -/
def State.tillWrite (s : State) (c i : Nat) (es : List Nat) : State :=
  if s.sramErr = [] then s
  else { s with sramErr := es.foldl (fun t e => Tab.set (fun _ => 0) t (tillKey c i e) 0) s.sramErr }

/-- Reading bytes of an SRAM array by their flat addresses: single-bit errors are corrected and counted once for each word, a
double-bit error is reported (R70). -/
def State.sramRead (s : State) (r : Sram) (as : List Nat) : List Byte × Bool × State :=
  let marks := ((as.map (· / 8)).eraseDups).map (fun w => s.sramMark r (8 * w))
  let ce := marks.countP (· = 1)
  let bad := marks.any (fun x => decide (2 ≤ x))
  let z := if ce = 0 then s else s.sramCount r (as.headD 0) ce
  (as.map (Mem.get (s.sram r)), bad, if bad then z.noteSramUe else z)

/-- Writing bytes of one 64-bit word: a write that covers it clears its mark; a partial write of a word with a double-bit error
is discarded and reported (R70). -/
def State.sramWriteWord (s : State) (r : Sram) (as : List (Nat × Byte)) : Bool × State :=
  let w := (as.headD (0, 0)).1
  let whole := decide (as.length = 8)
  if !whole && decide (2 ≤ s.sramMark r w) then (true, s.noteSramUe)
  else
    let s1 := if !whole && s.sramMark r w = 1 then s.sramCount r w 1 else s
    let s2 := if whole then { s1 with sramErr := Tab.set (fun _ => 0) s1.sramErr (sramKey r w) 0 } else s1
    (false, s2.setSram r (as.foldl (fun m ab => Mem.set m ab.1 ab.2) (s2.sram r)))

/-- Splitting a list of addressed bytes where the 64-bit word changes. -/
def splitWords : List (Nat × Byte) → List (List (Nat × Byte))
  | [] => []
  | x :: xs =>
    match splitWords xs with
    | [] => [[x]]
    | [] :: gs => [x] :: gs
    | (y :: g) :: gs => if x.1 / 8 = y.1 / 8 ∧ x.1 < y.1 then (x :: y :: g) :: gs else [x] :: (y :: g) :: gs

/-- Writing addressed bytes word by word, stopping at the first that is refused. -/
def State.sramWriteWords (s : State) (r : Sram) : List (List (Nat × Byte)) → Bool × State
  | [] => (false, s)
  | g :: gs =>
    let x := s.sramWriteWord r g
    if x.1 then x else State.sramWriteWords x.2 r gs

def State.sramWrite (s : State) (r : Sram) (as : List (Nat × Byte)) : Bool × State :=
  s.sramWriteWords r (splitWords as)

/-- Flat addresses of n bytes from an offset of a cell store, by R69. -/
def storeAddrs (c off n : Nat) : List Nat := (List.range n).map (fun i => c * 2 ^ 21 + (off + i) % 2 ^ 21)

/-- Flat addresses of n bytes from an address of a local memory, by R79. -/
def localAddrs (k off n : Nat) : List Nat := (List.range n).map (fun i => k * 2 ^ 15 + (off + i) % 2 ^ 15)

/-- Whether a run of n bytes from an offset passes the end of the cell store (R69). -/
def wraps (off n : Nat) : Bool := decide (2 ^ 21 < off % 2 ^ 21 + n)

/-- Counting a transfer that wraps (R69). -/
def State.countWrap (s : State) (c off n : Nat) : State := if wraps off n then s.bumpCell Fd.cellWrapCnt c else s

/-- A cell-store read by offset, without the wrap count. -/
def State.storeRead (s : State) (c off n : Nat) : List Byte × Bool × State := s.sramRead .store (storeAddrs c off n)

/-- A cell-store write by offset, without the wrap count. -/
def State.storeWrite (s : State) (c off : Nat) (bs : List Byte) : Bool × State :=
  s.sramWrite .store ((storeAddrs c off bs.length).zip bs)

/-! ## Ranges of a memory -/

/-- A memory with n bytes from a set to zero. -/
def Mem.clearRange (m : Mem) (a n : Nat) : Mem := m.filter (fun e => !(decide (a ≤ e.1) && decide (e.1 < a + n)))

/-- n bytes of one memory from src, written into another from dst. -/
def Mem.copyFrom (m from_ : Mem) (src dst n : Nat) : Mem :=
  (from_.filter (fun e => decide (src ≤ e.1) && decide (e.1 < src + n))).foldl
    (fun acc e => Mem.set acc (dst + (e.1 - src)) e.2) (m.clearRange dst n)

/-- Reading n consecutive bytes. -/
def Mem.bytes (m : Mem) (a n : Nat) : List Byte := (List.range n).map (fun i => Mem.get m (a + i))

/-- Writing consecutive bytes. -/
def Mem.setBytes (m : Mem) (a : Nat) : List Byte → Mem
  | [] => m
  | b :: bs => Mem.setBytes (Mem.set m a b) (a + 1) bs

/-! ## Stack bursts -/

/-- Stack, region and channel of a bulk address (R259). -/
def stackOf (a : Nat) : Nat := a / 2 ^ 36
def regionOf (a : Nat) : Nat := bitsOf a 18 16
def channelOf (a : Nat) : Nat := 16 * regionOf a + bitsOf a 9 6

/-- The lost pins of a channel, DQ 0 to 15 and CB 16, 17 (R264). -/
def State.lostPins (s : State) (m c : Nat) : List Nat :=
  (List.range 18).filter (fun p => if p < 16 then s.bitOf Fd.stackLostPinsDq m c p else s.bitOf Fd.stackLostPinsCb m c (p - 16))

/-- The errors of a burst, by bulk address. -/
def State.burstErr (s : State) (a : Nat) : List (Nat × Byte) := Tab.get (fun _ => []) s.stk.bursts (a / 64)

/-- Replacing the errors of a burst. -/
def State.setBurstErr (s : State) (a : Nat) (e : List (Nat × Byte)) : State :=
  { s with stk := { s.stk with bursts := Tab.set (fun _ => []) s.stk.bursts (a / 64) e } }

/-- Whether a burst is the odd one of the two whose CB bits share an internal word (R260): bit 0 of its index is address bit 10. -/
def oddBurst (a : Nat) : Bool := decide (a / 1024 % 2 = 1)

/-- What the decoder makes of a burst as it stands (R260 to R266): the errors after the inner code, the corrections flagged there, and
the corrections of the outer code, none where the burst is uncorrectable. -/
def State.burstFix (s : State) (a : Nat) : List (Nat × Byte) × Nat × Option (List (Nat × Byte)) :=
  let raw := s.burstErr a
  let other := s.burstErr (Nat.xor a 1024)
  if raw = [] ∧ other = [] ∧ s.lostPins (stackOf a) (channelOf a) = [] then ([], 0, some [])
  else
    let inner := innerDecode (oddBurst a) raw other
    (inner.1, inner.2, rsDecode (s.lostPins (stackOf a) (channelOf a)) inner.1)

/-- The errors that decoding leaves in the 64 bytes delivered. -/
def errorsLeft (inner fix : List (Nat × Byte)) : List (Nat × Byte) :=
  (List.range 64).filterMap (fun i =>
    let r := symErr inner i ^^^ symErr fix i
    if r = 0 then none else some (i, r))

/-- n bytes inside one burst as a read delivers them; none where the burst is uncorrectable. -/
def State.burstBytes (s : State) (a n : Nat) : Option (List Byte) :=
  let x := s.burstFix a
  x.2.2.map (fun fix =>
    let left := errorsLeft x.1 fix
    (List.range n).map (fun i => Mem.get s.bulk (a + i) ^^^ symErr left ((a + i) % 64)))

/-! ## Frames and owners -/

/-- What the frame table and the stack controller hold of a frame. -/
def State.frame (s : State) (f : Nat) : FrameInfo := Tab.get (fun _ => FrameInfo.free) s.pool.frames f

def State.setFrame (s : State) (f : Nat) (x : FrameInfo) : State :=
  { s with pool := { s.pool with frames := Tab.set (fun _ => FrameInfo.free) s.pool.frames f x } }

/-- Setting the referenced bit of a frame (R293). -/
def State.refFrame (s : State) (f : Nat) : State :=
  if (s.frame f).refd then s else s.setFrame f { s.frame f with refd := true }

/-- The permissions of a frame tag (R280, R281). -/
def tagPermits (w : Who) (tag : Nat) (write : Bool) : Bool :=
  match w with
  | .clerk => true
  | .pool => true
  | .tenant t => if tag < 16 then decide (tag = t.val) else !write && decide (tag = t.val + 16)
  | .nobody => false

/-- Who accesses, and under what: the issuing cell, the transaction of a command with TXN = 1, and the read epoch a command
took (none: a Tinker, or an operation that completes at once). -/
structure Ctx where
  who : Who
  cell : Option Nat
  txn : Option Nat
  epoch : Option Nat
  /-- The number of the command, for what waits on its behalf. -/
  num : Option Nat
  deriving DecidableEq, Repr

/-- Cell and number of the command that accesses. -/
def Ctx.cmd (x : Ctx) : Option (Nat × Nat) := match x.cell, x.num with
  | some c, some n => some (c, n)
  | _, _ => none

/-- What came of one access: the bytes, a fault, a warning, whether it has to wait, and the state. -/
structure Got where
  bytes : List Byte
  fault : Option Code
  warn : Option Code
  wait : Bool
  st : State
  deriving DecidableEq, Repr

/-- An access that was served. -/
def Got.ok (bs : List Byte) (s : State) : Got := ⟨bs, none, none, false, s⟩

/-- An access that was refused. -/
def Got.bad (c : Code) (s : State) : Got := ⟨[], some c, none, false, s⟩

/-- An access that has to wait. -/
def Got.hold (s : State) : Got := ⟨[], none, none, true, s⟩

/-- A region that is retired (R267). -/
def State.retired (s : State) (a : Nat) : Bool := s.bitOf Fd.stackStateRetired (stackOf a) 0 (regionOf a)

/-! ## Page tables -/

/-- A page-table entry (R283). -/
structure Pte where
  valid : Bool
  res : Nat
  pin : Bool
  cow : Bool
  shadow : Bool
  lost : Bool
  evac : Bool
  age : Nat
  ref : Nat
  owner : Nat
  frame : Nat
  deriving DecidableEq, Repr

/-- The invalid entry: sixteen zero bytes. -/
def Pte.invalid : Pte := ⟨false, 0, false, false, false, false, false, 0, 0, 0, 0⟩

def b2n (b : Bool) : Nat := if b then 1 else 0

/-- The sixteen bytes of an entry. -/
def Pte.encode (p : Pte) : List Byte :=
  leBytes 1 (b2n p.valid + 2 * (p.res % 4) + 8 * b2n p.pin + 16 * b2n p.cow + 32 * b2n p.shadow + 64 * b2n p.lost + 128 * b2n p.evac)
    ++ leBytes 1 p.age ++ leBytes 2 p.ref ++ leBytes 1 (p.owner % 16) ++ leBytes 3 0 ++ leBytes 8 p.frame

/-- The entry that sixteen bytes hold. -/
def Pte.decode (bs : List Byte) : Pte :=
  let b := fieldB bs 0 1
  ⟨b.testBit 0, bitsOf b 2 1, b.testBit 3, b.testBit 4, b.testBit 5, b.testBit 6, b.testBit 7, fieldB bs 1 1, fieldB bs 2 2,
    fieldB bs 4 1 % 16, fieldB bs 8 8⟩

/-- Where the entry of a page lies (R282). -/
def State.pteAddr (s : State) (t tpn : Nat) : Nat := s.fld Fd.poolPtBase 0 t + 16 * tpn

/-- The entry of a page as a read delivers it; one that cannot be read gives none of its fields (R268). -/
def State.pte (s : State) (t tpn : Nat) : Pte :=
  let a := s.pteAddr t tpn
  if s.retired a then Pte.invalid
  else
    match s.burstBytes a 16 with
    | some bs => Pte.decode bs
    | none => Pte.invalid

/-- Whether a page number lies in the tenant's table. -/
def State.inTable (s : State) (t tpn : Nat) : Bool := decide (tpn < s.fld Fd.poolPtEntries 0 t)

/-! ## The pool's figures -/

/-- A region that the pool may allocate in (R285). -/
def State.usable (s : State) (m r : Nat) : Bool :=
  s.bitOf Fd.stackStateInService m 0 r && !s.bitOf Fd.stackStateRetiring m 0 r && !s.bitOf Fd.stackStateRetired m 0 r

/-- A frame that belongs to no tenant and waits for nothing. -/
def State.frameFree (s : State) (f : Nat) : Bool :=
  let t := (s.frame f).tag
  (decide (32 ≤ t) && decide (t ≠ 33))

/-- Every region, stacks and regions ascending. -/
def allRegions : List (Nat × Nat) := (List.range 12).flatMap (fun m => (List.range 8).map (fun r => (m, r)))

/-- The regions that the pool can allocate in. -/
def State.usableRegions (s : State) : List (Nat × Nat) := allRegions.filter (fun x => s.usable x.1 x.2)

/-- Frames of those regions that are not free. -/
def State.busyFrames (s : State) : Nat := s.pool.frames.countP (fun e => !s.frameFree e.1 && s.usable (stackOf (65536 * e.1)) (regionOf (65536 * e.1)))

/-- Pinned pages that wait in retiring regions (R298). -/
def State.retireWait (s : State) : Nat := s.pool.frames.countP (fun e =>
  decide (e.2.tag < 16) && s.bitOf Fd.stackStateRetiring (stackOf (65536 * e.1)) 0 (regionOf (65536 * e.1)) &&
    (let p := s.pte e.2.tag e.2.tpn; p.valid && p.res = 0 && p.frame = 65536 * e.1 && p.pin && p.evac))

/-- Frames of those regions that the pool keeps for its frame table (R280). -/
def State.systemFrames (s : State) : Nat :=
  s.pool.frames.countP (fun e => decide (e.2.tag = 33) && s.usable (stackOf (65536 * e.1)) (regionOf (65536 * e.1)))

/-- CAPACITY, FREE and RETIRE_WAIT follow the regions in service and the frame tags (R266, R298, R305). -/
def State.syncPool (s : State) : State :=
  let n := 131072 * s.usableRegions.length
  ((s.setFld Fd.poolCapacity 0 0 (n - s.systemFrames)).setFld Fd.poolFree 0 0 (n - s.busyFrames)).setFld Fd.poolRetireWait 0 0 s.retireWait

/-! ## Bursts read and written -/

/-- Marking a pin lost: with the second of its channel, the region enters RETIRING, and the pool's
figures follow (R264, R266, R298). -/
def State.markLost (s : State) (m c p : Nat) : State :=
  let s1 := if p < 16 then s.setBit Fd.stackLostPinsDq m c p true else s.setBit Fd.stackLostPinsCb m c (p - 16) true
  if 2 ≤ (s1.lostPins m c).length ∧ !s1.bitOf Fd.stackStateRetired m 0 (c / 16) then
    (s1.setBit Fd.stackStateRetiring m 0 (c / 16) true).syncPool
  else s1

/-- A pin that had two or more corrected symbols in one burst raises its suspect count, which may mark it lost (R264): the
state, and whether a count reached the threshold. -/
def State.suspectPin (s : State) (m c p : Nat) : State × Bool :=
  let key := 18 * (128 * m + c) + p
  let n := satTo 255 (Tab.get (fun _ => 0) s.stk.suspect key + 1)
  let s1 := { s with stk := { s.stk with suspect := Tab.set (fun _ => 0) s.stk.suspect key n } }
  let th := max 1 (s.fld Fd.stackPinThresh m)
  if th ≤ n then (s1.markLost m c p, true) else (s1, false)

/-- Reading one burst from its channel (R260 to R268): the error left in what is delivered, or none where it is uncorrectable;
whether a suspect count reached the threshold; the state with its counts and records. -/
def State.burstRead (s : State) (a : Nat) : Option (List (Nat × Byte)) × Bool × State :=
  let m := stackOf a
  let c := channelOf a
  let lost := s.lostPins m c
  let x := s.burstFix a
  let s1 := if x.2.1 = 0 then s else s.bump Fd.stackInnerCeCnt m 0 x.2.1
  let s2 := if lost = [] then s1 else s1.bump Fd.stackErasureCnt m
  match x.2.2 with
  | none =>
    let b := a / 64 * 64
    (none, false, ((s2.setFld Fd.stackUeAddrAddr m 0 b).setFld Fd.stackUeAddrValid m 0 1).bump Fd.stackUeCnt m)
  | some fix =>
    let fixed := fix.filter (fun p => decide (p.2 ≠ 0))
    if lost = [] ∧ fixed ≠ [] then
      let s3 := s2.bump Fd.stackOuterCeCnt m
      let pins := (List.range 18).filter (fun p => decide (2 ≤ fixed.countP (fun q => q.1 / 4 = p)))
      let r := pins.foldl (fun (x : State × Bool) p => let y := x.1.suspectPin m c p; (y.1, x.2 || y.2)) (s3, false)
      (some (errorsLeft x.1 fix), r.2, r.1)
    else (some (errorsLeft x.1 fix), false, s2)

/-- Reading n bytes inside one burst, after the owner check. -/
def State.bulkGet (s : State) (a n : Nat) : Got :=
  let m := stackOf a
  let s0 := s.refFrame (a / 65536)
  if s.retired a then Got.bad cMemUncorrectable (s0.bump Fd.stackRetiredAccessCnt m)
  else
    match s0.burstRead a with
    | (none, _, s1) => Got.bad cMemUncorrectable s1
    | (some left, hit, s1) =>
      let bs := (List.range n).map (fun i => Mem.get s1.bulk (a + i) ^^^ symErr left ((a + i) % 64))
      ⟨bs, none, if hit then some cMemPinLost else none, false, s1⟩

/-- Writing bytes inside one burst, after the owner check: a partial write is a read-modify-write (R269). -/
def State.bulkPut (s : State) (a : Nat) (bs : List Byte) : Got :=
  let m := stackOf a
  let f := a / 65536
  let s0 := s.refFrame f
  if s.retired a then Got.ok [] (s0.bump Fd.stackRetiredAccessCnt m)
  else
    let s1 := if (s0.frame f).cow then s0.bump Fd.poolCowWriteCnt else s0
    if bs.length = 64 then Got.ok [] ({ s1 with bulk := s1.bulk.setBytes a bs }.setBurstErr a [])
    else
      let s2 := s1.bump Fd.stackRmwCnt m
      match s2.burstRead a with
      | (none, _, s3) => Got.bad cMemUncorrectable s3
      | (some left, hit, s3) =>
        let b := a / 64 * 64
        let base := left.foldl (fun mm e => Mem.set mm (b + e.1) (Mem.get mm (b + e.1) ^^^ e.2)) s3.bulk
        ⟨[], none, if hit then some cMemPinLost else none, false, { s3 with bulk := base.setBytes a bs }.setBurstErr a []⟩

/-! ## Entries and frames as the pool controller reads and writes them -/

/-- Reading an entry: an access to its burst, with all that such a read counts and records (R264 to R268). -/
def State.readPte (s : State) (t tpn : Nat) : Got :=
  let a := s.pteAddr t tpn
  if s.inReset .stack (stackOf a) then Got.bad cLinkDown (s.bump Fd.moduleRstDropCnt) else s.bulkGet a 16

/-- Writing an entry: a write of part of its burst (R269), discarded where the burst cannot be read; an invalid entry is written
zero whole (R283). -/
def State.setPte (s : State) (t tpn : Nat) (p : Pte) : State :=
  (s.bulkPut (s.pteAddr t tpn) (if p.valid then p else Pte.invalid).encode).st

/-- Removing the error marks of a frame that is written whole. -/
def State.clearBursts (s : State) (f : Nat) : State :=
  { s with stk := { s.stk with bursts := s.stk.bursts.filter (fun e => decide (e.1 / 1024 ≠ f)) } }

/-- The bursts of a frame whose reading does more than deliver what was written: they have errors, or the burst that shares their CB
words has, or their channel has lost pins. -/
def State.markedBursts (s : State) (f : Nat) : List Nat :=
  let a := f * 65536
  let chans := (List.range 16).filter (fun c => decide (s.lostPins (stackOf a) (16 * regionOf a + c) ≠ []))
  if s.stk.bursts = [] ∧ chans = [] then []
  else (List.range 1024).filter (fun b => chans.contains (b % 16) || decide (s.burstErr (a + 64 * b) ≠ []) ||
    decide (s.burstErr (Nat.xor (a + 64 * b) 1024) ≠ []))

/-- What reading a whole frame gave: a fault or a warning, the errors in the bytes delivered, by their offset, and the state. -/
structure FrameGot where
  fault : Option Code
  warn : Option Code
  left : List (Nat × Byte)
  st : State
  deriving DecidableEq, Repr

/-- Reading bursts of a frame in ascending order, up to the first that is uncorrectable. -/
def State.readBursts (s : State) (f : Nat) : List Nat → FrameGot
  | [] => ⟨none, none, [], s⟩
  | b :: bs =>
    match s.burstRead (f * 65536 + 64 * b) with
    | (none, _, s1) => ⟨some cMemUncorrectable, none, [], s1⟩
    | (some left, hit, s1) =>
      let r := State.readBursts s1 f bs
      { r with left := left.map (fun e => (64 * b + e.1, e.2)) ++ r.left, warn := if hit then some cMemPinLost else r.warn }

/-- Reading the 64 KiB of a frame by the pool controller (R260 to R268, R293, R438). -/
def State.frameRead (s : State) (f : Nat) : FrameGot :=
  let m := stackOf (f * 65536)
  if s.inReset .stack m then ⟨some cLinkDown, none, [], s.bump Fd.moduleRstDropCnt⟩
  else if s.retired (f * 65536) then ⟨some cMemUncorrectable, none, [], (s.refFrame f).bump Fd.stackRetiredAccessCnt m⟩
  else (s.refFrame f).readBursts f (s.markedBursts f)

/-- Changing bytes of a memory by the errors of a delivered frame. -/
def Mem.flip (m : Mem) (base : Nat) (left : List (Nat × Byte)) : Mem :=
  left.foldl (fun z e => Mem.set z (base + e.1) (Mem.get z (base + e.1) ^^^ e.2)) m

/-- Copying the 64 KiB of one frame into another, as the read delivers them. -/
def State.copyFrame (s : State) (src dst : Nat) : FrameGot :=
  let r := s.frameRead src
  if r.fault.isSome then r
  else
    let m := (r.st.bulk.copyFrom r.st.bulk (src * 65536) (dst * 65536) 65536).flip (dst * 65536) r.left
    { r with st := ({ r.st with bulk := m }.clearBursts dst).refFrame dst }

/-- Filling a frame with zero bytes. -/
def State.zeroFrame (s : State) (f : Nat) : State :=
  ({ s with bulk := s.bulk.clearRange (f * 65536) 65536 }.clearBursts f).refFrame f

/-! ## Read epochs and deferred release -/

/-- The epochs that the tenant's commands and its hosts' operations hold (R290). -/
def State.heldEpochs (s : State) (t : Fin 16) : List Nat :=
  s.cells.flatMap (fun c => c.2.cmds.filterMap (fun k => if k.tenant = some t then some k.epoch else none)) ++
    s.eth.waiting.filterMap (fun w => if w.t = t then some w.epoch else none)

/-- The current epoch of a tenant. -/
def State.epoch (s : State) (t : Fin 16) : Nat := s.fld Fd.poolEpochEpoch 0 t.val

/-- Advancing the epoch unless the bucket of the next one has holders (R291): whether it advanced. -/
def State.advanceEpoch (s : State) (t : Fin 16) : State × Bool :=
  let d := s.epoch t
  if (s.heldEpochs t).any (fun (e : Nat) => decide (e % 64 = (d + 1) % 64)) then (s, false)
  else (s.setFld Fd.poolEpochEpoch 0 t.val (d + 1), true)

/-- Deferred release of a frame (R291): it is stamped, and the epoch advances where it can. -/
def State.stampFrame (s : State) (t : Fin 16) (f : Nat) (keep : Bool) : State :=
  let st : Stamped := ⟨f, t, s.epoch t, keep⟩
  let s1 := { s with pool := { s.pool with stamped := s.pool.stamped ++ [st] } }
  ((s1.setFld Fd.poolEpochPending 0 t.val (s1.fld Fd.poolEpochPending 0 t.val + 1)).advanceEpoch t).1

/-- Whether no running command took an epoch from d - n + 1 to d (R291, R368). -/
def State.drained (s : State) (t : Fin 16) (d n : Nat) : Bool :=
  (s.heldEpochs t).all (fun e => decide (n ≤ (d + 2 ^ 32 - e) % 2 ^ 32))

/-! ## Allocation -/

/-- The lowest free frame of a region, from page group g on. -/
def State.findFree (s : State) (m r : Nat) : Nat → Nat → Option Nat
  | 0, _ => none
  | n + 1, g =>
    let f := m * 2 ^ 20 + g * 8 + r
    if s.frameFree f then some f else State.findFree s m r n (g + 1)

def State.freeIn (s : State) (m r : Nat) : Option Nat := if s.usable m r then s.findFree m r 131072 0 else none

/-- The near regions of a cell: its die row's region of the three stacks beside its die (R258). -/
def nearRegions (c : Nat) : List (Nat × Nat) :=
  let d := c / 64
  let r := c % 64 / 8
  [(3 * d, r), (3 * d + 1, r), (3 * d + 2, r)]

/-- The frame that an allocation takes (R285): the hinted region, the near regions, any region. -/
def State.chooseFrame (s : State) (hint : Option (Nat × Nat)) (c : Option Nat) : Option Nat :=
  let near := match c with
    | some n => nearRegions n
    | none => []
  (hint.toList ++ near ++ allRegions).findSome? (fun mr => s.freeIn mr.1 mr.2)

/-- Pages that eviction may take: unpinned tier-1 data pages that are neither SHADOW nor EVAC (R294). -/
def State.evictable (s : State) : List (Nat × Fin 16 × Nat × Nat) :=
  s.pool.frames.filterMap (fun (e : Nat × FrameInfo) =>
    if h : e.2.tag < 16 then
      let p := s.pte e.2.tag e.2.tpn
      if p.valid && p.res = 0 && p.frame = e.1 * 65536 && !p.pin && !p.shadow && !p.evac then
        some (e.1, (⟨e.2.tag, h⟩ : Fin 16), e.2.tpn, p.age)
      else none
    else none)

/-- The page that eviction takes: the largest age, then the lower tenant, then the lower page (R294). -/
def State.victim (s : State) : Option (Nat × Fin 16 × Nat × Nat) :=
  s.evictable.foldl (fun (b : Option (Nat × Fin 16 × Nat × Nat)) x =>
    match b with
    | none => some x
    | some y =>
      if y.2.2.2 < x.2.2.2 ∨ (y.2.2.2 = x.2.2.2 ∧ (x.2.1 < y.2.1 ∨ (x.2.1 = y.2.1 ∧ x.2.2.1 < y.2.2.1))) then some x else some y) none

/-- Free logical pages of the flash, beside those that are being written: whether a page can be written (R297, R304). -/
def State.flashRoom (s : State) : Bool :=
  decide (s.fld Fd.flashInUse + s.flash.ops.countP (fun o => o.write) < s.fld Fd.flashCapacity)

/-- The lowest logical page that is not mapped. -/
def State.freeLpn (s : State) : Nat := ((List.range (s.flash.map.length + 1)).find?
  (fun n => (Tab.get (fun _ => none) s.flash.map n).isNone && s.flash.ops.all (fun o => decide (o.lpn ≠ n) || !o.write))).getD 0

/-- An access to the flash controller while it is in reset: dropped and counted (R438). -/
def State.flashDropped (s : State) : State := s.bump Fd.moduleRstDropCnt

/-- Beginning the write of a page to flash (R288), with its purpose: RES = 2 while it runs. -/
def State.startDemote (s : State) (purpose : Nat) (cmd : Option (Nat × Nat)) (t : Fin 16) (tpn : Nat) : State :=
  let p := s.pte t.val tpn
  let lpn := s.freeLpn
  let s1 := s.setPte t.val tpn { p with res := 2, frame := lpn }
  { s1 with flash := { s1.flash with ops := s1.flash.ops ++ [⟨true, purpose, cmd, t, tpn, lpn, p.frame / 65536, 0, none⟩] } }

/-- What an allocation gives: a frame, a wait for one, or exhaustion (R294, R297). -/
inductive AllocRes where
  | got (f : Nat)
  | wait
  | none
  deriving DecidableEq, Repr

/-- Whether a waiting allocation is still wanted: its command has not ended, or a host's operation waits for it. -/
def State.stillWaits (s : State) (x : AllocWait) : Bool :=
  match x.cmd with
  | some cn => (s.cell cn.1).cmds.any (fun k => decide (k.num = cn.2) && !k.finished)
  | none => s.eth.waiting.any (fun w => decide (w.t = x.t))

/-- The waiting allocations that come before that of a page: they take the frames that are released first (R294). -/
def State.allocAhead (s : State) (t : Fin 16) (tpn : Nat) : Nat :=
  (s.pool.waiters.takeWhile (fun x => !(decide (x.t = t) && decide (x.tpn = tpn)))).countP s.stillWaits

/-- An allocation waits no longer. -/
def State.leaveWait (s : State) (t : Fin 16) (tpn : Nat) : State :=
  { s with pool := { s.pool with waiters := s.pool.waiters.filter (fun x => !(decide (x.t = t) && decide (x.tpn = tpn))) } }

/-- An allocation waits for the frame that an eviction vacates, in the place that it already has. -/
def State.joinWait (s : State) (x : AllocWait) : State :=
  let same := fun (y : AllocWait) => decide (y.t = x.t) && decide (y.tpn = x.tpn)
  let l := s.pool.waiters
  let l' := if l.any same then l.map (fun y => if same y then x else y) else l ++ [x]
  { s with pool := { s.pool with waiters := l' } }

/-- Whether a frame that an eviction vacates is still on its way: its page is being written, or the frame awaits release. -/
def State.leaving (s : State) (f : Nat) : Bool :=
  s.flash.ops.any (fun o => o.write && decide (o.frame = f)) || s.pool.stamped.any (fun x => decide (x.frame = f))

/-- Allocating a frame for a page (R285, R294, R297): a free one that no earlier waiter takes; else a page is evicted and the
allocation waits; with no page to evict, or no flash room for one, it fails. -/
def State.alloc (s : State) (t : Fin 16) (tpn : Nat) (cmd : Option (Nat × Nat)) (hint : Option (Nat × Nat)) (c : Option Nat) :
    AllocRes × State :=
  let ahead := s.allocAhead t tpn
  match s.chooseFrame hint c, decide (ahead = 0 ∨ ahead < s.fld Fd.poolFree) with
  | some f, true => (.got f, (s.leaveWait t tpn).setFld Fd.poolFree 0 0 (s.fld Fd.poolFree - 1))
  | _, _ =>
    if s.pool.waiters.any (fun x => decide (x.t = t) && decide (x.tpn = tpn) && s.leaving x.victim) then (.wait, s)
    else
      match s.victim with
      | some (g, u, page, _) =>
        if !s.flashRoom then (.none, s.leaveWait t tpn)
        else if s.inReset .flash 0 then (.wait, s.flashDropped)
        else (.wait, (s.startDemote 4 none u page).joinWait ⟨t, tpn, cmd, g⟩)
      | none => (.none, s.leaveWait t tpn)

/-- Giving a frame to a data page, zero-filled unless its bytes are the tenant's own (R280, R285). -/
def State.takeFrame (s : State) (t : Fin 16) (tpn f : Nat) (zero : Bool) : State × Bool :=
  let fill := zero || decide ((s.frame f).tag ≠ 48 + t.val)
  let s1 := if fill then s.zeroFrame f else s
  (s1.setFrame f ⟨t.val, false, (s1.frame f).refd, tpn⟩, fill)

/-- The frame of a page goes back at once, as where a fault-in fails (R303). -/
def State.dropFrame (s : State) (f : Nat) : State := (s.setFrame f FrameInfo.free).syncPool

/-- What a page operation gives: done, a fault, or a wait. -/
inductive PageRes where
  | ok
  | fault (c : Code)
  | wait
  deriving DecidableEq, Repr

/-- Bringing a page on tier 2 into a frame (R285, R303): the read starts, and the page waits for it. -/
def State.faultIn (s : State) (cmd : Option (Nat × Nat)) (c : Option Nat) (hint : Option (Nat × Nat)) (t : Fin 16) (tpn : Nat) :
    PageRes × State :=
  let p := s.pte t.val tpn
  if p.res = 0 then (.ok, s)
  else if p.res = 2 then (.wait, s)
  else if p.lost then (.fault cFlashReadFail, s)
  else if s.inReset .flash 0 then (.fault cLinkDown, s.flashDropped)
  else
    match s.alloc t tpn cmd hint c with
    | (.none, s1) => (.fault cPoolExhausted, s1)
    | (.wait, s1) => (.wait, s1)
    | (.got f, s1) =>
      let s2 := s1.setFrame f ⟨t.val, p.cow, (s1.frame f).refd, tpn⟩
      let s3 := s2.setPte t.val tpn { p with res := 2, frame := f * 65536 }
      (.wait, { s3 with flash := { s3.flash with ops := s3.flash.ops ++ [⟨false, 0, cmd, t, tpn, p.frame, f, 0, none⟩] } })

/-- Whether a copy from flash serves a PAGE_COW that reserved its pin (R296). -/
def State.cowPins (s : State) (o : FlashOp) : Bool :=
  match o.cmd with
  | some cn => (s.cell cn.1).cmds.any (fun k => decide (k.num = cn.2) && decide (fieldB k.desc 24 1 % 2 = 1))
  | none => false

/-- Counting pinned pages and shadows (R296). -/
def State.addPinned (s : State) (t : Fin 16) (d : Int) : State :=
  s.setFld Fd.poolPinLimitPinned 0 t.val ((s.fld Fd.poolPinLimitPinned 0 t.val : Int) + d).toNat

/-- A flash operation that moves a page between tiers ends without having moved it: the entry is as before. -/
def State.undoFlash (s : State) (o : FlashOp) (lost : Bool) : State :=
  let p := s.pte o.t.val o.tpn
  if o.write then s.setPte o.t.val o.tpn { p with res := 0, frame := o.frame * 65536 }
  else if o.purpose = 0 then (s.setPte o.t.val o.tpn { p with res := 1, frame := o.lpn, lost := lost }).dropFrame o.frame
  else if o.purpose = 1 then
    let s1 := (s.setPte o.t.val o.tpn { p with lost := lost }).dropFrame o.frame
    if s.cowPins o then s1.addPinned o.t (-1) else s1
  else if o.purpose = 2 then s.setPte o.t.val o.tpn { p with lost := lost }
  else s

/-! ## Transactions and shadows -/

/-- The slot of a tenant's transaction that is not closed (R358, R392): OPEN, DOOMED or IN_DOUBT. -/
def State.txnSlot (s : State) (t : Fin 16) (id : Nat) : Option Nat :=
  (List.range 8).find? (fun k => decide (s.fld Fd.poolTxnSlotState 0 (8 * t.val + k) ∈ [1, 2, 3]) &&
    decide (s.fld Fd.poolTxnSlotId 0 (8 * t.val + k) = id))

/-- A state of TXN_SLOT: 0 free, 1 OPEN, 2 DOOMED, 3 IN_DOUBT, 4 closing (R392). -/
def State.txnState (s : State) (t : Fin 16) (k : Nat) : Nat := s.fld Fd.poolTxnSlotState 0 (8 * t.val + k)

def State.setTxnState (s : State) (t : Fin 16) (k v : Nat) : State := s.setFld Fd.poolTxnSlotState 0 (8 * t.val + k) v

/-- Dooming a transaction that is open (R358, R363). -/
def State.doom (s : State) (t : Fin 16) (id : Nat) : State :=
  match s.txnSlot t id with
  | some k => if s.txnState t k = 1 then s.setTxnState t k 2 else s
  | none => s

/-- Pinned pages and shadows a tenant may still add (R296). -/
def State.pinRoom (s : State) (t : Fin 16) : Bool :=
  decide (s.fld Fd.poolPinLimitPinned 0 t.val < s.fld Fd.poolPinLimitLimit 0 t.val)

/-- Making a shadow of a page (R359 to R361), with the checks that refuse a write to the page; its frame is chosen for the cell of
the command (R285, R360). -/
def State.makeShadow (s : State) (x : Ctx) (t : Fin 16) (slot tpn : Nat) : PageRes × State :=
  let r := s.readPte t.val tpn
  let s := r.st
  let p := s.pte t.val tpn
  if r.fault.isSome then (.fault (r.fault.getD cOK), s)
  else if !s.inTable t.val tpn || !p.valid then (.fault cPageOwner, s)
  else if 2 ≤ p.ref then (.fault cPageOwner, s)
  else
    match s.pool.shadows.find? (fun y => decide (y.t = t) && decide (y.tpn = tpn)) with
    | some y =>
      if y.flip.isSome then (.wait, s)
      else if y.slot = slot then (.ok, s) else (.fault cTxnAbort, s)
    | none =>
      if 65536 ≤ s.fld Fd.poolTxnSlotShadows 0 (8 * t.val + slot) then (.fault cTxnFootprint, s)
      else if !s.pinRoom t then (.fault cPoolExhausted, s)
      else
        match s.faultIn x.cmd x.cell none t tpn with
        | (.ok, s1) =>
          match s1.alloc t tpn x.cmd (some (stackOf p.frame, regionOf p.frame)) x.cell with
          | (.none, s2) => (.fault cPoolExhausted, s2)
          | (.wait, s2) => (.wait, s2)
          | (.got g, s2) =>
            let f := p.frame / 65536
            let c := (s2.setFrame g ⟨t.val, false, (s2.frame g).refd, tpn⟩).copyFrame f g
            match c.fault with
            | some e => (.fault e, c.st.dropFrame g)
            | none =>
              let s4 := (c.st.setPte t.val tpn { p with shadow := true }).addPinned t 1
              let s5 := s4.setFld Fd.poolTxnSlotShadows 0 (8 * t.val + slot) (s4.fld Fd.poolTxnSlotShadows 0 (8 * t.val + slot) + 1)
              (.ok, { s5 with pool := { s5.pool with shadows := s5.pool.shadows ++ [⟨t, slot, tpn, f, g, none⟩] } })
        | r => r

/-- An epoch taken at or after another (R367), on the wrapping 32-bit count. -/
def epochAtLeast (e c : Nat) : Bool := decide ((e + 2 ^ 32 - c) % 2 ^ 32 < 2 ^ 31)

/-- Where an access to a frame goes. -/
inductive Route where
  | to (f : Nat)
  | refuse (c : Code)
  | wait
  deriving DecidableEq, Repr

/-- The frame that serves a read outside the page's transaction: after the flip the new one, but for a command that took its epoch
before (R367). -/
def Shadow.readBy (h : Shadow) (x : Ctx) : Nat :=
  match h.flip with
  | none => h.frame
  | some c => if (x.epoch.map (fun e => epochAtLeast e c)).getD true then h.shadow else h.frame

/-- The frame that serves an access (R361, R362, R367, R370), once the tag permits it. -/
def State.route (s : State) (x : Ctx) (f : Nat) (write : Bool) : Route × State :=
  let sh := s.pool.shadows.find? (fun h => decide (h.frame = f))
  let plain := match sh with
    | some h => h.readBy x
    | none => f
  let mine := match x.who, x.txn with
    | .tenant t, some id => if (s.frame f).tag = t.val then some (t, id) else none
    | _, _ => none
  match mine with
  | none => (.to plain, s)
  | some (t, id) =>
    match s.txnSlot t id with
    | none =>
      -- the transaction has been aborted under a command still running (R370)
      if write then (.refuse cTxnAbort, s.bump Fd.poolTxnLateWriteCnt)
      else (.to plain, s)
    | some k =>
      match sh with
      | some h =>
        match h.flip with
        | some c =>
          if write && (x.epoch.map (fun e => epochAtLeast e c)).getD true then (.wait, s)
          else if write then (.to f, s)
          else (.to plain, s)
        | none =>
          if h.slot = k then (.to h.shadow, s)
          else if write then (.refuse cTxnAbort, s.doom t id) else (.to f, s)
      | none =>
        if !write then (.to f, s)
        else
          -- a frame that is itself a shadow, addressed by its own address, is written as it is
          if s.pool.shadows.any (fun h => decide (h.shadow = f)) then (.to f, s)
          else
            match s.makeShadow x t k (s.frame f).tpn with
            | (.ok, s1) =>
              (match s1.pool.shadows.find? (fun h => decide (h.frame = f)) with
                | some h => (.to h.shadow, s1)
                | none => (.to f, s1))
            | (.wait, s1) => (.wait, s1)
            | (.fault c, s1) => (.refuse c, s1.doom t id)

/-! ## Bulk access -/

/-- A bulk access inside one burst: owner check (R281), route (R361 to R367), reset of the stack (R438), then the burst. -/
def State.bulkAccess (s : State) (x : Ctx) (a : Nat) (w : Option (List Byte)) (n : Nat) : Got :=
  let f := a / 65536
  if !tagPermits x.who (s.frame f).tag w.isSome then
    match x.who with
    | .tenant t =>
      if w.isSome && decide ((s.frame f).tag = t.val + 16) then Got.ok [] (s.bump Fd.poolPtWriteDropCnt)
      else Got.bad cPageOwner (s.bump Fd.poolOwnerFaultCnt)
    | _ => Got.bad cPageOwner (s.bump Fd.poolOwnerFaultCnt)
  else
    match s.route x f w.isSome with
    | (.wait, s1) => Got.hold s1
    | (.refuse c, s1) => Got.bad c s1
    | (.to g, s1) =>
      let b := g * 65536 + a % 65536
      if s1.inReset .stack (stackOf b) then Got.bad cLinkDown (s1.bump Fd.moduleRstDropCnt)
      else match w with
      | none => s1.bulkGet b n
      | some bs => s1.bulkPut b bs

end Sys2Proof.Machine
end

