-- ==== Sys2Proof/Machine/Queue.lean ====
section
/-! DEFINITION. Stream queues: descriptors (R111, R112), appending (R106), CANCEL at its appending (R141, R142), and records
(R116 to R119). -/

namespace Sys2Proof.Machine

/-! ## Descriptor fields -/

def Cmd.u (k : Cmd) (o n : Nat) : Nat := fieldB k.desc o n
def Cmd.i (k : Cmd) (o n : Nat) : Int := toSigned (8 * n) (fieldB k.desc o n)
/-- A global address field: bits [63:48] are ignored (R128). -/
def Cmd.addr (k : Cmd) (o : Nat) : Nat := fieldB k.desc o 8 % 2 ^ 48
def Cmd.bit (k : Cmd) (o b : Nat) : Bool := (fieldB k.desc o 1).testBit b
def Cmd.opcode (k : Cmd) : Nat := k.u 0 2
def Cmd.chain (k : Cmd) : Bool := k.bit 3 0
def Cmd.strict (k : Cmd) : Bool := k.bit 3 1
/-- TXN; page commands and TIER_MOVE ignore it (R364), and the transaction commands act whatever it is (R358). -/
def Cmd.txn (k : Cmd) : Bool := k.bit 3 2 && decide (k.opcode / 256 ≠ 8) && decide (k.opcode ≠ 0x0701 ∧ k.opcode ≠ 0x0702 ∧ k.opcode ≠ 0x0703)
def Cmd.fence (k : Cmd) : Bool := k.bit 3 3
def Cmd.tallyIn (k : Cmd) : Nat := k.u 4 2
def Cmd.tallyOut (k : Cmd) : Nat := k.u 6 2
def Cmd.recordOff (k : Cmd) : Nat := k.u 8 4 / 32 * 32
def Cmd.chanq (k : Cmd) : Nat := k.u 12 2 % 16
def Cmd.txnId (k : Cmd) : Nat := k.u 14 2

/-- The opcodes that R114 assigns. -/
def assignedOpcodes : List Nat :=
  [0x0101, 0x0201, 0x0202, 0x0203, 0x0301, 0x0302, 0x0303, 0x0401, 0x0402, 0x0501, 0x0502, 0x0503,
   0x0601, 0x0602, 0x0603, 0x0604, 0x0605, 0x0701, 0x0702, 0x0703, 0x0704, 0x0801, 0x0802, 0x0803, 0x0804, 0x0F01, 0x0F02]

/-- Commands of the Mill (R71, R115). -/
def isMill (op : Nat) : Bool := [0x0201, 0x0202, 0x0301, 0x0302, 0x0303].contains op

/-- Commands that the pool controller accepts (R289). -/
def isPool (k : Cmd) : Bool :=
  [0x0801, 0x0802, 0x0803, 0x0804, 0x0701, 0x0703].contains k.opcode ||
    (decide (k.opcode = 0x0702) && decide (k.u 32 1 % 4 = 0 ∨ k.u 32 1 % 4 = 2))

/-- Commands that run to completion once started (R142). -/
def runsToEnd (k : Cmd) : Bool :=
  [0x0801, 0x0802, 0x0803, 0x0804, 0x0502, 0x0701, 0x0702, 0x0703, 0x0704].contains k.opcode

/-- Reading a descriptor whole (R112): the header as written, the body to 16 × max(LEN, 1), zeros beyond. -/
def State.readDesc (s : State) (c off : Nat) : List Byte × Bool × State :=
  let h := s.storeRead c off 16
  let n := 16 * max 1 (fieldB h.1 2 1)
  let b := h.2.2.storeRead c (off + 16) (n - 16)
  (h.1 ++ b.1, h.2.1 || b.2.1, b.2.2)

/-! ## Commands of a cell -/

def State.queue (s : State) (c q : Nat) : List QEnt := Tab.get (fun _ => []) (s.cell c).queues q

def State.setQueue (s : State) (c q : Nat) (l : List QEnt) : State :=
  s.onCell c (fun x => { x with queues := Tab.set (fun _ => []) x.queues q l })

/-- A started command by its number. -/
def State.cmd (s : State) (c n : Nat) : Option Cmd := (s.cell c).cmds.find? (fun k => decide (k.num = n))

/-- Replacing a started command. -/
def State.putCmd (s : State) (c : Nat) (k : Cmd) : State :=
  s.onCell c (fun x => { x with cmds := x.cmds.map (fun y => if y.num = k.num then k else y) })

/-- The pointers that a queue holds, of 64 places; successors and removed commands take no place (R106, R136,
R142). -/
def State.queueLoad (s : State) (c q : Nat) : Nat := (s.queue c q).countP (fun e => e.pred.isNone && !e.cancelled)

/-- Whether a queue takes another pointer (R106). -/
def State.queueRoom (s : State) (c q : Nat) : Bool := decide (s.queueLoad c q < 64)

/-- The bytes that a command's outstanding reads hold. -/
def xferBytes (xs : List Xfer) : Nat := xs.foldl (fun a x => a + x.pieces.foldl (fun b p => b + p.2.length) 0) 0

/-- Whether a command takes part in a multicast with a tag. -/
def Cmd.mcTag (k : Cmd) (tag : Nat) : Bool := decide (k.opcode = 0x0201 ∨ k.opcode = 0x0202) && decide (k.u 36 2 = tag)

/-- A member of a die-row multicast withdraws (R65): every other member's command of the same tag notes it; a member whose command
has not started, since no tile has been delivered, finds it when it starts. -/
def State.withdraw (s : State) (c : Nat) (k : Cmd) : State :=
  if k.opcode ≠ 0x0201 ∧ k.opcode ≠ 0x0202 then s
  else
    let tag := k.u 36 2
    let none_ := decide ((Tab.get (fun _ => HandSt.init) k.hand 0).made = 0)
    (List.range 8).foldl (fun z b =>
      let m := c / 8 * 8 + b
      if m = c ∨ !(k.u 34 1).testBit b then z
      else if (z.cell m).cmds.any (fun y => y.mcTag tag) then
        z.onCell m (fun x => { x with cmds := x.cmds.map (fun y =>
          if y.mcTag tag ∧ !y.mcOut.contains c then { y with mcOut := c :: y.mcOut } else y) })
      else if none_ then z.onCell c (fun x => { x with mcGone := (tag, m) :: x.mcGone })
      else z) s

/-- A multicast command that starts takes up the withdrawals made before, and its own cell takes part again (R65). -/
def State.takeWithdrawals (s : State) (c : Nat) (k : Cmd) : State :=
  if k.opcode ≠ 0x0201 ∧ k.opcode ≠ 0x0202 then s
  else
    let tag := k.u 36 2
    let gone := ((List.range 8).map (fun b => c / 8 * 8 + b)).filter (fun m => (s.cell m).mcGone.contains (tag, c))
    if gone = [] then s
    else
      let s1 := gone.foldl (fun z m => z.onCell m (fun x => { x with mcGone := x.mcGone.filter (fun e => decide (e ≠ (tag, c))) })) s
      s1.putCmd c { k with mcOut := gone ++ k.mcOut }

/-- Bytes dropped for a command (R118, R127): also in the record of the CANCEL that stopped it (R143). -/
def State.dropBytes (s : State) (c num n : Nat) : State :=
  let s1 := s.bumpCell Fd.cellDiscardCnt c n
  match (s.cmd c num).bind Cmd.canceller with
  | some m => s1.onCell c (fun x => { x with cmds := x.cmds.map (fun y =>
      if y.num = m then { y with bytes := satTo (2 ^ 48 - 1) (y.bytes + n) } else y) })
  | none => s1

/-- Page adds that a stop drops: those of a TILL_FLUSH that the engine has not taken (R219). -/
def Cmd.addDropped (k : Cmd) (a : TillAdd) : Bool := decide (a.num = k.num) && !a.claimed && decide (k.opcode = 0x0203)

/-- Stopping a started command (R127, R142): its outstanding reads are discarded, a tile that accumulates is abandoned; a command
with tiles in drain or in store goes on until they are stored. With mark the stop is a CANCEL's. The state, and the bytes discarded. -/
def State.stopCmd (s : State) (c : Nat) (k : Cmd) (mark : Bool) : State × Nat :=
  let x := s.cell c
  let mine := x.xfers.filter (fun t => decide (t.num = k.num))
  let writing := mine.filter (fun t => decide (2 ^ 20 ≤ t.unit))
  let n := xferBytes (mine.filter (fun t => decide (t.unit < 2 ^ 20)))
  let bks := x.banks.filter (fun (b : Nat × Option Bank) => match b.2 with
    | some y => decide (y.num ≠ k.num) || y.closed
    | none => false)
  let ords := bks.filterMap (fun (b : Nat × Option Bank) => match b.2 with
    | some y => if y.num = k.num then some (y.ord + 1) else none
    | none => none)
  let opened := x.banks.countP (fun (b : Nat × Option Bank) => match b.2 with
    | some y => decide (y.num = k.num) && !y.closed
    | none => false)
  let adding := x.tillAdds.any (fun a => decide (a.num = k.num) && !k.addDropped a)
  let held := decide (k.opcode = 0x0201) && decide (k.held ≠ [] ∨ k.pieces ≠ [])
  let busy := !ords.isEmpty || adding || held || !k.staged.isEmpty || !writing.isEmpty || decide (k.opcode / 256 = 6)
  let out := (mine.filter (fun t => decide (t.unit < 2 ^ 20))).length
  let k' := { k with
    cancelled := k.cancelled || mark, kdone := true, finished := !busy
    tiles := k.tiles <|> (if k.opcode = 0x0201 then some (ords.foldl max (k.pos - opened)) else none) }
  let s1 := s.onCell c (fun y => { y with
    xfers := y.xfers.filter (fun t => !(decide (t.num = k.num) && decide (t.unit < 2 ^ 20)))
    banks := bks
    tillAdds := y.tillAdds.filter (fun a => !k.addDropped a)
    tillHeld := if k.opcode = 0x0302 then [] else y.tillHeld
    mcast := if k.opcode = 0x0201 || k.opcode = 0x0202 then none else y.mcast })
  -- slots that nothing holds any more (R214, R219, R230)
  let loose := (if k.opcode = 0x0302 then x.tillHeld else []) ++ (x.tillAdds.filter k.addDropped).map (fun a => a.slot)
  let s2 := (loose.filter (fun i => (s1.cell c).tillAdds.all (fun a => decide (a.slot ≠ i)))).foldl
    (fun z i => z.setFld Fd.cellTillSlotBusy c i 0) (s1.putCmd c k')
  let s3 := s2.setFld Fd.cellQueueOutst c k.chanq (s2.fld Fd.cellQueueOutst c k.chanq - out)
  (s3.bumpCell Fd.cellDiscardCnt c n, n)

/-- The commands that a CANCEL matches among the queued (R141), with the successors of matched commands. -/
def cancelHits (all : Bool) (target : Nat) (started : List Nat) (e : QEnt) : Bool :=
  all || decide (e.off = target) || (match e.pred with
    | some n => started.contains n
    | none => false)

/-- A queued command that was removed by CANCEL takes its number, with its record still to write, and withdraws from its multicast
(R65, R142). Its own successor is never read, and a tally that it had consumed is not given back (log entry 50). -/
def State.retireEntry (s : State) (c q : Nat) (e : QEnt) : State :=
  let d := match e.desc with
    | some d => (d, false, s)
    | none => s.readDesc c e.off
  let s1 := d.2.2
  let x := s1.cell c
  let k := { Cmd.start x.nextNum q e.off e.seq e.root d.1 (s1.cellTenant c)
    (match s1.cellTenant c with
      | some t => s1.epoch t
      | none => 0) with cancelled := true, finished := true }
  (s1.setCell c { x with cmds := x.cmds ++ [k], nextNum := x.nextNum + 1 }).withdraw c k

/-- The successor of a chained command (R136): read now, it becomes the next command of its queue, ahead of every pointer. -/
def State.chainFrom (s : State) (c q off : Nat) (desc : List Byte) (num root : Nat) : State :=
  if !(fieldB desc 3 1).testBit 0 then s
  else
    let o := (off + 64 * max 1 (ceilDiv (fieldB desc 2 1) 4)) % 2 ^ 21
    let d := s.readDesc c o
    let x := d.2.2.cell c
    let e : QEnt := ⟨o, some d.1, x.nextSeq, root, false, some num, none, false, d.2.1⟩
    let s1 := d.2.2.setCell c { x with nextSeq := x.nextSeq + 1 }
    s1.setQueue c q (e :: s1.queue c q)

/-- Whether CANCEL stops a started command (R142, R333): not one of a kind that runs to completion, nor a PERMUTE that is landing. -/
def State.stoppable (s : State) (c : Nat) (k : Cmd) : Bool :=
  !runsToEnd k && !(decide (k.opcode = 0x0603) && s.weav.insts.any (fun i => decide (i.cell = c) && decide (i.cmd = k.num) && decide (4 ≤ i.phase)))

/-- Stopping the commands that a CANCEL matched among the started ones (R141, R142): one that only has its record to write is marked.
The state, and the bytes discarded. -/
def State.cancelStarted (s : State) (c : Nat) (hit : List Cmd) : State × Nat :=
  hit.foldl (fun (z : State × Nat) k0 =>
    match z.1.cmd c k0.num with
    | none => z
    | some k =>
      if k.finished then (z.1.putCmd c { k with cancelled := true }, z.2)
      else let y := (z.1.withdraw c k).stopCmd c k true; (y.1, z.2 + y.2)) (s, 0)

/-- CANCEL starts where it is appended (R141): it matches, stops and removes (R142). A command of its own queue that it removes gives
its record before those that stay queued ahead of it (log entry 50). -/
def State.cancelStart (s : State) (c q off seq : Nat) (desc : List Byte) : State :=
  let target := fieldB desc 16 4 % 2 ^ 21 / 64 * 64
  let tq := fieldB desc 20 1 % 16
  let all := (fieldB desc 21 1).testBit 0
  let hit := (s.cell c).cmds.filter (fun k => decide (k.q = tq) && (all || decide (k.off = target)) && s.stoppable c k)
  let r := s.cancelStarted c hit
  let nums := hit.map Cmd.num
  let gone := (r.1.queue c tq).filter (fun e => !e.cancelled && cancelHits all target nums e)
  let left := (r.1.queue c tq).filter (fun e => e.cancelled || !cancelHits all target nums e)
  let s1 :=
    if tq = q then gone.foldl (fun z e => z.retireEntry c tq e) (r.1.setQueue c tq left)
    else r.1.setQueue c tq ((r.1.queue c tq).map (fun e => if cancelHits all target nums e then { e with cancelled := true } else e))
  -- a held request of a cancelled command is withdrawn (R122)
  let s2 := { s1 with slices := s1.slices.filter (fun z => gone.all (fun (e : QEnt) => decide (z.op ≠ SliceOp.consume c tq e.seq))) }
  let x := s2.cell c
  let n := x.nextNum
  let k := { Cmd.start n q off seq seq desc (s2.cellTenant c)
    (match s2.cellTenant c with
      | some t => s2.epoch t
      | none => 0) with
    finished := true, bytes := r.2, matched := hit.map Cmd.seq ++ gone.map QEnt.seq }
  let s3 := s2.setCell c { x with
    cmds := x.cmds.map (fun y => if nums.contains y.num then { y with canceller := some n } else y) ++ [k], nextNum := n + 1 }
  (s3.storeWrite c k.recordOff (List.replicate 32 0)).2.chainFrom c q off desc n seq

/-- Appending a pointer to a queue that has room (R106, R412): a CANCEL starts at once (R141). -/
def State.append (s : State) (c q off : Nat) : State :=
  let o := off % 2 ^ 21 / 64 * 64
  let x := s.cell c
  let seq := x.nextSeq
  let s1 := s.setCell c { x with nextSeq := seq + 1 }
  let h := s1.storeRead c o 2
  if fieldB h.1 0 2 = 0x0F01 then
    let d := s1.readDesc c o
    d.2.2.cancelStart c q o seq d.1
  else s1.setQueue c q (s1.queue c q ++ [⟨o, none, seq, seq, false, none, none, false, false⟩])

/-! ## Records -/

/-- The code of a record (R15, R45): the first fault, the strict NaR fault among them; else the first warning or status; else
OK. TXN_ABORT's REASON stands as it is (R370): it is held as a fault. -/
def Cmd.code (k : Cmd) : Code :=
  match k.soft with
  | some c => c
  | none =>
    match k.fault with
    | some c => c
    | none => k.warn.getD cOK

/-- Stall cycles of a command by cause, in the order of `stallCodes` (R71, R72). -/
def stallCounts (d : Nat) : List (Nat × Nat) := ((List.range 14).zip stallCodes).map (fun x => (x.2, d / 2 ^ (48 * x.1) % 2 ^ 48))

/-- The cause with the most stall cycles, of equal ones the lower code; 0 without any (R72). -/
def stallCause (l : List (Nat × Nat)) : Nat :=
  (l.foldl (fun (a : Nat × Nat) x => if a.2 < x.2 ∨ (x.2 = a.2 ∧ x.2 ≠ 0 ∧ x.1 < a.1) then x else a) (0, 0)).1

/-- A command with its stall cycles, a free value for each cause (R118; log entry 25). -/
def Cmd.stalled (k : Cmd) (d : Nat) : Cmd :=
  let l := stallCounts d
  { k with stall := satTo (2 ^ 48 - 1) (l.map (fun x => x.2)).sum, cause := stallCause l }

/-- Counting the stall cycles of a Mill command in its cell (R71, R73). -/
def State.countStalls (s : State) (c : Nat) (k : Cmd) (d : Nat) : State :=
  if isMill k.opcode then (stallCounts d).foldl (fun z x => (if z.fenced c then z else z.bump Fd.cellStallCnt c x.1 x.2)) s else s

/-- The 32 bytes of a record (R118). -/
def Cmd.record (k : Cmd) : List Byte :=
  leBytes 2 k.code.toNat ++ leBytes 1 k.cause ++ leBytes 1 (1 + (if k.cancelled then 2 else 0)) ++ leBytes 4 k.counts.sat ++
    leBytes 4 k.counts.flush ++ leBytes 4 k.counts.narOp ++ leBytes 4 k.counts.narRes ++ leBytes 6 (satTo (2 ^ 48 - 1) k.bytes) ++
    leBytes 6 (satTo (2 ^ 48 - 1) k.stall)

end Sys2Proof.Machine
end

