-- ==== Sys2Proof/Machine/Effects.lean ====
section
/-! DEFINITION. What a write to a register with behaviour of its own sets off: Tinkers started and stopped (R83), streams armed
(R377), draws (R376), memory-side operations (R277), Scecy ports (R311 to R313, R328), unit resets (R436 to R438), full resets
(R431 to R435), memory-mode requests (R439), pairing (R382), updates (R449). -/

namespace Sys2Proof.Machine

/-- Sending something. -/
def State.send (s : State) (o : Out) : State := { s with out := s.out ++ [o] }

/-- MODULE.ID of this module. -/
def State.moduleId (s : State) : Nat := s.fld Fd.moduleIdId

/-! ## Tinkers (R83) -/

/-- Whether an access of a Tinker has not been answered (R81, R83). -/
def Tinker.outstanding (t : Tinker) : Bool := !t.stores.isEmpty || (match t.wait with
  | .access _ => true
  | _ => false)

/-- Starting a halted Tinker at TK_ENTRY. One whose stop still waits for an outstanding access has not halted: it runs on. -/
def State.startTinker (s : State) (k : Nat) : State :=
  let t := s.tinker k
  let s1 := s.setRun k true
  if t.outstanding then s1
  else
    s1.setTinker k { t with
      pc := BitVec.ofNat 32 (s.fld Fd.cellTkEntry (tkCell k)) &&& ~~~3#32, cstat := t.cstat &&& 0x0000FFFF#32, fetched := [], wait := .none }

/-- Stopping a running Tinker: a WAITQ or a waiting ISSUE is abandoned, an outstanding access completes. -/
def State.stopTinker (s : State) (k : Nat) : State :=
  let t := s.tinker k
  let s1 := s.setRun k false
  match t.wait with
  | .access _ => s1
  | _ => s1.setTinker k { t with wait := .none }

/-- A write of RUN bits: first Tinker of the register, old value, new value. -/
def State.writeRun (s : State) (c first old new : Nat) : State :=
  (List.range (if first = 0 then 64 else 36)).foldl (fun z i =>
    let k := 100 * c + first + i
    if !old.testBit i && new.testBit i then z.startTinker k
    else if old.testBit i && !new.testBit i then z.stopTinker k else z) s

/-! ## Streams (R375 to R377) -/

/-- One round of g (R375). -/
def philoxRound (x : (Nat × Nat × Nat × Nat) × Nat × Nat) : (Nat × Nat × Nat × Nat) × Nat × Nat :=
  let c := x.1
  let k := x.2
  let m := 2 ^ 32
  let p0 := 0xD2511F53 * c.1
  let p1 := 0xCD9E8D57 * c.2.2.1
  ((Nat.xor (Nat.xor (p1 / m % m) c.2.1) k.1, p1 % m, Nat.xor (Nat.xor (p0 / m % m) c.2.2.2) k.2, p0 % m),
    (k.1 + 0x9E3779B9) % m, (k.2 + 0xBB67AE85) % m)

/-- The function g of R375: four words from four words and a key of two. -/
def philox (c : Nat × Nat × Nat × Nat) (key : Nat) : List Nat :=
  let r := (List.range 10).foldl (fun x _ => philoxRound x) (c, key % 2 ^ 32, key / 2 ^ 32 % 2 ^ 32)
  [r.1.1, r.1.2.1, r.1.2.2.1, r.1.2.2.2]

/-- Index of a stream's registers. -/
def streamIdx (t st : Nat) : Nat := 4 * t + st

/-- IMPLIED of R377. -/
def State.implied (s : State) (t st : Nat) : Nat :=
  let i := streamIdx t st
  let pos := s.fld Fd.moduleDataPos 0 t
  let base := s.fld Fd.moduleStreamBase 0 i
  s.fld Fd.moduleStreamCfgRate 0 i * ((pos + 2 ^ 64 - base) % 2 ^ 64) % 2 ^ 64

/-- A read of DRAW (R376, R377): the word, or STREAM_SKEW. -/
def State.drawStream (s : State) (t st : Nat) : Nat × Option Code × State :=
  let i := streamIdx t st
  let off := s.fld Fd.moduleStreamOffset 0 i
  if s.flag Fd.moduleStreamCfgSkew 0 i then (0, some cStreamSkew, s)
  else if s.flag Fd.moduleStreamCfgArmed 0 i && decide (off ≠ s.implied t st) then
    (0, some cStreamSkew, s.setFld Fd.moduleStreamCfgSkew 0 i 1)
  else
    let q := off / 4
    let w := (philox (q % 2 ^ 32, q / 2 ^ 32 % 2 ^ 32, s.fld Fd.moduleStreamCfgStreamNo 0 i, 0xFFFFFFFF)
      (s.fld Fd.moduleStreamSeed 0 i)).getD (off % 4) 0
    (w, none, (s.setFld Fd.moduleStreamCfgArmed 0 i 0).setFld Fd.moduleStreamOffset 0 i (off + 1))

/-- Arming a stream (R377). -/
def State.armStream (s : State) (i : Nat) : State := s.setFld Fd.moduleStreamCfgArmed 0 i 1

/-- Arming every stream of a tenant (R377). -/
def State.armAll (s : State) (t : Nat) : State := (List.range 4).foldl (fun z st => z.armStream (streamIdx t st)) s

/-! ## Memory-side operations (R276 to R278) -/

/-- Bytes of an element of a kind. -/
def msSize (kind : Nat) : Nat := if kind = 1 then 8 else if kind = 3 then 2 else 4

/-- The sum of two elements of a kind, by their bits. -/
def msSum (kind a b : Nat) : Nat :=
  match kind with
  | 0 => (a + b) % 2 ^ 32
  | 1 => (a + b) % 2 ^ 64
  | 2 => (fpAdd .ne (BitVec.ofNat 32 a) (BitVec.ofNat 32 b)).1.toNat
  | 3 => codeL16 (lxAdd (decodeCode .l16 a 0) (decodeCode .l16 b 0))
  | _ => b

/-- The parts of n bytes that lie in one burst each: offsets and lengths. -/
def burstParts (a n : Nat) : List (Nat × Nat) :=
  let first := min n (64 - a % 64)
  if first = n then [(0, n)] else [(0, first), (first, n - first)]

/-- A read of n bytes by the stack controller, burst by burst, stopping at the first refusal. -/
def State.msRead (s : State) (x : Ctx) (a : Nat) : List (Nat × Nat) → Got
  | [] => Got.ok [] s
  | p :: ps =>
    let g := s.bulkAccess x (a + p.1) none p.2
    if g.fault.isSome then g
    else
      let h := State.msRead g.st x a ps
      { h with bytes := g.bytes ++ h.bytes }

/-- A write of bytes by the stack controller, burst by burst, stopping at the first refusal. -/
def State.msWrite (s : State) (x : Ctx) (a : Nat) (bs : List Byte) : List (Nat × Nat) → Got
  | [] => Got.ok [] s
  | p :: ps =>
    let g := s.bulkAccess x (a + p.1) (some (sliceB bs p.1 p.2)) p.2
    if g.fault.isSome then g else State.msWrite g.st x a bs ps

/-- Whether every frame of an element may be accessed (R277, R281). -/
def State.msAllowed (s : State) (x : Ctx) (a : Nat) (write : Bool) (ps : List (Nat × Nat)) : Bool :=
  ps.all (fun p => tagPermits x.who (s.frame ((a + p.1) / 65536)).tag write)

/-- The elements of an operation, in ascending order: the fault that stopped it. Before each element the frames of its source and
its destination are checked; the element is one read-modify-write of its destination (R269, R270, R277). -/
def State.msRun (s : State) (x : Ctx) (m kind : Nat) (imm : Option Nat) (dst src : Nat) : Nat → Nat → Code × State
  | 0, _ => (cOK, s)
  | n + 1, i =>
    let sz := msSize kind
    let at_ := fun (b : Nat) => m * 2 ^ 36 + (b + i * sz) % 2 ^ 36
    let ps := burstParts (at_ src) sz
    let pd := burstParts (at_ dst) sz
    if !(imm.isSome || s.msAllowed x (at_ src) false ps) || !s.msAllowed x (at_ dst) true pd then
      (cPageOwner, s.bump Fd.poolOwnerFaultCnt)
    else
      let src1 : Got := match imm with
        | some v => Got.ok (leBytes sz v) s
        | none => s.msRead x (at_ src) ps
      match src1.fault with
      | some c => (c, src1.st)
      | none =>
        -- what the read of the read-modify-write delivers; the write below performs and counts it
        let old : Got := if kind = 4 then Got.ok [] src1.st else src1.st.msRead x (at_ dst) pd
        let r := msSum kind (ofLe old.bytes) (ofLe src1.bytes)
        let w := src1.st.msWrite x (at_ dst) (leBytes sz r) pd
        match old.fault <|> w.fault with
        | some c => (c, w.st)
        | none => State.msRun w.st x m kind imm dst src n (i + 1)

/-- A write to MS_GO (R277, R278). -/
def State.msGo (s : State) (who : Who) (m kind : Nat) (imm : Bool) : State :=
  if s.fld Fd.stackMode m = 0 then
    ((s.setFld Fd.stackMsStatusFault m 0 cMemsideRefused.toNat).setFld Fd.stackMsStatusDone m 0 1).bump Fd.stackMsRefusedCnt m
  else if s.flag Fd.stackMsStatusBusy m then s.bump Fd.stackMsRefusedCnt m
  else
    let count := s.fld Fd.stackMsCount m
    let src := s.fld Fd.stackMsSrc m
    if 5 ≤ kind ∨ count = 0 then
      (s.setFld Fd.stackMsStatusFault m 0 0).setFld Fd.stackMsStatusDone m 0 1
    else
      let v := if kind = 1 then src else src % 2 ^ 32
      let r := s.msRun ⟨who, none, none, none, none⟩ m kind (if imm then some v else none) (s.fld Fd.stackMsDst m) src count 0
      let op : MsOp := ⟨m, r.1⟩
      { r.2.setFld Fd.stackMsStatusBusy m 0 1 with stk := { r.2.stk with ms := r.2.stk.ms ++ [op] } }

/-! ## Scecy ports -/

def State.port (s : State) (p : Nat) : PortSt := Tab.get (fun _ => PortSt.init) s.fab.ports p

def State.setPort (s : State) (p : Nat) (x : PortSt) : State :=
  { s with fab := { s.fab with ports := Tab.set (fun _ => PortSt.init) s.fab.ports p x } }

/-- STATE.LINK, with PORT_UP beside it (R328, R329). -/
def State.setLink (s : State) (p v : Nat) : State :=
  (s.setFld Fd.scecyStateLink p 0 v).setBit Fd.fabPortUp 0 0 p (decide (v = 2))

def State.link (s : State) (p : Nat) : Nat := s.fld Fd.scecyStateLink p

/-- A port that may carry traffic (R320). -/
def State.healthy (s : State) (p : Nat) : Bool := decide (s.link p = 2) && !s.inReset .scecy p

def PortSt.placedAt (x : PortSt) (pool : Nat) : List Nat := Tab.get (fun _ => []) x.waiting pool
def PortSt.sentAt (x : PortSt) (vc : Nat) : List Flit := Tab.get (fun _ => []) x.replay vc
def PortSt.creditAt (x : PortSt) (pool : Nat) : Nat := Tab.get creditInit x.credits pool
def PortSt.lastAt (x : PortSt) (vc : Nat) : Nat := Tab.get (fun _ => 4095) x.lastSeq vc
def PortSt.owedAt (x : PortSt) (pool : Nat) : Nat := Tab.get (fun _ => 0) x.owed pool

/-- CRC-16 of R310. -/
def crc16 (bs : List Byte) : Nat :=
  bs.foldl (fun c b =>
    (List.range 8).foldl (fun x _ => if 2 ^ 15 ≤ x then Nat.xor (2 * x % 2 ^ 16) 0x1021 else 2 * x) (Nat.xor c (b.toNat * 256))) 0xFFFF

/-- The 256 bytes of a flit as sent (R310, R311). -/
def flitBytes (f : Flit) (vc ack ackVc crVc crCnt : Nat) : List Byte :=
  let h := f.seq + ack * 2 ^ 12 + vc * 2 ^ 24 + ackVc * 2 ^ 26 + f.kind * 2 ^ 28 + crVc * 2 ^ 31 + crCnt * 2 ^ 33 + f.dcls * 2 ^ 41
  let b := leBytes 6 h ++ sliceB f.body 0 248
  b ++ beBytes 2 (crc16 b)

/-- Handing one flit to the lanes: it acknowledges its own channel and returns credits of one pool. On the channels with two
pools the DCLS bit of the flit names the pool (log entry 18). TX_FLITS counts it where it is not idle (R328). -/
def State.emitFlit (s : State) (p vc : Nat) (f : Flit) : State :=
  let x := s.port p
  let pool := ((List.range 8).find? (fun k => decide (0 < x.owedAt k) &&
    (decide (k / 2 = 0 ∨ k / 2 = 2) || decide (k % 2 = f.dcls)))).getD (2 * vc + f.dcls)
  let n := min 255 (x.owedAt pool)
  let y := { x with owed := Tab.set (fun _ => 0) x.owed pool (x.owedAt pool - n) }
  let s1 := if f.kind = 0 then s.setPort p y else (s.setPort p y).bump Fd.scecyTxFlits p
  s1.send (.flit p (flitBytes f vc (x.lastAt vc) vc (pool / 2) n))

/-- An idle flit: link state, an acknowledgement and credits (R310, R311). -/
def State.sendIdle (s : State) (p vc : Nat) : State :=
  let x := s.port p
  let k := ((List.range 8).find? (fun k => decide (0 < x.owedAt k))).getD 0
  if s.healthy p then s.emitFlit p vc ⟨0, 0, k % 2, [], 0, 0⟩ else s

/-- Buffers of a pool of an in-port are free again: their credits are owed to the partner (R314). -/
def State.owe (s : State) (port : Option Nat) (pool n : Nat) : State :=
  match port with
  | some p => if pool < 8 then
      let x := s.port p
      s.setPort p { x with owed := Tab.set (fun _ => 0) x.owed pool (x.owedAt pool + n) }
    else s
  | none => s

/-- Credits that are owed go back with an idle flit. -/
def State.sendOwed (s : State) (p : Nat) : State :=
  if (List.range 8).any (fun k => decide (0 < (s.port p).owedAt k)) then s.sendIdle p 0 else s

/-! ## Packets -/

/-- Largest data of a packet (R315). -/
def packetMax : Nat := 32768

/-- The 16-byte packet header (R315). -/
def Packet.header (p : Packet) : List Byte :=
  leBytes 2 p.dst ++ leBytes 2 p.src ++ leBytes 1 (p.tenant % 16 + 16 * (p.op % 16)) ++ leBytes 1 p.hops ++ leBytes 2 p.tag ++
    leBytes 6 p.addr ++ leBytes 2 p.len

/-- The packet that the bodies of its flits carry: reads requested and write acknowledgements carry no data. -/
def Packet.ofBytes (bs : List Byte) : Packet :=
  let op := fieldB bs 4 1 / 16
  let len := min packetMax (fieldB bs 14 2)
  { dst := fieldB bs 0 2, src := fieldB bs 2 2, tenant := fieldB bs 4 1 % 16, op, hops := fieldB bs 5 1, tag := fieldB bs 6 2,
    addr := fieldB bs 8 6, len, data := if op = 0 ∨ op = 3 then [] else sliceB bs 16 len }

/-- Splitting bytes into runs of n. -/
def cutEvery (n : Nat) : Nat → List Byte → List (List Byte)
  | 0, _ => []
  | _, [] => []
  | f + 1, bs => bs.take n :: cutEvery n f (bs.drop n)

/-- The flits of a packet, by kind and body (R310, R311). -/
def Packet.bodies (p : Packet) : List (Nat × List Byte) :=
  let bs := p.header ++ p.data
  let cs := cutEvery 248 (bs.length / 248 + 1) bs
  ((List.range cs.length).zip cs).map (fun x =>
    (if cs.length = 1 then 4 else if x.1 = 0 then 1 else if x.1 + 1 = cs.length then 3 else 2, x.2))

/-- Placing a packet at this module's router (R317). -/
def State.inject (s : State) (vc : Nat) (p : Packet) (via : Option Nat) (cmd : Option (Nat × Nat)) : State :=
  let t : Transit := {
    id := s.fab.nextId, pkt := { p with data := [] }, port := none, vc, dcls := 0, pool := 8, bodies := p.bodies, whole := true
    moved := false, entry := none, esc := false, out := none, here := false, got := [], drop := false, via, cmd }
  { s with fab := { s.fab with transit := s.fab.transit ++ [t], nextId := s.fab.nextId + 1 } }

/-- OP of a message (R315), its channel (R314; that CONTROL packets take the collective channel is the model's choice, log entry 65)
and its tenant (0 where it has none). -/
def msgOp : Msg → Nat
  | .coll _ => 4
  | .grant _ _ _ _ _ => 4
  | .mcast _ => 5
  | .credit _ => 6
  | .ctl _ => 7
  | .image _ _ _ _ => 7
  | .results _ => 7

def msgVc (m : Msg) : Nat := if msgOp m = 6 then 1 else 2

def msgTenant : Msg → Nat
  | .coll m => m.t.val
  | .grant t _ _ _ _ => t.val
  | .mcast m => m.t.val
  | .credit m => m.t.val
  | .ctl (.detach t _ _) => t.val
  | .ctl (.abort t _ _ _ _) => t.val
  | .ctl (.pairAsk t _) => t.val
  | .ctl (.pairAnswer t _) => t.val
  | .ctl (.ownerCmd _) => 0
  | .ctl (.ownerReply _ _ _) => 0
  | .image _ _ _ _ => 0
  | .results _ => 0

/-- An integer in n bytes, least significant first. -/
def intBytes (n : Nat) (x : Int) : List Byte := leBytes n (ofSigned (8 * n) x)

/-- The data of a collective packet: a partial in five bytes an element with its checksum after it (R340, R344), exponents in two, words
in eight, a shard with its version tag after it (R348), the bytes of a move (log entry 30). -/
def partData : CollPart → List Byte
  | .proposals es _ => es.flatMap (intBytes 2)
  | .exponents es _ => es.flatMap (intBytes 2)
  | .block _ _ xs csum => xs.flatMap (intBytes 5) ++ leBytes 8 csum
  | .words ws => ws.flatMap (fun w => leBytes 8 w.toNat)
  | .result ws => ws.flatMap (fun w => leBytes 8 w.toNat)
  | .shard _ bs e st c => bs ++ leBytes 4 e.toNat ++ leBytes 4 st.toNat ++ leBytes 8 c.toNat
  | .moveData _ bs => bs
  | .landed _ => []
  | .ready _ _ _ => []
  | .outcome _ _ _ => []

/-- The data of a message. -/
def msgData : Msg → List Byte
  | .coll m => partData m.body
  | .grant _ _ _ _ _ => []
  | .mcast m => m.bytes
  | .credit _ => []
  | .ctl c => Config.msgData (.ctl c)
  | .image p i c r => Config.msgData (.image p i c r)
  | .results r => Config.msgData (.results r)

/-- Sending a message to a module, in packets of at most 32,768 bytes of data (R315); the command that its failure ends (R320). -/
def State.sendMsg (s : State) (dst : Nat) (m : Msg) (via : Option Nat) (cmd : Option (Nat × Nat)) : State :=
  let d := msgData m
  (List.range (max 1 (ceilDiv d.length packetMax))).foldl (fun z i =>
    let w := (Config.msgWord m i).toNat
    let bs := sliceB d (i * packetMax) (min packetMax (d.length - i * packetMax))
    z.inject (msgVc m) ⟨dst, s.moduleId, msgTenant m, msgOp m, 0, w / 2 ^ 48, w % 2 ^ 48, bs.length, bs⟩ via cmd) s

/-! ## Packets on a port -/

/-- A packet in this module, by its number. -/
def State.packet (s : State) (id : Nat) : Option Transit := s.fab.transit.find? (fun t => decide (t.id = id))

def State.putPacket (s : State) (t : Transit) : State :=
  { s with fab := { s.fab with transit := s.fab.transit.map (fun x => if x.id = t.id then t else x) } }

def State.dropPacket (s : State) (id : Nat) : State :=
  { s with fab := { s.fab with transit := s.fab.transit.filter (fun x => decide (x.id ≠ id)) } }

/-- The body of the next flit that a packet moves on: a module that forwards a packet increments HOPS in its header (R315). -/
def Transit.next (t : Transit) (body : List Byte) : List Byte :=
  if t.moved || t.port.isNone then body else body.set 5 (BitVec.ofNat 8 (t.pkt.hops + 1))

/-- Sending the flits of the packets placed on a pool while they are here and there are credits and places in the replay buffer
(R312, R314). Each flit that moves on frees the buffer it held. -/
def State.pumpPool (s : State) (p pool : Nat) : Nat → State
  | 0 => s
  | n + 1 =>
    let x := s.port p
    let vc := pool / 2
    match x.placedAt pool with
    | [] => s
    | id :: rest =>
      let less := Tab.set (fun _ => []) x.waiting pool rest
      match s.packet id with
      | none => State.pumpPool (s.setPort p { x with waiting := less }) p pool n
      | some t =>
        match t.bodies with
        | [] => s
        | b :: bs =>
          if x.creditAt pool = 0 ∨ 256 ≤ (x.sentAt vc).length then s
          else
            let ends := decide (3 ≤ b.1)
            let q := Tab.get (fun _ => 0) x.nextSeq vc
            let g : Flit := ⟨q, b.1, pool % 2, t.next b.2, 0, id⟩
            let y := { x with
              waiting := if ends then less else x.waiting
              replay := Tab.set (fun _ => []) x.replay vc (x.sentAt vc ++ [g])
              nextSeq := Tab.set (fun _ => 0) x.nextSeq vc ((q + 1) % 4096)
              credits := Tab.set creditInit x.credits pool (x.creditAt pool - 1) }
            let s1 := if ends then s.dropPacket id else s.putPacket { t with bodies := bs, moved := true }
            State.pumpPool (((s1.setPort p y).emitFlit p vc g).owe t.port t.pool 1) p pool n

/-- Sending what can be sent on a port. -/
def State.pump (s : State) (p : Nat) : State :=
  if s.healthy p then (List.range 24).foldl (fun z q => z.sendOwed q) ((List.range 8).foldl (fun z k => z.pumpPool p k 512) s) else s

/-- Replaying the unacknowledged flits of a channel from a position on (R312): counts flits, raises their tries, and calls for
a retrain where one has been replayed REPLAY_LIMIT times (R313). -/
def State.replayFrom (s : State) (p vc skip : Nat) : State :=
  let x := s.port p
  let l := x.sentAt vc
  let again := l.drop skip
  let up := again.map (fun f => { f with tries := f.tries + 1 })
  let lim := max 1 (s.fld Fd.scecyCtrlReplayLimit p)
  let y := { x with
    replay := Tab.set (fun _ => []) x.replay vc (l.take skip ++ up)
    due := x.due || up.any (fun f => decide (lim ≤ f.tries)) }
  up.foldl (fun z f => z.emitFlit p vc f) ((s.setPort p y).bump Fd.scecyReplayCnt p 0 again.length)

/-- What is left of a packet when a port goes DOWN (R313), none if nothing is. A part received from the port is discarded; a packet that
is whole here holds no buffer of the port any more. One that was on its way out of the port is dropped, and what still arrives of it
is discarded; one with nothing sent yet is routed again. -/
def Transit.without (t : Transit) (p : Nat) : Option Transit :=
  if t.port = some p ∧ !t.whole then none
  else
    let t1 := if t.port = some p then { t with pool := 8 } else t
    match t.out with
    | some o =>
      if o.1 ≠ p then some t1
      else if !t.moved then some { t1 with out := none }
      else if t.whole then none
      else some { t1 with out := none, drop := true, bodies := [] }
    | none => some t1

/-- A port goes DOWN, or DISABLED (R313, R328): every packet with an unacknowledged flit is dropped and counted, partial packets
received from it are discarded. -/
def State.dropPort (s : State) (p link : Nat) : State :=
  let x := s.port p
  let n := (((List.range 4).flatMap x.sentAt).map (fun f => f.pkt)).eraseDups.length
  let gone := s.fab.transit.filter (fun t => t.moved && (match t.out with
    | some o => decide (o.1 = p)
    | none => false))
  let s1 := gone.foldl (fun (z : State) (t : Transit) => z.owe t.port t.pool t.bodies.length) s
  let s2 := { s1 with fab := { s1.fab with transit := s1.fab.transit.filterMap (fun (t : Transit) => t.without p) } }
  ((s2.bump Fd.scecyDownDropCnt p 0 n).setPort p PortSt.init).setLink p link

/-- A write to CTRL (R11, R313, R328), after its RW fields have been written: only a write that addresses ENABLE disables or
trains. -/
def State.portCtrl (s : State) (p : Nat) (enable retrain : Bool) : State :=
  let en := s.flag Fd.scecyCtrlEnable p
  let s1 :=
    if !enable then s
    else if !en then (if s.link p = 3 then s else s.dropPort p 3)
    else if s.link p = 0 ∨ s.link p = 3 then (s.setPort p PortSt.init).setLink p 1 else s
  if retrain && decide (s1.link p = 2) then s1.setPort p { s1.port p with due := true } else s1

/-! ## Queue pairs -/

/-- Putting queue pairs into the error state (R404): what waits on them is not performed. -/
def State.errQps (s : State) (f : Qp → Bool) : State :=
  let hit := s.eth.qps.filter (fun q => f q && !q.err)
  let s1 := { s with eth := { s.eth with
    qps := s.eth.qps.map (fun q => if f q then { q with err := true } else q)
    waiting := s.eth.waiting.filter (fun w => hit.all (fun q => decide (q.qpn ≠ w.qpn)))
    passed := s.eth.passed.filter (fun p => decide (p.conn = 0) || hit.all (fun q => decide (q.qpn ≠ p.conn))) } }
  hit.foldl (fun z q => z.setFld Fd.ethSessionQps 0 q.t.val (z.fld Fd.ethSessionQps 0 q.t.val - 1)) s1

/-! ## Weaver instances -/

/-- The transactions that a commit names: its own and the joined ones (R365). -/
def Cmd.txnNames (k : Cmd) : List Nat := k.txnId :: (List.range (k.u 33 1 % 8)).map (fun i => k.u (48 + 2 * i) 2)

/-- A voting commit that ends before it has learned the outcome leaves its transactions IN_DOUBT (R369). -/
def State.doubt (s : State) (k : Cmd) : State :=
  match k.tenant with
  | some t =>
    if k.opcode = 0x0702 ∧ k.outcome = none then
      k.txnNames.foldl (fun z id => match z.txnSlot t id with
        | some j => if z.txnState t j = 1 ∨ z.txnState t j = 2 then z.setTxnState t j 3 else z
        | none => z) s
    else s
  | none => s

/-- Ending instances (R333, R438): their commands take a fault where they have none, or the mark of CANCEL. A commit that knows its
outcome goes on without its instance (R369). -/
def State.endInsts (s : State) (f : Inst → Bool) (code : Option Code) (cancel : Bool) : State :=
  let hit := s.weav.insts.filter f
  let s1 := { s with weav := { s.weav with insts := s.weav.insts.filter (fun i => !f i) } }
  hit.foldl (fun z i =>
    let idx := 16 * i.t.val + i.ch.val
    let z0 := z.setFld Fd.weaverChanInflight 0 idx (z.fld Fd.weaverChanInflight 0 idx - 1)
    let z1 := match z0.cmd i.cell i.cmd with
      | some k => z0.doubt k
      | none => z0
    match z1.cmd i.cell i.cmd with
    | some k => if k.opcode = 0x0702 ∧ k.outcome.isSome then z1 else z1.putCmd i.cell { k with
        finished := true, fault := k.fault <|> code, cancelled := k.cancelled || cancel }
    | none => z1) s1

/-! ## Unit resets (R436 to R438) -/

/-- Whether a unit is idle (R437). -/
def State.unitIdle (s : State) (b : Blk) (i u : Nat) : Bool :=
  match b with
  | .cell =>
    let x := s.cell i
    x.queues.all (fun q => q.2.isEmpty) && x.cmds.isEmpty && x.mcast.isNone && x.tillAdds.isEmpty &&
      decide (s.fld Fd.cellTkRun0 i = 0) && decide (s.fld Fd.cellTkRun1 i = 0) &&
      s.tinkers.all (fun t => decide (tkCell t.1 ≠ i) || !t.2.outstanding)
  | .stack => !s.flag Fd.stackMsStatusBusy i
  | .scecy => decide (s.link i = 3)
  | .eth => s.eth.qps.all (fun q => q.err || decide (q.port ≠ i))
  | .weaver => if u < 2 then s.weav.insts.all (fun x => decide (x.ch.val / 8 ≠ u)) else true
  | .flash => s.flash.ops.isEmpty
  | _ => true

/-- Clearing the RUN and TRAP bits, tallies and engine status registers of a cell. -/
def State.clearCellRegs (s : State) (c : Nat) : State :=
  let b := Blk.cell.base c
  let keep := fun (o : Nat) => !(decide (b ≤ o) && decide (o < b + 0x10000) &&
    ((fieldsAt o).any (fun fi => decide (fi.1 ∈ [Fd.cellTkRun0, Fd.cellTkRun1, Fd.cellTkTrap0, Fd.cellTkTrap1, Fd.cellTally,
      Fd.cellTillSlotWs, Fd.cellTableSlotActive, Fd.cycles .cell]))))
  let s1 := { s with regs := s.regs.filter (fun e => keep e.1) }
  let s2 := (List.range 16).foldl (fun z q => z.setFld Fd.cellQueueOutst c q 0) s1
  ((s2.setFld Fd.cellStateMillBusy c 0 0).setFld Fd.cellStateBank0Drain c 0 0).setFld Fd.cellStateBank1Drain c 0 0

/-- Whether a flash read delivers to a command of a cell alone: a copy for PAGE_COW, a page for the cell store, an image. -/
def FlashOp.feeds (o : FlashOp) (c : Nat) : Bool :=
  !o.write && decide (o.purpose ≠ 0) && (match o.cmd with
    | some cn => decide (cn.1 = c)
    | none => false)

/-- A cell's reset: everything in it but its memories (R437, R438). Its started Weaver commands leave their instances. -/
def State.resetCell (s : State) (c : Nat) : State :=
  let ins := s.weav.insts.filter (fun i => decide (i.cell = c))
  let s0 := (s.flash.ops.filter (fun o => o.feeds c)).foldl (fun (z : State) (o : FlashOp) => z.undoFlash o false) s
  let s1 := s0.endInsts (fun i => decide (i.cell = c)) none false
  let s2 := ins.foldl (fun z i => { z with weav := { z.weav with early := z.weav.early.filter (fun e =>
    !(decide (e.1 = i.t) && decide (e.2.1 = i.ch) && decide (e.2.2.1 = i.num))) } }) s1
  let s3 := { s2 with
    flash := { s2.flash with ops := s2.flash.ops.filter (fun o => !o.feeds c) }
    tinkers := s2.tinkers.filter (fun t => decide (tkCell t.1 ≠ c))
    slices := s2.slices.filter (fun z => match z.op with
      | .tinker k => decide (tkCell k ≠ c)
      | .produce _ _ => true
      | .consume d _ _ => decide (d ≠ c)) }
  let x := s3.cell c
  (s3.setCell c { CellSt.init with till := x.till }).clearCellRegs c

/-- Undefined bytes in the bursts that a stack controller was writing (R438): a free value. -/
def State.scrambleMs (s : State) (m : Nat) : State :=
  let n := 64 * ceilDiv (s.fld Fd.stackMsCount m * 8) 64
  let v := s.draw
  let a := m * 2 ^ 36 + s.fld Fd.stackMsDst m % 2 ^ 36 / 64 * 64
  { v.2 with bulk := v.2.bulk.setBytes a (leBytes n v.1) }

/-- PHY training decides every pin of a stack again (R264, R437): a free value for each channel. -/
def State.retrainPins (s : State) (m : Nat) : State :=
  let s1 := { s with stk := { s.stk with suspect := s.stk.suspect.filter (fun e => decide (e.1 / (18 * 128) ≠ m)) } }
  (List.range 128).foldl (fun z c =>
    let v := z.draw
    let z1 := (v.2.setFld Fd.stackLostPinsDq m c 0).setFld Fd.stackLostPinsCb m c 0
    (List.range 18).foldl (fun y p => if v.1.testBit p then y.markLost m c p else y) z1) s1

/-- Resetting a unit (R436, R438): IN_RESET sets, and NOT_IDLE where it was busy. -/
def State.resetUnit (s : State) (b : Blk) (i u : Nat) : State :=
  let s0 := s.setBit (Fd.swrstInReset b) i 0 u true
  let s1 := if s.unitIdle b i u then s0 else s0.setBit (Fd.swrstNotIdle b) i 0 u true
  match b with
  | .cell => s1.resetCell i
  | .stack =>
    let s2 := if s.unitIdle .stack i u then s1 else s1.scrambleMs i
    { s2.setFld Fd.stackMsStatusBusy i 0 0 with stk := { s2.stk with ms := s2.stk.ms.filter (fun o => decide (o.stack ≠ i)) } }
  | .scecy => (s1.dropPort i 0).setFld (Fd.cycles .scecy) i 0 0
  | .eth => ((s1.errQps (fun q => decide (q.port = i))).setFld Fd.ethState i 0 0).setFld (Fd.cycles .eth) i 0 0
  | .weaver => if u < 2 then s1.endInsts (fun x => decide (x.ch.val / 8 = u)) (some cLinkDown) false else s1
  | .flash =>
    let hit := s1.flash.ops.filterMap (fun o => o.cmd)
    let s2 := (s1.flash.ops.foldl (fun (z : State) (o : FlashOp) => z.undoFlash o false) { s1 with flash := { s1.flash with ops := [] } }).setFld (Fd.cycles .flash) 0 0 0
    hit.foldl (fun z cn => match z.cmd cn.1 cn.2 with
      | some k =>
        let n := (z.cell cn.1).xfers.countP (fun y => decide (y.num = k.num))
        ((z.putCmd cn.1 { k with finished := true, fault := k.fault <|> some cLinkDown }).onCell cn.1
          (fun x => { x with xfers := x.xfers.filter (fun y => decide (y.num ≠ k.num)) })).setFld Fd.cellQueueOutst cn.1 k.chanq
            (z.fld Fd.cellQueueOutst cn.1 k.chanq - n)
      | none => z) s2
  | _ => s1

/-- A unit leaves reset (R437, R438). -/
def State.exitReset (s : State) (b : Blk) (i u : Nat) : State :=
  if !s.inReset b i u then s
  else
    let s1 := s.setBit (Fd.swrstInReset b) i 0 u false
    match b with
    | .stack => (s1.retrainPins i).setFld (Fd.cycles .stack) i 0 0
    | .scecy => s1.setLink i (if s1.flag Fd.scecyCtrlEnable i then 1 else 3)
    | .eth => s1.setFld Fd.ethState i 0 1
    | _ => s1

/-! ## Full resets (R431 to R433) -/

/-- A full reset by the source with a bit number: what R432 keeps stays, everything else is as after reset. The commands that
wait outside and the record of what was sent are no part of the module. -/
def State.fullReset (s : State) (source : Nat) : State :=
  let cause := if source = 0 then 1 else (putBits (s.fld Fd.resetCause) source 1 1)
  let restarts := if source = 0 then 0
    else if s.clk.phase = .loading then satTo 255 (s.fld Fd.resetOptRestarts + 1) else s.fld Fd.resetOptRestarts
  let z : State := { State.reset with
    flash := { s.flash with map := [], data := [], ops := [] }
    clk := { ClkSt.init with arb := s.clk.arb, source := source, inputSwitch := s.clk.inputSwitch }
    out := s.out, freeCtr := s.freeCtr, pending := s.pending }
  let done := source ≠ 0 && decide (s.clk.phase ≠ .loading) && s.flag Fd.resetOptDone
  ((z.setFld Fd.resetCause 0 0 cause).setFld Fd.resetOptRestarts 0 0 restarts).setFld Fd.resetOptDone 0 0 (if done then 1 else 0)

/-- Arming and triggering a software reset (R435), which takes two writes: a GO is judged by the arm of an earlier write. One that
is not armed, or late, is ignored, and the arm lapses. -/
def State.swReset (s : State) (arm go : Bool) : State :=
  let now := s.fld (Fd.cycles .clerk)
  let again : State := if arm then { s with clk := { s.clk with armed := some now } } else s
  if !go then again
  else
    match s.clk.armed with
    | some at_ =>
      if (now + 2 ^ 64 - at_) % 2 ^ 64 ≤ 2 ^ 20 then s.fullReset 4
      else { s with clk := { s.clk with armed := if arm then some now else none } }
    | none => again

/-! ## Requests to the Clerk -/

/-- A memory-mode request (R439). -/
def State.memReq (s : State) : State :=
  let mask := s.fld Fd.moduleMemReqStacks
  let mode := if s.flag Fd.moduleMemReqRecovery then 3 else 0
  ((List.range 12).foldl (fun z m => if mask.testBit m then z.setFld Fd.stackMode m 0 mode else z) s).setFld
    Fd.moduleMemReqDone 0 0 1

/-- A write of PAIR (R382): the FEED of this module goes to the partner. -/
def State.startPair (s : State) (t : Fin 16) : State :=
  let s1 := ((s.setFld Fd.modulePartnerPaired 0 t.val 0).setFld Fd.modulePartnerPairFail 0 t.val 0).setFld
    Fd.modulePartnerCoFed 0 t.val 0
  let s2 := { s1 with clk := { s1.clk with pairing := (s1.clk.pairing.filter (fun x => decide (x ≠ t))) ++ [t] } }
  s2.sendMsg (s.fld Fd.modulePartnerId 0 t.val) (.ctl (.pairAsk t (BitVec.ofNat 16 (s.fld Fd.moduleFeedFeedId)))) none none

/-- A write of START (R449): ignored and counted while an update runs; else the module is busy, and reads the image and the
chain when UPDATE_START is handled. -/
def State.updateStartFlag (s : State) : State :=
  if s.flag Fd.moduleUpdateCtrlBusy then s.bump Fd.moduleOwnerDropCnt
  else
    let u : UpdSt := ⟨[], [], [], 0, 0, true⟩
    { s.setFld Fd.moduleUpdateCtrlBusy 0 0 1 with clk := { s.clk with update := some u } }

/-- A write to DOORBELL (R412, R50): ISSUE with W = 0, discarded and counted on a full queue. -/
def State.doorbell (s : State) (c q off : Nat) : State :=
  if s.fenced c then s.bump Fd.moduleFenceDropCnt
  else if s.queueRoom c q then s.append c q off else s.bump Fd.cellDbDropCnt c

end Sys2Proof.Machine
end

