-- ==== Sys2Proof/Machine/Ctl.lean ====
section
/-! DEFINITION. Control space: who may reach which register (R417), reads and writes by access code and byte lane (R11 to R13,
R109), and what a write sets off. -/

namespace Sys2Proof.Machine

/-- What an issuer may do with a register (R417). -/
inductive Perm where
  | deny
  | read
  | full
  deriving DecidableEq, Repr

/-- The tenant that a per-tenant register belongs to (R417). -/
def perTenant (fi : Field × Nat) : Option Nat :=
  if fi.1 ∈ [Fd.poolPtBase, Fd.poolPtEntries, Fd.poolEpochEpoch, Fd.poolPinLimitLimit, Fd.weaverLayoutEpoch, Fd.modulePartnerId,
      Fd.moduleDataPos, Fd.moduleEvtRingBase, Fd.moduleEvtTallyOffset, Fd.ethSessionState, Fd.ethNotifyQpn, Fd.ethNotifyVa] then
    some fi.2
  else if fi.1 = Fd.poolTxnSlotId then some (fi.2 / 8)
  else if fi.1 = Fd.weaverChanSeq then some (fi.2 / 16)
  else if fi.1 ∈ [Fd.moduleStreamSeed, Fd.moduleStreamBase, Fd.moduleStreamCfgRate, Fd.moduleStreamOffset, Fd.moduleStreamDraw] then
    some (fi.2 / 4)
  else if fi.1 ∈ [Fd.ethRegionKind, Fd.ethRegionBase] then some (fi.2 / 64)
  else none

/-- The table of R417 for the register at an offset. A cell whose group nobody holds reaches nothing (log entry 12). -/
def State.ctlPerm (s : State) (who : Who) (o : Nat) : Perm :=
  match who with
  | .clerk => .full
  | .pool => .full
  | .nobody => .deny
  | .tenant t =>
    match blockOf o with
    | none => .full
    | some (.cell, c, _) => if s.cellTenant c = some t then .full else .deny
    | some (.clerk, _, _) => .deny
    | some (.rst, _, _) => .deny
    | some _ =>
      match (fieldsAt o).findSome? perTenant with
      | some u => if u = t.val then .full else .deny
      | none => if s.flag Fd.ethAdmitManager 0 t.val then .full else .read

/-- Whether the block at an offset is in reset; SWRST itself answers (R436, R438). -/
def State.ctlInReset (s : State) (o : Nat) : Bool :=
  match blockOf o with
  | some (b, i, p) => b ∈ [Blk.cell, .stack, .scecy, .eth, .flash] && s.inReset b i && decide (p ≠ 0xFF0)
  | none => false

/-- The value of a register as read: IDLE is formed at the read (R436). -/
def State.regValue (s : State) (o : Nat) : Nat :=
  match blockOf o with
  | some (b, i, 0xFF0) =>
    let f := Fd.swrstIdle b
    let v := (s.reg o).toNat
    if b.resettable then
      putBits v f.lo f.w (((List.range (if b = .weaver then 4 else 1)).map
        (fun u => if s.unitIdle b i u then 2 ^ u else 0)).foldl (· + ·) 0)
    else v
  | _ => (s.reg o).toNat

/-- A read of n bytes of control space from a naturally aligned offset (R11): the bytes, a fault, the state. -/
def State.ctlRead (s : State) (who : Who) (o n : Nat) : List Byte × Option Code × State :=
  let r := o / 8 * 8
  if s.ctlInReset r then ([], some cLinkDown, s.bump Fd.moduleRstDropCnt)
  else if s.ctlPerm who r = .deny then (List.replicate n 0, none, s.bump Fd.ethCtlDenyCnt)
  else
    match (fieldsAt r).find? (fun fi => fi.1 = Fd.moduleStreamDraw) with
    | some (_, i) =>
      if o % 8 < 4 then
        let d := s.drawStream (i / 4) (i % 4)
        (sliceB (leBytes 8 d.1) (o % 8) n, d.2.1, d.2.2)
      else (List.replicate n 0, none, s)
    | none => (sliceB (leBytes 8 (s.regValue r)) (o % 8) n, none, s)

/-- A write as its register sees it: the mask of the addressed bits, the value in place, the bits that hardware sets at the
same time, and whether the boot lock is set. -/
structure RegWrite where
  mask : Nat
  val : Nat
  hw : Nat
  locked : Bool

/-- One field under a write, by its access code (R11 to R13): the register's new value, and the coincidences (R109). A counting event
in the cycle of the write (the counter's bit 0 among those that hardware sets) counts after a clear (R74). -/
def RegWrite.field (w : RegWrite) (f : Field) (v : Nat) : Nat × Nat :=
  let old := bitsOf v (f.lo + f.w - 1) f.lo
  let m := bitsOf w.mask (f.lo + f.w - 1) f.lo
  let x := bitsOf w.val (f.lo + f.w - 1) f.lo
  let h := bitsOf w.hw (f.lo + f.w - 1) f.lo
  let rw := Nat.lor (old - Nat.land old m) (Nat.land x m)
  match f.acs with
  | .rw => (putBits v f.lo f.w rw, 0)
  | .rwl => (if w.locked then v else putBits v f.lo f.w rw, 0)
  | .ro => (v, 0)
  | .wo => (v, 0)
  | .sat =>
    let kept := if m + 1 = 2 ^ f.w ∧ x = 0 then 0 else old
    (if kept = old ∧ h % 2 = 0 then v else putBits v f.lo f.w (satTo (2 ^ f.w - 1) (kept + h % 2)), 0)
  | .w1c =>
    let clr := Nat.land x m
    (putBits v f.lo f.w (Nat.lor (old - Nat.land old clr) h),
      ((List.range f.w).filter (fun b => clr.testBit b && h.testBit b)).length)

/-- A field's written value, bytes not addressed counting as zero (R11). -/
def RegWrite.wo (w : RegWrite) (f : Field) : Nat := bitsOf (Nat.land w.val w.mask) (f.lo + f.w - 1) f.lo

/-- Whether a write to a field is ignored for a reason of its own: MODE from others than the Clerk, TEST after the boot lock,
STARTUP at any time (R276); KIND of region 0 (R420). -/
def State.writeIgnored (s : State) (who : Who) (w : RegWrite) (f : Field) (i : Nat) : Bool :=
  if f = Fd.stackMode then
    !decide (who = .clerk) || decide (w.wo f = 1) || (decide (w.wo f = 2) && s.flag Fd.resetLockBootLock)
  else decide (f = Fd.ethRegionKind) && decide (i % 64 = 0)

/-- Storing a write into its register, field by field. -/
def State.storeReg (s : State) (who : Who) (o : Nat) (w : RegWrite) : State :=
  let r := (fieldsAt o).foldl (fun (x : Nat × Nat) fi =>
    if s.writeIgnored who w fi.1 fi.2 then x
    else let y := w.field fi.1 x.1; (y.1, x.2 + y.2)) ((s.reg o).toNat, 0)
  let s1 := s.setReg o (BitVec.ofNat 64 r.1)
  match blockOf o with
  | some (b, i, _) => if r.2 = 0 then s1 else s1.bump (Fd.coincideCnt b) i 0 r.2
  | none => s1

/-- What a write sets off, by the field that its register holds first: old value and write. -/
def State.writeEffect (s : State) (who : Who) (b : Blk) (bi : Nat) (f : Field) (i old : Nat) (w : RegWrite) : State :=
  if f = Fd.cellTkRun0 then s.writeRun bi 0 old (s.fld Fd.cellTkRun0 bi)
  else if f = Fd.cellTkRun1 then s.writeRun bi 64 old (s.fld Fd.cellTkRun1 bi)
  else if f = Fd.cellDoorbell then s.doorbell bi i (w.wo f)
  else if f = Fd.stackMsGoKind then s.msGo who bi (w.wo f) (decide (w.wo Fd.stackMsGoImm = 1))
  else if f = Fd.scecyCtrlEnable then
    s.portCtrl bi (w.mask.testBit Fd.scecyCtrlEnable.lo) (decide (w.wo Fd.scecyCtrlRetrain = 1))
  else if f ∈ [Fd.moduleStreamSeed, Fd.moduleStreamBase, Fd.moduleStreamCfgRate] then s.armStream i
  else if f = Fd.moduleStreamOffset then (s.armStream i).setFld Fd.moduleStreamCfgSkew 0 i 0
  else if f = Fd.moduleDataPos then s.armAll i
  else if f = Fd.modulePartnerId then
    (if h : i < 16 then (if w.wo Fd.modulePartnerPair = 1 then s.startPair ⟨i, h⟩ else s) else s)
  else if f = Fd.ethRegionKind ∨ f = Fd.ethRegionBase then s.inc Fd.ethRegionGen 0 i
  else if f = Fd.moduleMemReqStacks then (if w.wo Fd.moduleMemReqGo = 1 then s.memReq else s)
  else if f = Fd.moduleSwResetArm then s.swReset (decide (w.wo Fd.moduleSwResetArm = 1)) (decide (w.wo Fd.moduleSwResetGo = 1))
  else if f = Fd.moduleUpdateCtrlStart then (if w.wo Fd.moduleUpdateCtrlStart = 1 then s.updateStartFlag else s)
  else if f = Fd.swrstReset b then
    (List.range (if b = .weaver then 4 else 1)).foldl (fun z u => if (w.wo f).testBit u then z.resetUnit b bi u else z) s
  else s

/-- A write to the bits of a register that a mask addresses (R11, R417), as one access: a fault, the state. -/
def State.ctlWriteMask (s : State) (who : Who) (r mask v : Nat) (hw : Nat := 0) : Option Code × State :=
  if s.ctlInReset r then (some cLinkDown, s.bump Fd.moduleRstDropCnt)
  else if s.ctlPerm who r ≠ .full then (none, s.bump Fd.ethCtlDenyCnt)
  else
    let w : RegWrite := ⟨mask, Nat.land v mask, hw, s.flag Fd.resetLockBootLock⟩
    let old := (s.reg r).toNat
    let s1 := s.storeReg who r w
    match blockOf r, (fieldsAt r).head? with
    | some (b, bi, _), some fi => (none, s1.writeEffect who b bi fi.1 fi.2 old w)
    | _, _ => (none, s1)

/-- A write of n bytes to control space at a naturally aligned offset (R11, R417): a fault, the state. -/
def State.ctlWrite (s : State) (who : Who) (o n v : Nat) (hw : Nat := 0) : Option Code × State :=
  s.ctlWriteMask who (o / 8 * 8) ((2 ^ (8 * n) - 1) * 2 ^ (8 * (o % 8))) (v % 2 ^ (8 * n) * 2 ^ (8 * (o % 8))) hw

/-- An operand of a write of 1, 2, 4 or 8 bytes by its size code. -/
def sizeBytes (size : BitVec 2) : Nat := 2 ^ size.toNat

end Sys2Proof.Machine
end

