-- ==== Sys2Proof/Machine/Ops.lean ====
section
/-! DEFINITION. Access to the whole address space (R7, R8, R69, R144, R274, R281, R416), and taking a trap and returning from
one (R84). -/

namespace Sys2Proof.Machine

/-! ## Where an address lies -/

/-- What an address of the data space reaches (R7). -/
inductive Place where
  | bulk (a : Nat)
  | window (c x : Nat)
  | scache (o : Nat)
  | store (c o : Nat)
  | ctl (o : Nat)
  | hole
  deriving DecidableEq, Repr

/-- First address of the cell-store aperture (R7). -/
def storeBase : Nat := 0x300000000000

/-- The aperture of an address (R7). -/
def placeOf (a : Nat) : Place :=
  if a < 0xC000000000 then .bulk a
  else if 0x100000000000 ≤ a ∧ a < 0x104000000000 then .window ((a - 0x100000000000) / 2 ^ 30) (a % 2 ^ 30)
  else if 0x200000000000 ≤ a ∧ a < 0x20000C000000 then .scache (a - 0x200000000000)
  else if storeBase ≤ a ∧ a < storeBase + 2 ^ 29 then .store ((a - storeBase) / 2 ^ 21) (a % 2 ^ 21)
  else if 0x400000000000 ≤ a ∧ a < 0x400010000000 then .ctl (a - 0x400000000000)
  else .hole

/-- The bulk address behind a window offset (R274); none for an entry that is not valid. -/
def State.windowAddr (s : State) (c x : Nat) : Option Nat :=
  let j := x / 2 ^ 26
  let i := bitsOf x 25 16
  let m := s.fld Fd.cellWinMapStack c j
  if s.flag Fd.cellWinMapValid c j && decide (m < 12) then
    some (m * 2 ^ 36 + (s.fld Fd.cellWinMapGroupBase c j + i) % 2 ^ 17 * 2 ^ 19 + s.fld Fd.cellWinMapRegion c j * 2 ^ 16 + x % 2 ^ 16)
  else none

/-- The place of an address, the cell windows resolved. -/
def State.place (s : State) (a : Nat) : Place :=
  match placeOf a with
  | .window c x => (match s.windowAddr c x with
    | some b => .bulk b
    | none => .hole)
  | p => p

/-! ## One piece -/

/-- The slice of a shared-cache offset (R103). -/
def sliceOf (o : Nat) : Nat := o / 4096 % 64

/-- Whether an issuer may reach a slice (R416). -/
def State.ownsSlice (s : State) (w : Who) (sl : Nat) : Bool :=
  match w with
  | .clerk => true
  | .pool => true
  | .nobody => false
  | .tenant t => s.admitted t && s.bitOf Fd.ethAdmitCgMask 0 t.val (sl / 4)

/-- Whether an issuer may reach a cell's store (R281). -/
def State.ownsCell (s : State) (w : Who) (c : Nat) : Bool :=
  match w with
  | .clerk => true
  | .pool => true
  | .nobody => false
  | .tenant t => decide (s.cellTenant c = some t)

/-- A refusal by ownership (R281). -/
def State.refuse (s : State) : Got := Got.bad cPageOwner (s.bump Fd.poolOwnerFaultCnt)

/-- An uncorrectable SRAM word met through a global address (R70, R275). -/
def State.sramUeFault (s : State) : Got := Got.bad cMemUncorrectable s

/-- The parts of a run of control space: the largest naturally aligned accesses of 8, 4, 2 or 1 bytes (R11). -/
def ctlSize (o n : Nat) : Nat :=
  if o % 8 = 0 ∧ 8 ≤ n then 8 else if o % 4 = 0 ∧ 4 ≤ n then 4 else if o % 2 = 0 ∧ 2 ≤ n then 2 else 1

/-- Reading a run of control space by such parts. -/
def State.ctlReadRun (s : State) (w : Who) (o : Nat) : Nat → Nat → Got
  | 0, _ => Got.ok [] s
  | f + 1, n =>
    if n = 0 then Got.ok [] s
    else
      let k := ctlSize o n
      let r := s.ctlRead w o k
      match r.2.1 with
      | some c => Got.bad c r.2.2
      | none =>
        let g := State.ctlReadRun r.2.2 w (o + k) f (n - k)
        { g with bytes := r.1 ++ g.bytes }

/-- Writing a run of control space by such parts. -/
def State.ctlWriteRun (s : State) (w : Who) (o : Nat) : Nat → List Byte → Got
  | 0, _ => Got.ok [] s
  | f + 1, bs =>
    if bs = [] then Got.ok [] s
    else
      let k := ctlSize o bs.length
      let r := s.ctlWrite w o k (ofLe (bs.take k))
      match r.1 with
      | some c => Got.bad c r.2
      | none => State.ctlWriteRun r.2 w (o + k) f (bs.drop k)

/-- An access to a cell's store over its aperture (R50, R70, R281, R438). -/
def State.storeAccess (s : State) (x : Ctx) (c o : Nat) (w : Option (List Byte)) (n : Nat) : Got :=
  if !s.ownsCell x.who c then s.refuse
  else if s.fenced c then Got.ok (List.replicate n 0) (s.bump Fd.moduleFenceDropCnt)
  else if s.inReset .cell c then Got.bad cLinkDown (s.bump Fd.moduleRstDropCnt)
  else
    match w with
    | none =>
      let r := s.storeRead c o n
      if r.2.1 then r.2.2.sramUeFault else Got.ok r.1 r.2.2
    | some bs =>
      let r := s.storeWrite c o bs
      if r.1 then r.2.sramUeFault else Got.ok [] r.2

/-- An access to the shared cache (R275, R416). -/
def State.scacheAccess (s : State) (x : Ctx) (o : Nat) (w : Option (List Byte)) (n : Nat) : Got :=
  if !s.ownsSlice x.who (sliceOf o) then s.refuse
  else
    let as := (List.range n).map (fun i => o + i)
    match w with
    | none =>
      let r := s.sramRead .scache as
      if r.2.1 then r.2.2.sramUeFault else Got.ok r.1 r.2.2
    | some bs =>
      let r := s.sramWrite .scache (as.zip bs)
      if r.1 then r.2.sramUeFault else Got.ok [] r.2

/-- An access to n bytes that lie in one line of 64 bytes; holes are counted by the run (R8). -/
def State.pieceAccess (s : State) (x : Ctx) (a : Nat) (w : Option (List Byte)) (n : Nat) : Got :=
  match s.place a with
  | .bulk b => s.bulkAccess x b w n
  | .window _ _ => Got.ok (List.replicate n 0) s
  | .scache o => s.scacheAccess x o w n
  | .store c o => s.storeAccess x c o w n
  | .ctl o => (match w with
    | none => s.ctlReadRun x.who o n n
    | some bs => s.ctlWriteRun x.who o n bs)
  | .hole => Got.ok (List.replicate n 0) s

/-! ## Runs -/

/-- Whether an address lies in the cell-store aperture. -/
def inStores (a : Nat) : Bool := decide (storeBase ≤ a) && decide (a < storeBase + 2 ^ 29)

/-- The address of byte i of a run from a (R69, R144): inside a cell's store it wraps there; a run that enters the cell stores
from below goes on in C000's; else it continues linearly. -/
def byteAddr (a i : Nat) : Nat :=
  if inStores a then (a - storeBase) / 2 ^ 21 * 2 ^ 21 + storeBase + (a % 2 ^ 21 + i) % 2 ^ 21
  else if a < storeBase ∧ storeBase ≤ a + i then storeBase + (a + i - storeBase) % 2 ^ 21
  else (a + i) % 2 ^ 48

/-- The lines that a run of n bytes touches, as offsets into the run and lengths. -/
def linesOf (a : Nat) : Nat → Nat → Nat → List (Nat × Nat)
  | 0, _, _ => []
  | f + 1, i, n =>
    if n ≤ i then []
    else
      let k := min (n - i) (64 - byteAddr a i % 64)
      (i, k) :: linesOf a f (i + k) n

def linesOfRun (a n : Nat) : List (Nat × Nat) := linesOf a (n / 64 + 2) 0 n

/-- The cell in whose store a run from an address wraps (R69), where the issuer may reach it (R48, R281, R438). -/
def State.wrapCell (s : State) (w : Who) (a n : Nat) : Option Nat :=
  let hit := fun (c : Nat) (wrap : Bool) => if wrap && s.ownsCell w c && !s.cellDead c then some c else none
  if inStores a then hit ((a - storeBase) / 2 ^ 21) (wraps (a % 2 ^ 21) n)
  else if a < storeBase then hit 0 (decide (storeBase + 2 ^ 21 < a + n)) else none

/-- Counting a run that wraps in a cell's store (R69), once. -/
def State.countRunWrap (s : State) (w : Who) (a n : Nat) : State :=
  match s.wrapCell w a n with
  | some c => s.bump Fd.cellWrapCnt c
  | none => s

/-- Counting a hole (R8). What one access is, the manual does not say: each run of consecutive lines in holes of one read or one
write counts once (DESIGN CHOICE; log entry 51). -/
def State.countHole (s : State) (a i : Nat) (prevHole : Bool) : State × Bool :=
  match s.place (byteAddr a i) with
  | .hole => (if prevHole then s else s.bump Fd.moduleHoleCnt, true)
  | _ => (s, false)

/-- Reading the lines of a run, up to the first that is refused; the bytes before it are given. -/
def State.readLines (s : State) (x : Ctx) (a : Nat) (hole : Bool) : List (Nat × Nat) → Got
  | [] => Got.ok [] s
  | l :: ls =>
    let h := s.countHole a l.1 hole
    let g := h.1.pieceAccess x (byteAddr a l.1) none l.2
    if g.fault.isSome || g.wait then g
    else
      let r := State.readLines g.st x a h.2 ls
      { r with bytes := g.bytes ++ r.bytes, warn := g.warn <|> r.warn }

/-- Writing the lines of a run, up to the first that is refused; the answer's bytes are those written. -/
def State.writeLines (s : State) (x : Ctx) (a : Nat) (hole : Bool) (bs : List Byte) : List (Nat × Nat) → Got
  | [] => Got.ok [] s
  | l :: ls =>
    let h := s.countHole a l.1 hole
    let g := h.1.pieceAccess x (byteAddr a l.1) (some (sliceB bs l.1 l.2)) l.2
    if g.fault.isSome || g.wait then g
    else
      let r := State.writeLines g.st x a h.2 bs ls
      { r with bytes := sliceB bs l.1 l.2 ++ r.bytes, warn := g.warn <|> r.warn }

/-- Reading n bytes from a local address on, wraps aside (R144). -/
def State.readSpan (s : State) (x : Ctx) (a n : Nat) : Got := s.readLines x (a % 2 ^ 48) false (linesOfRun (a % 2 ^ 48) n)

/-- Writing bytes from a local address on, wraps aside (R144). -/
def State.writeSpan (s : State) (x : Ctx) (a : Nat) (bs : List Byte) : Got :=
  s.writeLines x (a % 2 ^ 48) false bs (linesOfRun (a % 2 ^ 48) bs.length)

/-- Reading n bytes from a local address (R69, R144). -/
def State.globalRead (s : State) (x : Ctx) (a n : Nat) : Got := (s.countRunWrap x.who a n).readSpan x a n

/-- Writing bytes from a local address on (R69, R144). -/
def State.globalWrite (s : State) (x : Ctx) (a : Nat) (bs : List Byte) : Got := (s.countRunWrap x.who a bs.length).writeSpan x a bs

/-- Opening pages for a write, one address in each, so that the write itself does not wait half-way (R361, R367): whether one has to
wait. Pages after one that refuses are not opened. -/
def State.openPages (s : State) (x : Ctx) : List Nat → Bool × State
  | [] => (false, s)
  | a :: as =>
    match s.place a with
    | .bulk b =>
      if tagPermits x.who (s.frame (b / 65536)).tag true then
        match s.route x (b / 65536) true with
        | (.wait, s1) => (true, s1)
        | (.to _, s1) => State.openPages s1 x as
        | (.refuse _, _) => (false, s)
      else (false, s)
    | _ => State.openPages s x as

/-! ## Tinkers: registers, traps -/

/-- A general register; g0 reads as zero (R76). -/
def Tinker.gr (t : Tinker) (r : Nat) : Word := if r = 0 then 0 else Tab.get (fun _ => 0) t.g r

/-- Writing a general register; a write to g0 is discarded (R76). -/
def Tinker.setG (t : Tinker) (r : Nat) (v : Word) : Tinker :=
  if r = 0 then t else { t with g := Tab.set (fun _ => 0) t.g r v }

/-- A predicate register; p0 reads as 0xFF (R76). -/
def Tinker.pr (t : Tinker) (r : Nat) : BitVec 8 := if r = 0 then 0xFF else Tab.get (fun _ => 0) t.p r

/-- Writing a predicate register; a write to p0 is discarded (R76). -/
def Tinker.setP (t : Tinker) (r : Nat) (v : BitVec 8) : Tinker :=
  if r = 0 then t else { t with p := Tab.set (fun _ => 0) t.p r v }

/-- Lane i of a vector register. -/
def Tinker.vr (t : Tinker) (r i : Nat) : Word := Tab.get (fun _ => 0) t.v (8 * r + i)

/-- Writing lane i of a vector register. -/
def Tinker.setV (t : Tinker) (r i : Nat) (v : Word) : Tinker := { t with v := Tab.set (fun _ => 0) t.v (8 * r + i) v }

/-- INTRAP (R77). -/
def Tinker.inTrap (t : Tinker) : Bool := t.cstat.getLsbD 16

/-- Taking a trap (R84): CAUSE, INTRAP, tval and epc are written; the handler runs where there is one and none runs already,
else the Tinker halts with its TRAP bit set. -/
def State.trap (s : State) (k : Nat) (cause : Nat) (tval : Word) : State :=
  let t := s.tinker k
  let t1 := { t with
    cstat := (t.cstat &&& 0x00FEFFFF#32) ||| (BitVec.ofNat 32 (cause * 2 ^ 24)) ||| 0x00010000#32
    tval := tval, epc := t.pc, wait := .none, fetched := [] }
  if t.tvec ≠ 0 ∧ !t.inTrap then s.setTinker k { t1 with pc := t.tvec &&& ~~~3#32 }
  else (((s.setTinker k t1).setRun k false).setTrapBit k)

/-- Returning from a trap (R84). -/
def Tinker.ret (t : Tinker) : Tinker :=
  { t with pc := t.epc &&& ~~~3#32, cstat := t.cstat &&& 0xFFFEFFFF#32, fetched := [] }

/-- Trap causes (R84). -/
def tIllegal : Nat := 1
def tSramDouble : Nat := 2
def tGlobalFault : Nat := 3
def tAtomicAddr : Nat := 4
def tSoft : Nat := 5

/-- Whether a Tinker can execute an instruction: it runs, waits for nothing, and its cell is not fenced or in reset. -/
def State.canRun (s : State) (k : Nat) : Bool :=
  s.running k && !s.cellDead (tkCell k) && decide ((s.tinker k).wait = .none)

/-- Executing an instruction: nothing happens where the Tinker cannot run; an encoding that R86 leaves undefined traps. -/
def State.tkExec (s : State) (k : Nat) (i : Instr) (f : State → State) : State :=
  if !s.canRun k then s
  else if !wellFormed i then s.trap k tIllegal (firstWord i)
  else f s

/-- Going on to the next instruction: the words executed leave the fetch unit (R82). -/
def Tinker.advance (t : Tinker) (len : Nat) : Tinker :=
  { t with pc := t.pc + BitVec.ofNat 32 len, fetched := t.fetched.filter (fun w => decide (len ≤ (w.1 + 2 ^ 32 - t.pc.toNat) % 2 ^ 32)) }

/-- Jumping: bits [1:0] of the pc are always zero (R76). -/
def Tinker.jump (t : Tinker) (target : Word) : Tinker := { t with pc := target &&& ~~~3#32, fetched := [] }

end Sys2Proof.Machine
end

