-- ==== Sys2Proof/Machine/Flags.lean ====
section
/-! DEFINITION. Flags and lane counts of the Tinkers (R77, R78, R101). -/

namespace Sys2Proof.Machine

/-- Setting sticky flags of cstat (R77). -/
def Tinker.addFlags (t : Tinker) (f : FpFlags) : Tinker := { t with cstat := t.cstat ||| (f.setWidth 32) }

/-- Counting lanes (R101): satc, flsc, and narc for NaR operands and results together. -/
def Tinker.addCounts (t : Tinker) (c : Counts) : Tinker :=
  let up := fun (x : Word) (n : Nat) => BitVec.ofNat 32 (satTo (2 ^ 32 - 1) (x.toNat + n))
  { t with satc := up t.satc c.sat, flsc := up t.flsc c.flush, narc := up t.narc (c.narOp + c.narRes) }

/-- TRIM of cstat, signed (R77). -/
def Tinker.trim (t : Tinker) : Int := toSigned 8 (bitsOf t.cstat.toNat 15 8)

/-- Reading a control register (R78); cyc is the low half of the cell's CYCLES. -/
def State.csrRead (s : State) (k : Nat) (csr : Nat) : Word :=
  let t := s.tinker k
  match csr with
  | 0 => t.cstat
  | 1 => t.tvec
  | 2 => t.epc
  | 3 => t.tval
  | 4 => BitVec.ofNat 32 k
  | 5 => BitVec.ofNat 32 (s.fld (Fd.cycles .cell) (tkCell k))
  | 6 => t.satc
  | 7 => t.flsc
  | 8 => t.narc
  | _ => 0

/-- Writing a control register (R78, R108): in cstat only TRIM; a count only clears, by a zero. -/
def Tinker.csrWrite (t : Tinker) (csr : Nat) (v : Word) : Tinker :=
  match csr with
  | 0 => { t with cstat := (t.cstat &&& 0xFFFF00FF#32) ||| (v &&& 0x0000FF00#32) }
  | 1 => { t with tvec := v }
  | 2 => { t with epc := v }
  | 3 => { t with tval := v }
  | 6 => if v = 0 then { t with satc := 0 } else t
  | 7 => if v = 0 then { t with flsc := 0 } else t
  | 8 => if v = 0 then { t with narc := 0 } else t
  | _ => t

/-- Clearing W1C bits of a control register (R108): only cstat has any. -/
def Tinker.csrClear (t : Tinker) (csr : Nat) (v : Word) : Tinker :=
  if csr = 0 then { t with cstat := t.cstat &&& ~~~(v &&& 0x0000000F#32) } else t

end Sys2Proof.Machine
end

