-- ==== Sys2Proof/Machine/Operands.lean ====
section
/-! DEFINITION. The operand forms of the Tinkers' instructions (R79, R80, R85 to R93): registers by field, short and global
addresses, lanes under a predicate, vector elements in memory. -/

namespace Sys2Proof.Machine

/-- A vector register field (R85). -/
def vnum (f : BitVec 5) : Nat := f.toNat % 16

/-- A predicate register field: its low three bits (R85). -/
def pnum (f : BitVec 5) : Nat := f.toNat % 8

/-- The destination predicate of a compare: bits [23:21], the low three bits of its field (R99). -/
def pdnum (f : BitVec 5) : Nat := f.toNat % 8

/-- A scalar instruction that writes one register and goes on. -/
def State.scalarOp (s : State) (k : Nat) (rd : BitVec 5) (f : Tinker → Word) : State :=
  let t := s.tinker k
  s.setTinker k ((t.setG rd.toNat (f t)).advance 4)

/-- A branch by a word offset (R89). -/
def State.branchOp (s : State) (k : Nat) (off : BitVec 16) (taken : Tinker → Bool) : State :=
  let t := s.tinker k
  s.setTinker k (if taken t then t.jump (t.pc + (off.signExtend 32 <<< 2)) else t.advance 4)

/-- The short address rs1 + offset of an M-format access, aligned by its width (R79, R90). -/
def Tinker.shortAddr (t : Tinker) (base : BitVec 5) (off : BitVec 13) (n : Nat) : Nat :=
  (t.gr base.toNat + off.signExtend 32).toNat / n * n

/-- The 48-bit address of a base pair (R80). -/
def Tinker.pairAddr (t : Tinker) (base : BitVec 5) : Nat :=
  let b := base.toNat / 2 * 2
  bitsOf (t.gr (b + 1)).toNat 15 0 * 2 ^ 32 + (t.gr b).toNat

/-- A base pair with a signed offset, modulo 2^48 (R80). -/
def Tinker.globalAddr (t : Tinker) (base : BitVec 5) (off : Int) : Nat :=
  (((t.pairAddr base : Int) + off) % 2 ^ 48).toNat

/-- Whether a short address reaches the local memory (R79). -/
def isLocal (a : Nat) : Bool := decide (a % 2 ^ 22 < 2 ^ 21)

/-- Reading n bytes at a short address (R79): the bytes, a double-bit error, the state. -/
def State.shortRead (s : State) (k a n : Nat) : List Byte × Bool × State :=
  if isLocal a then s.sramRead .local (localAddrs k (a % 2 ^ 15) n)
  else (s.countWrap (tkCell k) (a % 2 ^ 21) n).sramRead .store (storeAddrs (tkCell k) (a % 2 ^ 21) n)

/-- Writing addressed bytes from a short address on, some of them (R79, R91): a double-bit error met by a partial store, and the
state. -/
def State.shortWrite (s : State) (k a n : Nat) (bs : List (Option Byte)) : Bool × State :=
  let addrs := if isLocal a then localAddrs k (a % 2 ^ 15) n else storeAddrs (tkCell k) (a % 2 ^ 21) n
  let z := if isLocal a then s else s.countWrap (tkCell k) (a % 2 ^ 21) n
  let ab := (addrs.zip bs).filterMap (fun p => p.2.map (fun b => (p.1, b)))
  z.sramWrite (if isLocal a then .local else .store) ab

/-- Bytes of an access by its width field (R90). -/
def widthBytes (width : BitVec 2) : Nat := 2 ^ width.toNat

/-- A loaded value, zero- or sign-extended (R90). -/
def extendLoad (u : Bool) (bs : List Byte) : Word :=
  let v := ofLe bs
  if u then BitVec.ofNat 32 v else BitVec.ofInt 32 (toSigned (8 * bs.length) v)

/-- Whether a lane is active (R92). -/
def active (p : BitVec 8) (i : Nat) : Bool := p.getLsbD i

/-- What a lane operation gives: a word, flags and counts. -/
structure Lane where
  w : Word
  f : FpFlags
  c : Counts
  deriving DecidableEq, Repr

def Lane.pure (w : Word) : Lane := ⟨w, 0, Counts.none⟩
def Lane.fp (r : Word × FpFlags) : Lane := ⟨r.1, r.2, Counts.none⟩

/-- A vector operation lane by lane (R92): active lanes write, and add their flags and counts. -/
def State.lanesOp (s : State) (k : Nat) (vd : BitVec 5) (pg : BitVec 3) (op : Tinker → Nat → Lane) : State :=
  let t := s.tinker k
  let p := t.pr pg.toNat
  let t1 := (List.range 8).foldl (fun z i =>
    if active p i then
      let r := op t i
      ((z.setV (vnum vd) i r.w).addFlags r.f).addCounts r.c
    else z) t
  s.setTinker k (t1.advance 4)

/-- A binary vector operation. -/
def State.vecOp2 (s : State) (k : Nat) (vd va vb : BitVec 5) (pg : BitVec 3) (op : Word → Word → Lane) : State :=
  s.lanesOp k vd pg (fun t i => op (t.vr (vnum va) i) (t.vr (vnum vb) i))

/-- A unary vector operation. -/
def State.vecOp1 (s : State) (k : Nat) (vd va : BitVec 5) (pg : BitVec 3) (op : Word → Lane) : State :=
  s.lanesOp k vd pg (fun t i => op (t.vr (vnum va) i))

/-- A compare (R92, R99): the destination predicate receives 0 in inactive lanes. -/
def State.cmpOp (s : State) (k : Nat) (pd va vb : BitVec 5) (pg : BitVec 3) (op : Word → Word → Bool × FpFlags × Counts) : State :=
  let t := s.tinker k
  let p := t.pr pg.toNat
  let rs := (List.range 8).map (fun i =>
    if active p i then op (t.vr (vnum va) i) (t.vr (vnum vb) i) else (false, 0, Counts.none))
  let v := BitVec.ofNat 8 (((List.range 8).map (fun i => if (rs.getD i (false, 0, Counts.none)).1 then 2 ^ i else 0)).foldl (· + ·) 0)
  let t1 := rs.foldl (fun z r => (z.addFlags r.2.1).addCounts r.2.2) t
  s.setTinker k ((t1.setP (pdnum pd) v).advance 4)

/-- A predicate operation; it ignores pg (R99). -/
def State.predOp (s : State) (k : Nat) (pd : BitVec 5) (f : Tinker → BitVec 8) : State :=
  let t := s.tinker k
  s.setTinker k ((t.setP (pdnum pd) (f t)).advance 4)

/-- A reduction in the fixed tree (R100): inactive lanes contribute the identity. -/
def State.reduceOp (s : State) (k : Nat) (gd va : BitVec 5) (pg : BitVec 3) (identity : Word) (op : Word → Word → Lane) : State :=
  let t := s.tinker k
  let p := t.pr pg.toNat
  let x := fun i => if active p i then t.vr (vnum va) i else identity
  let a := op (x 0) (x 1)
  let b := op (x 2) (x 3)
  let c := op (x 4) (x 5)
  let d := op (x 6) (x 7)
  let ab := op a.w b.w
  let cd := op c.w d.w
  let r := op ab.w cd.w
  let t1 := [a, b, c, d, ab, cd, r].foldl (fun z l => (z.addFlags l.f).addCounts l.c) t
  s.setTinker k ((t1.setG gd.toNat r.w).advance 4)

/-! ## Vector elements in memory (R91) -/

/-- Bytes that VLD and VST move by fmt. -/
def vmBytes (fmt : Nat) : Nat := if fmt = 0 then 32 else if fmt = 1 then 4 else if fmt = 2 then 8 else 16

/-- The logarithmic code of a fmt. -/
def vmFmt (fmt : Nat) : Fmt := if fmt = 1 then .l4 else if fmt = 2 then .l8 else .l16

/-- The k of rk[7:0] (R91). -/
def Tinker.kOf (t : Tinker) (rk : BitVec 5) : Int := toSigned 8 ((t.gr rk.toNat).toNat % 256)

/-- The code of lane i in the moved bytes. -/
def vmCode (fmt : Nat) (bs : List Byte) (i : Nat) : Nat :=
  if fmt = 0 then fieldB bs (4 * i) 4
  else if fmt = 1 then (fieldB bs (i / 2) 1) / 16 ^ (i % 2) % 16
  else if fmt = 2 then fieldB bs i 1 else fieldB bs (2 * i) 2

/-- What VLD puts into a lane (R91, R93). -/
def vmLoadLane (fmt : Nat) (k : Int) (code : Nat) : Lane :=
  if fmt = 0 then Lane.pure (BitVec.ofNat 32 code)
  else
    let v := decodeCode (vmFmt fmt) code k
    let r := lxOfVal v
    ⟨r.1, 0, if v = .nar then Counts.oneNarOp else r.2⟩

/-- What VST stores of a lane: the code and its counts, by the log-domain form of the store path (R91). -/
def vmStoreLane (fmt : Nat) (k trim : Int) (w : Word) : Nat × Counts :=
  if fmt = 0 then (w.toNat, Counts.none)
  else
    let f := vmFmt fmt
    match lxVal w with
    | .zero => (zeroCode, Counts.none)
    | .nar => (narCode f, Counts.oneNarRes)
    | .num neg l => codeElem f k neg (roundLogDomain f.g (l * 64 + trim))

/-- Placing a loaded vector into a register (R91, R92). -/
def Tinker.putVector (t : Tinker) (vd pg fmt : Nat) (k : Int) (bs : List Byte) : Tinker :=
  let p := t.pr pg
  (List.range 8).foldl (fun z i =>
    if active p i then
      let r := vmLoadLane fmt k (vmCode fmt bs i)
      (z.setV vd i r.w).addCounts r.c
    else z) t

/-- The lanes that a VST stores (none: inactive), and its counts. -/
def Tinker.storeLanes (t : Tinker) (vs pg fmt : Nat) (k : Int) : List (Option Nat) × Counts :=
  let p := t.pr pg
  let ls := (List.range 8).map (fun i => if active p i then some (vmStoreLane fmt k t.trim (t.vr vs i)) else none)
  (ls.map (fun l => l.map Prod.fst), (ls.filterMap (fun l => l.map Prod.snd)).foldl Counts.add Counts.none)

/-- The bytes that stored lanes replace (none: unchanged); for L4 the old byte supplies the other nibble. -/
def laneBytes (fmt : Nat) (lanes : List (Option Nat)) (old : List Byte) : List (Option Byte) :=
  let lane := fun i => (lanes.getD i none)
  if fmt = 0 then
    (List.range 32).map (fun i => (lane (i / 4)).map (fun v => (leBytes 4 v).getD (i % 4) 0))
  else if fmt = 1 then
    (List.range 4).map (fun j =>
      match lane (2 * j), lane (2 * j + 1) with
      | none, none => none
      | a, b =>
        let o := (old.getD j 0).toNat
        some (BitVec.ofNat 8 (a.getD (o % 16) % 16 + 16 * (b.getD (o / 16) % 16))))
  else if fmt = 2 then (List.range 8).map (fun i => (lane i).map (fun v => BitVec.ofNat 8 v))
  else (List.range 16).map (fun i => (lane (i / 2)).map (fun v => (leBytes 2 v).getD (i % 2) 0))

end Sys2Proof.Machine
end

