-- ==== Sys2Proof/Machine/Scalar.lean ====
section
/-! DEFINITION. The Tinkers' scalar instructions (R87 to R89), jumps and long forms. -/

namespace Sys2Proof.Machine

/-- What a command gives. -/
abbrev Res := Host.Outcome State Fault Refusal

/-- ADD: rs1 + rs2, modulo 2^32 (R88). -/
def execAdd (k : Fin 25600) (rd rs1 rs2 : BitVec 5) (s : State) : Res :=
  .next (s.tkExec k (.add k rd rs1 rs2) (fun z => z.scalarOp k rd (fun t => t.gr rs1.toNat + t.gr rs2.toNat)))

/-- SUB: rs1 - rs2, modulo 2^32 (R88). -/
def execSub (k : Fin 25600) (rd rs1 rs2 : BitVec 5) (s : State) : Res :=
  .next (s.tkExec k (.sub k rd rs1 rs2) (fun z => z.scalarOp k rd (fun t => t.gr rs1.toNat - t.gr rs2.toNat)))

/-- AND: bitwise AND (R88). -/
def execAnd (k : Fin 25600) (rd rs1 rs2 : BitVec 5) (s : State) : Res :=
  .next (s.tkExec k (.and k rd rs1 rs2) (fun z => z.scalarOp k rd (fun t => t.gr rs1.toNat &&& t.gr rs2.toNat)))

/-- OR: bitwise OR (R88). -/
def execOr (k : Fin 25600) (rd rs1 rs2 : BitVec 5) (s : State) : Res :=
  .next (s.tkExec k (.or k rd rs1 rs2) (fun z => z.scalarOp k rd (fun t => t.gr rs1.toNat ||| t.gr rs2.toNat)))

/-- XOR: bitwise exclusive OR (R88). -/
def execXor (k : Fin 25600) (rd rs1 rs2 : BitVec 5) (s : State) : Res :=
  .next (s.tkExec k (.xor k rd rs1 rs2) (fun z => z.scalarOp k rd (fun t => t.gr rs1.toNat ^^^ t.gr rs2.toNat)))

/-- SLL: left shift by rs2[4:0] (R88). -/
def execSll (k : Fin 25600) (rd rs1 rs2 : BitVec 5) (s : State) : Res :=
  .next (s.tkExec k (.sll k rd rs1 rs2) (fun z => z.scalarOp k rd (fun t => t.gr rs1.toNat <<< (t.gr rs2.toNat &&& 31#32).toNat)))

/-- SRL: logical right shift by rs2[4:0] (R88). -/
def execSrl (k : Fin 25600) (rd rs1 rs2 : BitVec 5) (s : State) : Res :=
  .next (s.tkExec k (.srl k rd rs1 rs2) (fun z => z.scalarOp k rd (fun t => t.gr rs1.toNat >>> (t.gr rs2.toNat &&& 31#32).toNat)))

/-- SRA: arithmetic right shift by rs2[4:0] (R88). -/
def execSra (k : Fin 25600) (rd rs1 rs2 : BitVec 5) (s : State) : Res :=
  .next (s.tkExec k (.sra k rd rs1 rs2) (fun z => z.scalarOp k rd (fun t => BitVec.sshiftRight (t.gr rs1.toNat) (t.gr rs2.toNat &&& 31#32).toNat)))

/-- SLT: 1 if rs1 < rs2, signed (R88). -/
def execSlt (k : Fin 25600) (rd rs1 rs2 : BitVec 5) (s : State) : Res :=
  .next (s.tkExec k (.slt k rd rs1 rs2) (fun z => z.scalarOp k rd (fun t => if BitVec.slt (t.gr rs1.toNat) (t.gr rs2.toNat) then 1 else 0)))

/-- SLTU: 1 if rs1 < rs2, unsigned (R88). -/
def execSltu (k : Fin 25600) (rd rs1 rs2 : BitVec 5) (s : State) : Res :=
  .next (s.tkExec k (.sltu k rd rs1 rs2) (fun z => z.scalarOp k rd (fun t => if BitVec.ult (t.gr rs1.toNat) (t.gr rs2.toNat) then 1 else 0)))

/-- MUL: low 32 bits of the product (R88). -/
def execMul (k : Fin 25600) (rd rs1 rs2 : BitVec 5) (s : State) : Res :=
  .next (s.tkExec k (.mul k rd rs1 rs2) (fun z => z.scalarOp k rd (fun t => t.gr rs1.toNat * t.gr rs2.toNat)))

/-- MULH: high 32 bits of the signed product (R88). -/
def execMulh (k : Fin 25600) (rd rs1 rs2 : BitVec 5) (s : State) : Res :=
  .next (s.tkExec k (.mulh k rd rs1 rs2) (fun z => z.scalarOp k rd (fun t => BitVec.ofInt 32 ((t.gr rs1.toNat).toInt * (t.gr rs2.toNat).toInt / 2 ^ 32))))

/-- MULHU: high 32 bits of the unsigned product (R88). -/
def execMulhu (k : Fin 25600) (rd rs1 rs2 : BitVec 5) (s : State) : Res :=
  .next (s.tkExec k (.mulhu k rd rs1 rs2) (fun z => z.scalarOp k rd (fun t => BitVec.ofNat 32 ((t.gr rs1.toNat).toNat * (t.gr rs2.toNat).toNat / 2 ^ 32))))

/-- MIN: signed minimum (R88). -/
def execMin (k : Fin 25600) (rd rs1 rs2 : BitVec 5) (s : State) : Res :=
  .next (s.tkExec k (.min k rd rs1 rs2) (fun z => z.scalarOp k rd (fun t => if BitVec.slt (t.gr rs1.toNat) (t.gr rs2.toNat) then t.gr rs1.toNat else t.gr rs2.toNat)))

/-- MAX: signed maximum (R88). -/
def execMax (k : Fin 25600) (rd rs1 rs2 : BitVec 5) (s : State) : Res :=
  .next (s.tkExec k (.max k rd rs1 rs2) (fun z => z.scalarOp k rd (fun t => if BitVec.slt (t.gr rs1.toNat) (t.gr rs2.toNat) then t.gr rs2.toNat else t.gr rs1.toNat)))

/-- The shift of SHI: imm[6:5] selects SLL, SRL or SRA (R88). -/
def shiftImm (imm : BitVec 16) (x : Word) : Word :=
  let n := imm.toNat % 32
  if imm.toNat / 32 % 4 = 0 then x <<< n else if imm.toNat / 32 % 4 = 1 then x >>> n else BitVec.sshiftRight x n

/-- ADDI: rs1 plus the sign-extended immediate (R88). -/
def execAddi (k : Fin 25600) (rd rs1 : BitVec 5) (imm : BitVec 16) (s : State) : Res :=
  .next (s.tkExec k (.addi k rd rs1 imm) (fun z => z.scalarOp k rd (fun t => t.gr rs1.toNat + imm.signExtend 32)))

/-- ANDI: AND with the zero-extended immediate (R88). -/
def execAndi (k : Fin 25600) (rd rs1 : BitVec 5) (imm : BitVec 16) (s : State) : Res :=
  .next (s.tkExec k (.andi k rd rs1 imm) (fun z => z.scalarOp k rd (fun t => t.gr rs1.toNat &&& imm.setWidth 32)))

/-- ORI: OR with the zero-extended immediate (R88). -/
def execOri (k : Fin 25600) (rd rs1 : BitVec 5) (imm : BitVec 16) (s : State) : Res :=
  .next (s.tkExec k (.ori k rd rs1 imm) (fun z => z.scalarOp k rd (fun t => t.gr rs1.toNat ||| imm.setWidth 32)))

/-- XORI: exclusive OR with the zero-extended immediate (R88). -/
def execXori (k : Fin 25600) (rd rs1 : BitVec 5) (imm : BitVec 16) (s : State) : Res :=
  .next (s.tkExec k (.xori k rd rs1 imm) (fun z => z.scalarOp k rd (fun t => t.gr rs1.toNat ^^^ imm.setWidth 32)))

/-- SLTI: 1 if rs1 is below the sign-extended immediate, signed (R88). -/
def execSlti (k : Fin 25600) (rd rs1 : BitVec 5) (imm : BitVec 16) (s : State) : Res :=
  .next (s.tkExec k (.slti k rd rs1 imm) (fun z => z.scalarOp k rd (fun t => if BitVec.slt (t.gr rs1.toNat) (imm.signExtend 32) then 1 else 0)))

/-- SLTIU: 1 if rs1 is below the sign-extended immediate, unsigned (R88). -/
def execSltiu (k : Fin 25600) (rd rs1 : BitVec 5) (imm : BitVec 16) (s : State) : Res :=
  .next (s.tkExec k (.sltiu k rd rs1 imm) (fun z => z.scalarOp k rd (fun t => if BitVec.ult (t.gr rs1.toNat) (imm.signExtend 32) then 1 else 0)))

/-- SHI: shift by imm[4:0], the kind in imm[6:5] (R88). -/
def execShi (k : Fin 25600) (rd rs1 : BitVec 5) (imm : BitVec 16) (s : State) : Res :=
  .next (s.tkExec k (.shi k rd rs1 imm) (fun z => z.scalarOp k rd (fun t => shiftImm imm (t.gr rs1.toNat))))

/-- LUI: the immediate times 2^16 (R88). -/
def execLui (k : Fin 25600) (rd : BitVec 5) (imm : BitVec 16) (s : State) : Res :=
  .next (s.tkExec k (.lui k rd imm) (fun z => z.scalarOp k rd (fun _ => imm ++ 0#16)))

/-- BEQ: branch where rs1 is equal (R89). -/
def execBeq (k : Fin 25600) (rs1 rs2 : BitVec 5) (off : BitVec 16) (s : State) : Res :=
  .next (s.tkExec k (.beq k rs1 rs2 off) (fun z => z.branchOp k off (fun t => decide (t.gr rs1.toNat = t.gr rs2.toNat))))

/-- BNE: branch where rs1 is not equal (R89). -/
def execBne (k : Fin 25600) (rs1 rs2 : BitVec 5) (off : BitVec 16) (s : State) : Res :=
  .next (s.tkExec k (.bne k rs1 rs2 off) (fun z => z.branchOp k off (fun t => decide (t.gr rs1.toNat ≠ t.gr rs2.toNat))))

/-- BLT: branch where rs1 is below, signed (R89). -/
def execBlt (k : Fin 25600) (rs1 rs2 : BitVec 5) (off : BitVec 16) (s : State) : Res :=
  .next (s.tkExec k (.blt k rs1 rs2 off) (fun z => z.branchOp k off (fun t => BitVec.slt (t.gr rs1.toNat) (t.gr rs2.toNat))))

/-- BGE: branch where rs1 is not below, signed (R89). -/
def execBge (k : Fin 25600) (rs1 rs2 : BitVec 5) (off : BitVec 16) (s : State) : Res :=
  .next (s.tkExec k (.bge k rs1 rs2 off) (fun z => z.branchOp k off (fun t => !BitVec.slt (t.gr rs1.toNat) (t.gr rs2.toNat))))

/-- BLTU: branch where rs1 is below, unsigned (R89). -/
def execBltu (k : Fin 25600) (rs1 rs2 : BitVec 5) (off : BitVec 16) (s : State) : Res :=
  .next (s.tkExec k (.bltu k rs1 rs2 off) (fun z => z.branchOp k off (fun t => BitVec.ult (t.gr rs1.toNat) (t.gr rs2.toNat))))

/-- BGEU: branch where rs1 is not below, unsigned (R89). -/
def execBgeu (k : Fin 25600) (rs1 rs2 : BitVec 5) (off : BitVec 16) (s : State) : Res :=
  .next (s.tkExec k (.bgeu k rs1 rs2 off) (fun z => z.branchOp k off (fun t => !BitVec.ult (t.gr rs1.toNat) (t.gr rs2.toNat))))

/-- The condition of BP: ANY, ALL or NONE of the eight bits (R89). -/
def predCond (cond : BitVec 2) (p : BitVec 8) : Bool :=
  if cond = 0 then decide (p ≠ 0) else if cond = 1 then decide (p = 0xFF) else decide (p = 0)

/-- BP: branch on a predicate (R89). -/
def execBp (k : Fin 25600) (p : BitVec 3) (cond : BitVec 2) (off : BitVec 16) (s : State) : Res :=
  .next (s.tkExec k (.bp k p cond off) (fun z => z.branchOp k off (fun t => predCond cond (t.pr p.toNat))))

/-- A jump that writes a return address (R87, R89). -/
def State.linkJump (s : State) (k : Nat) (rd : BitVec 5) (len : Nat) (target : Tinker → Word) : State :=
  let t := s.tinker k
  s.setTinker k ((t.setG rd.toNat (t.pc + BitVec.ofNat 32 len)).jump (target t))

/-- JAL: writes pc + 4 and jumps by a word offset (R89). -/
def execJal (k : Fin 25600) (rd : BitVec 5) (off : BitVec 21) (s : State) : Res :=
  .next (s.tkExec k (.jal k rd off) (fun z => z.linkJump k rd 4 (fun t => t.pc + (off.signExtend 32 <<< 2))))

/-- JALR: writes pc + 4 and jumps to rs1 plus the immediate, bits [1:0] cleared (R89). -/
def execJalr (k : Fin 25600) (rd rs1 : BitVec 5) (imm : BitVec 16) (s : State) : Res :=
  .next (s.tkExec k (.jalr k rd rs1 imm) (fun z => z.linkJump k rd 4 (fun t => t.gr rs1.toNat + imm.signExtend 32)))

/-- A long form that writes registers and goes on. -/
def State.longOp (s : State) (k : Nat) (f : Tinker → Tinker) : State := s.setTinker k ((f (s.tinker k)).advance 8)

/-- LI: rd = imm32 (R87). -/
def execLi (k : Fin 25600) (rd : BitVec 5) (imm : BitVec 32) (s : State) : Res :=
  .next (s.tkExec k (.li k rd imm) (fun z => z.longOp k (fun t => t.setG rd.toNat imm)))

/-- LIP: the low register of the pair takes imm32, the high one hi16 (R87). -/
def execLip (k : Fin 25600) (rd : BitVec 5) (hi : BitVec 16) (imm : BitVec 32) (s : State) : Res :=
  .next (s.tkExec k (.lip k rd hi imm) (fun z => z.longOp k (fun t => (t.setG (rd.toNat / 2 * 2) imm).setG (rd.toNat / 2 * 2 + 1) (hi.setWidth 32))))

/-- JA: writes pc + 8 and jumps to imm32, bits [1:0] cleared (R87). -/
def execJa (k : Fin 25600) (rd : BitVec 5) (imm : BitVec 32) (s : State) : Res :=
  .next (s.tkExec k (.ja k rd imm) (fun z => z.linkJump k rd 8 (fun _ => imm)))

end Sys2Proof.Machine
end

