-- ==== Sys2Proof/Machine/History.lean ====
section
/-! DEFINITION. Fallback-history records (R37 to R41) and shared-cache words (R102, R104, R120, R122), as the slices perform
them. -/

namespace Sys2Proof.Machine

/-- Bytes of the shared cache: 192 MiB (R7). -/
def scacheSize : Nat := 192 * 2 ^ 20

/-- The offset of a history record: modulo 192 MiB, low 7 bits ignored (R41). -/
def recordOffset (o : Nat) : Nat := o % scacheSize / 128 * 128

/-- A word of the shared cache by a slice: none where it is uncorrectable (R275). -/
def State.sliceWord (s : State) (o : Nat) : Option Nat × State :=
  let r := s.sramRead .scache ((List.range 4).map (fun i => o + i))
  if r.2.1 then (none, r.2.2) else (some (ofLe r.1), r.2.2)

/-- Writing a word by a slice. -/
def State.setSliceWord (s : State) (o v : Nat) : State :=
  (s.sramWrite .scache (((List.range 4).map (fun i => o + i)).zip (leBytes 4 v))).2

/-- A word carried past 0xFFFF_FFFF sets WRAP of its slice and leaves its offset (R104, R122). -/
def State.noteWrap (s : State) (o old add : Nat) : State :=
  if old + add < 2 ^ 32 then s
  else (s.setFld Fd.scacheSliceStatWrap 0 (sliceOf o) 1).setFld Fd.scacheSliceStatLastWrap 0 (sliceOf o) o

/-- Adding to a word modulo 2^32: the old value (R102, R104). -/
def State.addWord (s : State) (o add : Nat) : Option Nat × State :=
  match s.sliceWord o with
  | (none, s1) => (none, s1)
  | (some w, s1) => (some w, (s1.setSliceWord o ((w + add) % 2 ^ 32)).noteWrap o w add)

/-- The fields of a history record (R37). -/
structure Hist where
  cur : Nat
  headroom : Nat
  initExp : Int
  freeze : Bool
  cnt : Nat
  entries : List Nat
  deriving DecidableEq, Repr

/-- A record from its 80 bytes. -/
def Hist.decode (bs : List Byte) : Hist :=
  ⟨fieldB bs 0 1 % 16, fieldB bs 1 1 % 16, toSigned 8 (fieldB bs 2 1), (fieldB bs 3 1).testBit 0, fieldB bs 4 4,
    (List.range 16).map (fun j => fieldB bs (16 + 4 * j) 4)⟩

/-- VALID and MAX of an entry. -/
def histEntry (e : Nat) : Option Int := if e.testBit 31 then some (toSigned 24 (e % 2 ^ 24)) else none

/-- Reading a record at a slice. -/
def State.histRead (s : State) (o : Nat) : Option Hist × State :=
  let r := s.sramRead .scache ((List.range 80).map (fun i => o + i))
  if r.2.1 then (none, r.2.2) else (some (Hist.decode r.1), r.2.2)

/-- The atomic merge into entry CUR (R38); nothing while FREEZE = 1. -/
def State.histMerge (s : State) (off : Nat) (q : Int) : Option Code × State :=
  let o := recordOffset off
  match s.histRead o with
  | (none, s1) => (some cMemUncorrectable, s1)
  | (some h, s1) =>
    if h.freeze then (none, s1)
    else
      let old := h.entries.getD h.cur 0
      let new := match histEntry old with
        | none => clampMax q
        | some m => max m (clampMax q)
      let s2 := s1.setSliceWord (o + 16 + 4 * h.cur) (Nat.lor (old - old % 2 ^ 24) (Nat.lor (2 ^ 31) (ofSigned 24 new)))
      (none, s2.setSliceWord (o + 4) (satTo (2 ^ 32 - 1) (h.cnt + 1)))

/-- The predicted block exponent of a record (R39). -/
def Hist.predict (h : Hist) (f : Fmt) : Int :=
  let others := (List.range 16).filterMap (fun j => if j = h.cur then none else histEntry (h.entries.getD j 0))
  predictExp f (others.foldl (fun m x => optMax m (some x)) none) h.headroom h.initExp

/-- The prediction of the record at an offset. -/
def State.histPredict (s : State) (off : Nat) (f : Fmt) : Option Int × State :=
  match s.histRead (recordOffset off) with
  | (none, s1) => (none, s1)
  | (some h, s1) => (some (h.predict f), s1)

/-! ## Tallies (R120, R122) -/

/-- The shared-cache offset of a shared tally. -/
def State.tallyOff (s : State) (c id : Nat) : Nat := (s.fld Fd.cellTallyBase c / 4 * 4 + 4 * id) % scacheSize

end Sys2Proof.Machine
end

