-- ==== Sys2Proof/Machine/Vector.lean ====
section
/-! DEFINITION. The Tinkers' vector arithmetic, conversions, compares, moves and reductions (R92 to R101). -/

namespace Sys2Proof.Machine

/-! ## Lane operations -/

/-- Counts of the NaR operands of a lane (R96). -/
def narOps (xs : List LVal) : Counts := ⟨0, 0, xs.countP (fun v => decide (v = .nar)), 0⟩

/-- A logarithmic result with the counts of its lane: NaR operands, a NaR created from finite operands, clamps (R93, R96). -/
def logLane (ops : List LVal) (r : LVal) : Lane :=
  let x := lxOfVal r
  let made := decide (r = .nar) && ops.all (fun v => decide (v ≠ .nar))
  ⟨x.1, 0, ((narOps ops).add x.2).add (if made then Counts.oneNarRes else Counts.none)⟩

/-- LMUL of two lanes (R96). -/
def lmulLane (a b : Word) : Lane := logLane [lxVal a, lxVal b] (lmulVal (lxVal a) (lxVal b))

/-- The quotient of two values (R96). -/
def ldivVal (a b : LVal) : LVal :=
  match a, b with
  | .nar, _ => .nar
  | _, .nar => .nar
  | _, .zero => .nar
  | .zero, _ => .zero
  | .num sa la, .num sb lb => .num (sa != sb) (la - lb)

def ldivLane (a b : Word) : Lane := logLane [lxVal a, lxVal b] (ldivVal (lxVal a) (lxVal b))
def laddLane (a b : Word) : Lane := logLane [lxVal a, lxVal b] (lxAdd (lxVal a) (lxVal b))

/-- A value with its sign inverted. -/
def LVal.neg : LVal → LVal
  | .num s l => .num (!s) l
  | v => v

def lsubLane (a b : Word) : Lane := logLane [lxVal a, lxVal b] (lxAdd (lxVal a) (lxVal b).neg)

/-- LHALF (R96). -/
def lhalfVal : LVal → LVal
  | .zero => .zero
  | .nar => .nar
  | .num neg l => if neg then .nar else .num false (roundHE l 2)

def lhalfLane (a : Word) : Lane := logLane [lxVal a] (lhalfVal (lxVal a))

/-- LNEGX (R96). -/
def lnegxVal : LVal → LVal
  | .zero => .nar
  | .nar => .nar
  | .num neg l => .num neg (-l)

def lnegxLane (a : Word) : Lane := logLane [lxVal a] (lnegxVal (lxVal a))

/-- EXP2.X (R97). -/
def exp2XLane (a : Word) : Lane := if a = 0x80000000 then Lane.pure 0 else logLane [] (.num false (roundHE a.toInt 64))

/-- LOG2.X (R97). -/
def log2XLane (a : Word) : Lane :=
  match lxVal a with
  | .zero => Lane.pure 0x80000000
  | .nar => ⟨0x80000000, 0, Counts.oneNarOp⟩
  | .num _ l =>
    if 0x7FFFFFFF < l * 64 then ⟨0x7FFFFFFF, 0, Counts.oneSat⟩
    else if l * 64 < -0x7FFFFFFF then ⟨0x80000001, 0, Counts.oneSat⟩
    else Lane.pure (BitVec.ofInt 32 (l * 64))

/-- F2X (R26, R98): an infinity or a NaN gives a NaR result. -/
def f2xLane (a : Word) : Lane := logLane [] (lvalOfS (fpToS a))

/-- X2F (R26, R98). -/
def x2fLane (a : Word) : Lane :=
  let v := lxVal a
  let r := fpOfLog v
  ⟨r.1, r.2.2, r.2.1.add (narOps [v])⟩

/-- A compare of LX32 values (R99): any NaR makes it false and counts. -/
def lxCmp (rel : Int → Int → Bool) (a b : Word) : Bool × FpFlags × Counts :=
  let x := lxVal a
  let y := lxVal b
  let key := fun (w : Word) (v : LVal) => match v with
    | .num true _ => -((w.toNat % 2 ^ 31 : Nat) : Int)
    | .num false _ => ((w.toNat % 2 ^ 31 : Nat) : Int)
    | _ => 0
  if x = .nar ∨ y = .nar then (false, 0, narOps [x, y]) else (rel (key a x) (key b y), 0, Counts.none)

/-- The larger of two LX32 values; NaR if either is (R100). Neither R100 nor R101 says whether this reduction counts a NaR operand: it
counts none (DESIGN CHOICE; log entry 56). -/
def lxMax (a b : Word) : Lane :=
  if lxVal a = .nar ∨ lxVal b = .nar then Lane.pure 0x80000000
  else if (lxCmp (fun x y => decide (x < y)) a b).1 then Lane.pure b else Lane.pure a

/-- VFADD: FP32 addition (R94). -/
def execVfadd (k : Fin 25600) (vd va vb : BitVec 5) (pg : BitVec 3) (s : State) : Res :=
  .next (s.tkExec k (.vfadd k vd va vb pg) (fun z => z.vecOp2 k vd va vb pg (fun a b => Lane.fp (fpAdd .ne a b))))

/-- VFSUB: FP32 subtraction (R94). -/
def execVfsub (k : Fin 25600) (vd va vb : BitVec 5) (pg : BitVec 3) (s : State) : Res :=
  .next (s.tkExec k (.vfsub k vd va vb pg) (fun z => z.vecOp2 k vd va vb pg (fun a b => Lane.fp (fpSub .ne a b))))

/-- VFMUL: FP32 multiplication (R94). -/
def execVfmul (k : Fin 25600) (vd va vb : BitVec 5) (pg : BitVec 3) (s : State) : Res :=
  .next (s.tkExec k (.vfmul k vd va vb pg) (fun z => z.vecOp2 k vd va vb pg (fun a b => Lane.fp (fpMul .ne a b))))

/-- VFMIN: FP32 minimum (R94). -/
def execVfmin (k : Fin 25600) (vd va vb : BitVec 5) (pg : BitVec 3) (s : State) : Res :=
  .next (s.tkExec k (.vfmin k vd va vb pg) (fun z => z.vecOp2 k vd va vb pg (fun a b => Lane.fp (fpMinMax false a b))))

/-- VFMAX: FP32 maximum (R94). -/
def execVfmax (k : Fin 25600) (vd va vb : BitVec 5) (pg : BitVec 3) (s : State) : Res :=
  .next (s.tkExec k (.vfmax k vd va vb pg) (fun z => z.vecOp2 k vd va vb pg (fun a b => Lane.fp (fpMinMax true a b))))

/-- VADD: addition modulo 2^32 (R95). -/
def execVadd (k : Fin 25600) (vd va vb : BitVec 5) (pg : BitVec 3) (s : State) : Res :=
  .next (s.tkExec k (.vadd k vd va vb pg) (fun z => z.vecOp2 k vd va vb pg (fun a b => Lane.pure (a + b))))

/-- VSUB: subtraction modulo 2^32 (R95). -/
def execVsub (k : Fin 25600) (vd va vb : BitVec 5) (pg : BitVec 3) (s : State) : Res :=
  .next (s.tkExec k (.vsub k vd va vb pg) (fun z => z.vecOp2 k vd va vb pg (fun a b => Lane.pure (a - b))))

/-- VMUL: low 32 bits of the product (R95). -/
def execVmul (k : Fin 25600) (vd va vb : BitVec 5) (pg : BitVec 3) (s : State) : Res :=
  .next (s.tkExec k (.vmul k vd va vb pg) (fun z => z.vecOp2 k vd va vb pg (fun a b => Lane.pure (a * b))))

/-- VAND: bitwise AND (R95). -/
def execVand (k : Fin 25600) (vd va vb : BitVec 5) (pg : BitVec 3) (s : State) : Res :=
  .next (s.tkExec k (.vand k vd va vb pg) (fun z => z.vecOp2 k vd va vb pg (fun a b => Lane.pure (a &&& b))))

/-- VOR: bitwise OR (R95). -/
def execVor (k : Fin 25600) (vd va vb : BitVec 5) (pg : BitVec 3) (s : State) : Res :=
  .next (s.tkExec k (.vor k vd va vb pg) (fun z => z.vecOp2 k vd va vb pg (fun a b => Lane.pure (a ||| b))))

/-- VXOR: bitwise exclusive OR (R95). -/
def execVxor (k : Fin 25600) (vd va vb : BitVec 5) (pg : BitVec 3) (s : State) : Res :=
  .next (s.tkExec k (.vxor k vd va vb pg) (fun z => z.vecOp2 k vd va vb pg (fun a b => Lane.pure (a ^^^ b))))

/-- VSLL: left shift by vb[4:0] (R95). -/
def execVsll (k : Fin 25600) (vd va vb : BitVec 5) (pg : BitVec 3) (s : State) : Res :=
  .next (s.tkExec k (.vsll k vd va vb pg) (fun z => z.vecOp2 k vd va vb pg (fun a b => Lane.pure (a <<< (b.toNat % 32)))))

/-- VSRL: logical right shift by vb[4:0] (R95). -/
def execVsrl (k : Fin 25600) (vd va vb : BitVec 5) (pg : BitVec 3) (s : State) : Res :=
  .next (s.tkExec k (.vsrl k vd va vb pg) (fun z => z.vecOp2 k vd va vb pg (fun a b => Lane.pure (a >>> (b.toNat % 32)))))

/-- VSRA: arithmetic right shift by vb[4:0] (R95). -/
def execVsra (k : Fin 25600) (vd va vb : BitVec 5) (pg : BitVec 3) (s : State) : Res :=
  .next (s.tkExec k (.vsra k vd va vb pg) (fun z => z.vecOp2 k vd va vb pg (fun a b => Lane.pure (BitVec.sshiftRight a (b.toNat % 32)))))

/-- VMIN: signed minimum (R95). -/
def execVmin (k : Fin 25600) (vd va vb : BitVec 5) (pg : BitVec 3) (s : State) : Res :=
  .next (s.tkExec k (.vmin k vd va vb pg) (fun z => z.vecOp2 k vd va vb pg (fun a b => Lane.pure (if BitVec.slt a b then a else b))))

/-- VMAX: signed maximum (R95). -/
def execVmax (k : Fin 25600) (vd va vb : BitVec 5) (pg : BitVec 3) (s : State) : Res :=
  .next (s.tkExec k (.vmax k vd va vb pg) (fun z => z.vecOp2 k vd va vb pg (fun a b => Lane.pure (if BitVec.slt a b then b else a))))

/-- LMUL: LX32 multiplication (R96). -/
def execLmul (k : Fin 25600) (vd va vb : BitVec 5) (pg : BitVec 3) (s : State) : Res :=
  .next (s.tkExec k (.lmul k vd va vb pg) (fun z => z.vecOp2 k vd va vb pg lmulLane))

/-- LDIV: LX32 division (R96). -/
def execLdiv (k : Fin 25600) (vd va vb : BitVec 5) (pg : BitVec 3) (s : State) : Res :=
  .next (s.tkExec k (.ldiv k vd va vb pg) (fun z => z.vecOp2 k vd va vb pg ldivLane))

/-- LADD: LX32 addition (R96). -/
def execLadd (k : Fin 25600) (vd va vb : BitVec 5) (pg : BitVec 3) (s : State) : Res :=
  .next (s.tkExec k (.ladd k vd va vb pg) (fun z => z.vecOp2 k vd va vb pg laddLane))

/-- LSUB: LX32 subtraction (R96). -/
def execLsub (k : Fin 25600) (vd va vb : BitVec 5) (pg : BitVec 3) (s : State) : Res :=
  .next (s.tkExec k (.lsub k vd va vb pg) (fun z => z.vecOp2 k vd va vb pg lsubLane))

/-- VFMA: va × vb + vd, rounded once (R94). -/
def execVfma (k : Fin 25600) (vd va vb : BitVec 5) (pg : BitVec 3) (s : State) : Res :=
  .next (s.tkExec k (.vfma k vd va vb pg) (fun z => z.lanesOp k vd pg (fun t i =>
    Lane.fp (fpFma .ne (t.vr (vnum va) i) (t.vr (vnum vb) i) (t.vr (vnum vd) i)))))

/-- VFABS: sign cleared (R94). -/
def execVfabs (k : Fin 25600) (vd va : BitVec 5) (pg : BitVec 3) (s : State) : Res :=
  .next (s.tkExec k (.vfabs k vd va pg) (fun z => z.vecOp1 k vd va pg (fun a => Lane.pure (fpAbs a))))

/-- VFNEG: sign inverted (R94). -/
def execVfneg (k : Fin 25600) (vd va : BitVec 5) (pg : BitVec 3) (s : State) : Res :=
  .next (s.tkExec k (.vfneg k vd va pg) (fun z => z.vecOp1 k vd va pg (fun a => Lane.pure (fpNeg a))))

/-- LHALF: half the logarithm (R96). -/
def execLhalf (k : Fin 25600) (vd va : BitVec 5) (pg : BitVec 3) (s : State) : Res :=
  .next (s.tkExec k (.lhalf k vd va pg) (fun z => z.vecOp1 k vd va pg lhalfLane))

/-- LNEGX: negated logarithm (R96). -/
def execLnegx (k : Fin 25600) (vd va : BitVec 5) (pg : BitVec 3) (s : State) : Res :=
  .next (s.tkExec k (.lnegx k vd va pg) (fun z => z.vecOp1 k vd va pg lnegxLane))

/-- F2X: FP32 to LX32 (R98). -/
def execF2x (k : Fin 25600) (vd va : BitVec 5) (pg : BitVec 3) (s : State) : Res :=
  .next (s.tkExec k (.f2x k vd va pg) (fun z => z.vecOp1 k vd va pg f2xLane))

/-- X2F: LX32 to FP32 (R98). -/
def execX2f (k : Fin 25600) (vd va : BitVec 5) (pg : BitVec 3) (s : State) : Res :=
  .next (s.tkExec k (.x2f k vd va pg) (fun z => z.vecOp1 k vd va pg x2fLane))

/-- F2I: FP32 to INT32 (R98). -/
def execF2i (k : Fin 25600) (vd va : BitVec 5) (pg : BitVec 3) (s : State) : Res :=
  .next (s.tkExec k (.f2i k vd va pg) (fun z => z.vecOp1 k vd va pg (fun a => Lane.fp (fpToInt 0 0 a))))

/-- I2F: INT32 to FP32 (R98). -/
def execI2f (k : Fin 25600) (vd va : BitVec 5) (pg : BitVec 3) (s : State) : Res :=
  .next (s.tkExec k (.i2f k vd va pg) (fun z => z.vecOp1 k vd va pg (fun a => Lane.fp (fpOfInt 0 a))))

/-- Q2F: Q15.16 to FP32 (R98). -/
def execQ2f (k : Fin 25600) (vd va : BitVec 5) (pg : BitVec 3) (s : State) : Res :=
  .next (s.tkExec k (.q2f k vd va pg) (fun z => z.vecOp1 k vd va pg (fun a => Lane.fp (fpOfInt 16 a))))

/-- F2Q: FP32 to Q15.16 (R98). -/
def execF2q (k : Fin 25600) (vd va : BitVec 5) (pg : BitVec 3) (s : State) : Res :=
  .next (s.tkExec k (.f2q k vd va pg) (fun z => z.vecOp1 k vd va pg (fun a => Lane.fp (fpToInt 16 0x80000000 a))))

/-- VMV: vd = va (R100). -/
def execVmv (k : Fin 25600) (vd va : BitVec 5) (pg : BitVec 3) (s : State) : Res :=
  .next (s.tkExec k (.vmv k vd va pg) (fun z => z.vecOp1 k vd va pg Lane.pure))

/-- exp2X: Q15.16 to an LX32 power of two; XC is ignored (R97). -/
def execExp2X (k : Fin 25600) (vd va : BitVec 5) (pg : BitVec 3) (xc : Bool) (s : State) : Res :=
  .next (s.tkExec k (.exp2X k vd va pg xc) (fun z => z.vecOp1 k vd va pg exp2XLane))

/-- log2X: LX32 logarithm in Q15.16; XC is ignored (R97). -/
def execLog2X (k : Fin 25600) (vd va : BitVec 5) (pg : BitVec 3) (xc : Bool) (s : State) : Res :=
  .next (s.tkExec k (.log2X k vd va pg xc) (fun z => z.vecOp1 k vd va pg log2XLane))

/-- exp2F: FP32 power of two (R148, R151). -/
def execExp2F (k : Fin 25600) (vd va : BitVec 5) (pg : BitVec 3) (xc : Bool) (s : State) : Res :=
  .next (s.tkExec k (.exp2F k vd va pg xc) (fun z => z.vecOp1 k vd va pg (fun a => Lane.fp (fpExp2 xc a))))

/-- log2F: FP32 logarithm (R149, R151). -/
def execLog2F (k : Fin 25600) (vd va : BitVec 5) (pg : BitVec 3) (xc : Bool) (s : State) : Res :=
  .next (s.tkExec k (.log2F k vd va pg xc) (fun z => z.vecOp1 k vd va pg (fun a => Lane.fp (fpLog2 xc a))))

/-- FEQ: FP32 equal (R99). -/
def execFeq (k : Fin 25600) (pd va vb : BitVec 5) (pg : BitVec 3) (s : State) : Res :=
  .next (s.tkExec k (.feq k pd va vb pg) (fun z => z.cmpOp k pd va vb pg (fun a b => let r := fpEq a b; (r.1, r.2, Counts.none))))

/-- FLT: FP32 below (R99). -/
def execFlt (k : Fin 25600) (pd va vb : BitVec 5) (pg : BitVec 3) (s : State) : Res :=
  .next (s.tkExec k (.flt k pd va vb pg) (fun z => z.cmpOp k pd va vb pg (fun a b => let r := fpLt false a b; (r.1, r.2, Counts.none))))

/-- FLE: FP32 not above (R99). -/
def execFle (k : Fin 25600) (pd va vb : BitVec 5) (pg : BitVec 3) (s : State) : Res :=
  .next (s.tkExec k (.fle k pd va vb pg) (fun z => z.cmpOp k pd va vb pg (fun a b => let r := fpLt true a b; (r.1, r.2, Counts.none))))

/-- IEQ: integer equal (R99). -/
def execIeq (k : Fin 25600) (pd va vb : BitVec 5) (pg : BitVec 3) (s : State) : Res :=
  .next (s.tkExec k (.ieq k pd va vb pg) (fun z => z.cmpOp k pd va vb pg (fun a b => (decide (a = b), 0, Counts.none))))

/-- ILT: signed below (R99). -/
def execIlt (k : Fin 25600) (pd va vb : BitVec 5) (pg : BitVec 3) (s : State) : Res :=
  .next (s.tkExec k (.ilt k pd va vb pg) (fun z => z.cmpOp k pd va vb pg (fun a b => (BitVec.slt a b, 0, Counts.none))))

/-- ILTU: unsigned below (R99). -/
def execIltu (k : Fin 25600) (pd va vb : BitVec 5) (pg : BitVec 3) (s : State) : Res :=
  .next (s.tkExec k (.iltu k pd va vb pg) (fun z => z.cmpOp k pd va vb pg (fun a b => (BitVec.ult a b, 0, Counts.none))))

/-- LEQ: LX32 equal (R99). -/
def execLeq (k : Fin 25600) (pd va vb : BitVec 5) (pg : BitVec 3) (s : State) : Res :=
  .next (s.tkExec k (.leq k pd va vb pg) (fun z => z.cmpOp k pd va vb pg (lxCmp (fun x y => decide (x = y)))))

/-- LLT: LX32 below (R99). -/
def execLlt (k : Fin 25600) (pd va vb : BitVec 5) (pg : BitVec 3) (s : State) : Res :=
  .next (s.tkExec k (.llt k pd va vb pg) (fun z => z.cmpOp k pd va vb pg (lxCmp (fun x y => decide (x < y)))))

/-- LLE: LX32 not above (R99). -/
def execLle (k : Fin 25600) (pd va vb : BitVec 5) (pg : BitVec 3) (s : State) : Res :=
  .next (s.tkExec k (.lle k pd va vb pg) (fun z => z.cmpOp k pd va vb pg (lxCmp (fun x y => decide (x ≤ y)))))

/-- PAND of two predicates (R99). -/
def execPand (k : Fin 25600) (pd pa pb : BitVec 5) (s : State) : Res :=
  .next (s.tkExec k (.pand k pd pa pb) (fun z => z.predOp k pd (fun t => t.pr (pnum pa) &&& t.pr (pnum pb))))

/-- POR of two predicates (R99). -/
def execPor (k : Fin 25600) (pd pa pb : BitVec 5) (s : State) : Res :=
  .next (s.tkExec k (.por k pd pa pb) (fun z => z.predOp k pd (fun t => t.pr (pnum pa) ||| t.pr (pnum pb))))

/-- PXOR of two predicates (R99). -/
def execPxor (k : Fin 25600) (pd pa pb : BitVec 5) (s : State) : Res :=
  .next (s.tkExec k (.pxor k pd pa pb) (fun z => z.predOp k pd (fun t => t.pr (pnum pa) ^^^ t.pr (pnum pb))))

/-- PNOT: a predicate inverted (R99). -/
def execPnot (k : Fin 25600) (pd pa : BitVec 5) (s : State) : Res :=
  .next (s.tkExec k (.pnot k pd pa) (fun z => z.predOp k pd (fun t => ~~~(t.pr (pnum pa)))))

/-- VBCAST: every active lane receives a general register (R100). -/
def execVbcast (k : Fin 25600) (vd ga : BitVec 5) (pg : BitVec 3) (s : State) : Res :=
  .next (s.tkExec k (.vbcast k vd ga pg) (fun z => z.lanesOp k vd pg (fun t _ => Lane.pure (t.gr ga.toNat))))

/-- VEXT: one lane into a general register; pg is ignored (R100). -/
def execVext (k : Fin 25600) (gd va : BitVec 5) (lane : BitVec 3) (s : State) : Res :=
  .next (s.tkExec k (.vext k gd va lane) (fun z => z.scalarOp k gd (fun t => t.vr (vnum va) lane.toNat)))

/-- PTOG: a predicate, zero-extended, into a general register (R100). -/
def execPtog (k : Fin 25600) (gd pa : BitVec 5) (s : State) : Res :=
  .next (s.tkExec k (.ptog k gd pa) (fun z => z.scalarOp k gd (fun t => (t.pr (pnum pa)).setWidth 32)))

/-- GTOP: bits [7:0] of a general register into a predicate (R100). -/
def execGtop (k : Fin 25600) (pd ga : BitVec 5) (s : State) : Res :=
  .next (s.tkExec k (.gtop k pd ga) (fun z => z.setTinker k (((z.tinker k).setP (pnum pd) (((z.tinker k).gr ga.toNat).setWidth 8)).advance 4)))

/-- VFRSUM: FP32 sum of the lanes (R100). -/
def execVfrsum (k : Fin 25600) (gd va : BitVec 5) (pg : BitVec 3) (s : State) : Res :=
  .next (s.tkExec k (.vfrsum k gd va pg) (fun z => z.reduceOp k gd va pg 0 (fun a b => Lane.fp (fpAdd .ne a b))))

/-- VFRMAX: FP32 maximum of the lanes (R100). -/
def execVfrmax (k : Fin 25600) (gd va : BitVec 5) (pg : BitVec 3) (s : State) : Res :=
  .next (s.tkExec k (.vfrmax k gd va pg) (fun z => z.reduceOp k gd va pg 0xFF800000 (fun a b => Lane.fp (fpMinMax true a b))))

/-- VIRSUM: INT32 sum of the lanes (R100). -/
def execVirsum (k : Fin 25600) (gd va : BitVec 5) (pg : BitVec 3) (s : State) : Res :=
  .next (s.tkExec k (.virsum k gd va pg) (fun z => z.reduceOp k gd va pg 0 (fun a b => Lane.pure (a + b))))

/-- VLRMAX: LX32 maximum of the lanes (R100). -/
def execVlrmax (k : Fin 25600) (gd va : BitVec 5) (pg : BitVec 3) (s : State) : Res :=
  .next (s.tkExec k (.vlrmax k gd va pg) (fun z => z.reduceOp k gd va pg 0 lxMax))

end Sys2Proof.Machine
end

