-- ==== Sys2Proof/Machine/TinkerMem.lean ====
section
/-! DEFINITION. The Tinkers' memory instructions, atomics, history and system instructions, stream issue and fetching (R79 to
R84, R90, R91, R102, R105 to R108), and the operations of the shared-cache slices (R103, R122). -/

namespace Sys2Proof.Machine

/-! ## Accesses by bytes -/

/-- Splitting ascending offsets into runs: first offset and length. -/
def runsOf : List Nat → List (Nat × Nat)
  | [] => []
  | x :: xs =>
    match runsOf xs with
    | (y, n) :: rs => if y = x + 1 then (x, n + 1) :: rs else (x, 1) :: (y, n) :: rs
    | [] => [(x, 1)]

/-- The lanes that byte i of a vector access holds, by fmt. -/
def lanesOfByte (fmt i : Nat) : List Nat :=
  if fmt = 0 then [i / 4] else if fmt = 1 then [2 * i, 2 * i + 1] else if fmt = 2 then [i] else [i / 2]

/-- The bytes that the active lanes reach (R91). -/
def activeBytes (fmt : Nat) (p : BitVec 8) : List Nat :=
  (List.range (vmBytes fmt)).filter (fun i => (lanesOfByte fmt i).any (active p))

/-- The context of a Tinker's accesses (R281, R367). -/
def State.tkCtx (s : State) (k : Nat) : Ctx := ⟨s.cellWho (tkCell k), some (tkCell k), none, none, none⟩

/-- Memory put back where an access of a trapping instruction was refused part of the way (R84); what its reads counted stays (R264). -/
def State.undoMem (t s : State) : State :=
  { t with
    bulk := s.bulk, scache := s.scache, stores := s.stores, locals := s.locals, sramErr := s.sramErr
    stk := { t.stk with bursts := s.stk.bursts } }

/-- Reading runs of an access from a global address: the bytes in place, zero elsewhere. -/
def State.readRuns (s : State) (x : Ctx) (a n : Nat) : List (Nat × Nat) → Got
  | [] => Got.ok (List.replicate n 0) s
  | r :: rs =>
    let g := s.globalRead x (byteAddr a r.1) r.2
    if g.fault.isSome then g
    else
      let h := State.readRuns g.st x a n rs
      { h with bytes := h.bytes.take r.1 ++ g.bytes ++ h.bytes.drop (r.1 + r.2) }

/-- Writing runs of an access. -/
def State.writeRuns (s : State) (x : Ctx) (a : Nat) (bs : List Byte) : List (Nat × Nat) → Got
  | [] => Got.ok [] s
  | r :: rs =>
    let g := s.globalWrite x (byteAddr a r.1) (sliceB bs r.1 r.2)
    if g.fault.isSome || g.wait then g else State.writeRuns g.st x a bs rs

/-- Performing an access at its target: the answer that returns to the Tinker (R110): a code and bytes. -/
def State.perform (s : State) (k : Nat) (a : TkAcc) : (Code × List Byte) × State :=
  let x := s.tkCtx k
  let fin := fun (g : Got) => match g.fault with
    | some c => ((c, ([] : List Byte)), g.st.undoMem s)
    | none => ((cOK, g.bytes), g.st)
  let word := fun (f : Nat → Option Nat) =>
    if !s.ownsSlice x.who (sliceOf a.addr) then ((cPageOwner, ([] : List Byte)), s.bump Fd.poolOwnerFaultCnt)
    else
      match s.sliceWord a.addr with
      | (none, s1) => ((cMemUncorrectable, []), s1)
      | (some w, s1) => ((cOK, leBytes 4 w), match f w with
        | some v => s1.setSliceWord a.addr (v % 2 ^ 32)
        | none => s1)
  match a.op with
  | .load n _ => fin (s.globalRead x a.addr n)
  | .store bs => fin (s.globalWrite x a.addr bs)
  | .vload _ pg fmt _ => fin (s.readRuns x a.addr (vmBytes fmt) (runsOf (activeBytes fmt ((s.tinker k).pr pg))))
  | .vstore fmt lanes _ =>
    let need := (List.range (vmBytes fmt)).filter (fun i => (lanesOfByte fmt i).any (fun l => (lanes.getD l none).isSome))
    -- an L4 byte of which one nibble stays is read for it
    let old : Got := if fmt = 1 then s.readRuns x a.addr (vmBytes fmt) (runsOf need) else Got.ok [] s
    if old.fault.isSome then fin old
    else
      let bs := (laneBytes fmt lanes old.bytes).map (fun b => b.getD 0)
      fin (old.st.writeRuns x a.addr bs (runsOf need))
  | .fai =>
    let r := word (fun w => some (w + 1))
    (r.1, if r.1.1 = cOK then r.2.noteWrap a.addr (ofLe r.1.2) 1 else r.2)
  | .faa v =>
    let r := word (fun w => some (w + v.toNat))
    (r.1, if r.1.1 = cOK then r.2.noteWrap a.addr (ofLe r.1.2) v.toNat else r.2)
  | .cas cmp new => word (fun w => if w = cmp.toNat then some new.toNat else none)
  | .hmerge q =>
    let o := recordOffset a.addr
    if !s.ownsSlice x.who (sliceOf o) then ((cPageOwner, []), s.bump Fd.poolOwnerFaultCnt)
    else
      match s.histMerge o q with
      | (some c, s1) => ((c, []), s1)
      | (none, s1) => ((cOK, leBytes 4 0), s1)
  | .hpred fmt =>
    let o := recordOffset a.addr
    if !s.ownsSlice x.who (sliceOf o) then ((cPageOwner, []), s.bump Fd.poolOwnerFaultCnt)
    else
      match s.histPredict o (Fmt.ofField fmt) with
      | (none, s1) => ((cMemUncorrectable, []), s1)
      | (some q, s1) => ((cOK, leBytes 4 (ofSigned 32 q)), s1)

/-- A request arrives at its slice (R103). -/
def State.arrive (s : State) (z : SliceReq) : State := { s with slices := s.slices ++ [z] }

/-- The request of a Tinker at a slice: Tinkers rank first, by global index (R103). -/
def State.tkRequest (s : State) (k o : Nat) : SliceReq :=
  { slice := sliceOf o, arrival := s.fld (Fd.cycles .scache), cls := 1, rank := k, off := o, op := .tinker k }

/-- Issuing a load, atomic or history access (R80, R103): one to the shared cache goes to its slice and waits its turn there; any
other is performed, and its answer returns. -/
def State.issueAccess (s : State) (k : Nat) (a : TkAcc) : State :=
  match placeOf a.addr with
  | .scache o => (s.onTinker k (fun t => { t with wait := .access { a with addr := o } })).arrive (s.tkRequest k o)
  | _ =>
    let r := s.perform k a
    r.2.onTinker k (fun t => { t with wait := .access { a with answer := some r.1 } })

/-- A Tinker goes past a store that it has issued (R81). -/
def Tinker.passStore (t : Tinker) (a : TkAcc) : Tinker :=
  Tinker.advance { t with stores := t.stores ++ [TkStore.mk t.pc a] } 4

/-- Issuing a global store (R80, R81, R103): the Tinker goes on, and the answer comes by GLOBAL_ACCESS_RESPONSE. -/
def State.issueStore (s : State) (k : Nat) (a : TkAcc) : State :=
  match placeOf a.addr with
  | .scache o => (s.onTinker k (fun t => t.passStore { a with addr := o })).arrive (s.tkRequest k o)
  | _ =>
    let r := s.perform k a
    r.2.onTinker k (fun t => t.passStore { a with answer := some r.1 })

/-- The global address of an access that its slice performs. -/
def scacheAddr (o : Nat) : Nat := 0x200000000000 + o

/-- Performing an access at its slice, by its offset. -/
def State.performAt (s : State) (k : Nat) (a : TkAcc) : (Code × List Byte) × State :=
  let flat := match a.op with
    | .fai => true
    | .faa _ => true
    | .cas _ _ => true
    | .hmerge _ => true
    | .hpred _ => true
    | _ => false
  s.perform k (if flat then a else { a with addr := scacheAddr a.addr })

/-- Whether a store waits at its slice at an offset. -/
def TkStore.waitsAt (x : TkStore) (off : Nat) : Bool := x.acc.answer.isNone && decide (x.acc.addr = off)

/-- The oldest store that waits at an offset is answered. -/
def answerStore (off : Nat) (r : Code × List Byte) : List TkStore → List TkStore
  | [] => []
  | x :: xs => if x.waitsAt off then { x with acc := { x.acc with answer := some r } } :: xs else x :: answerStore off r xs

/-- Performing a waiting access of a Tinker at its slice: its oldest at the offset (R81). -/
def State.sliceTinker (s : State) (k off : Nat) : State :=
  match (s.tinker k).stores.find? (fun x => x.waitsAt off) with
  | some x =>
    let r := s.performAt k x.acc
    r.2.onTinker k (fun t => { t with stores := answerStore off r.1 t.stores })
  | none =>
    match (s.tinker k).wait with
    | .access a =>
      if a.answer.isSome || decide (a.addr ≠ off) then s
      else
        let r := s.performAt k a
        r.2.onTinker k (fun t => { t with wait := .access { a with answer := some r.1 } })
    | _ => s

/-- The grant of a consume request (R122): the word is decremented and the waiting head may start. -/
def State.sliceConsume (s : State) (c q seq o : Nat) : State :=
  match s.sliceWord o with
  | (some w, s1) =>
    let s2 := s1.setSliceWord o (w - 1)
    s2.setQueue c q ((s2.queue c q).map (fun (e : QEnt) => if e.seq = seq then { e with tallyTaken := true } else e))
  | (none, s1) => s1

/-- Whether a waiting request can be performed: a consume request only on a word that is not zero (R122). -/
def State.sliceReady (s : State) (z : SliceReq) : Bool :=
  match z.op with
  | .tinker _ => true
  | .produce _ _ => true
  | .consume _ _ _ => (match (s.sliceWord z.off).1 with
    | some w => decide (w ≠ 0)
    | none => false)

/-- When a request counts as arrived: a held consume request ranks with those of the present network cycle (R122). -/
def State.sliceTime (s : State) (z : SliceReq) : Nat :=
  match z.op with
  | .tinker _ => z.arrival
  | .produce _ _ => z.arrival
  | .consume _ _ _ => s.fld (Fd.cycles .scache)

/-- The request that a slice performs next: the earliest arrival, then the order of R103. -/
def State.nextSlice (s : State) (sl : Nat) : Option SliceReq :=
  (s.slices.filter (fun z => decide (z.slice = sl) && s.sliceReady z)).foldl (fun (b : Option SliceReq) z =>
    match b with
    | none => some z
    | some y =>
      let ky := (s.sliceTime y, y.cls, y.rank)
      let kz := (s.sliceTime z, z.cls, z.rank)
      if kz.1 < ky.1 ∨ (kz.1 = ky.1 ∧ (kz.2.1 < ky.2.1 ∨ (kz.2.1 = ky.2.1 ∧ kz.2.2 < ky.2.2))) then some z else some y) none

/-- One operation of a slice (R103). -/
def State.sliceOp (s : State) (sl : Nat) : State :=
  match s.nextSlice sl with
  | none => s
  | some z =>
    let s1 := { s with slices := s.slices.erase z }
    match z.op with
    | .tinker k => s1.sliceTinker k z.off
    | .produce _ _ => (s1.addWord z.off 1).2
    | .consume c q seq => s1.sliceConsume c q seq z.off

/-- What waits at a slice and can be performed, in order. -/
def State.drainSlice (s : State) (sl : Nat) : Nat → State
  | 0 => s
  | n + 1 => if (s.nextSlice sl).isNone then s else (s.sliceOp sl).drainSlice sl n

/-- The slices that n bytes from an offset of the shared cache touch. -/
def slicesOf (o n : Nat) : List Nat :=
  if n = 0 then [] else ((List.range (min 64 ((o + n - 1) / 4096 + 1 - o / 4096))).map (fun i => (o / 4096 + i) % 64))

/-- Before an access of a Carter, the Weaver or an Ethernet port to n bytes of the shared cache from an offset, its slices perform what
arrived earlier or ranks first (R103). -/
def State.slicesFirst (s : State) (o n : Nat) : State :=
  if s.slices = [] then s else (slicesOf o n).foldl (fun z sl => z.drainSlice sl z.slices.length) s

/-- The same for n bytes from a global address. -/
def State.slicesBefore (s : State) (a n : Nat) : State :=
  if s.slices = [] then s
  else match placeOf (a % 2 ^ 48) with
    | .scache o => s.slicesFirst o (min n (0xC000000 - o))
    | _ => if a % 2 ^ 48 < 0x200000000000 ∧ 0x200000000000 < a % 2 ^ 48 + n then s.slicesFirst 0 (a % 2 ^ 48 + n - 0x200000000000) else s

/-- Producing a tally (R119, R122): 1 more, modulo 2^32. For a shared one a request goes to the slice, where it ranks with the
Carters. A shared word that the cell's tenant does not own is not counted (log entry 15). -/
def State.produce (s : State) (c q id : Nat) : State :=
  if id = 0 then s
  else if id < 256 then s.setFld Fd.cellTally c id ((s.fld Fd.cellTally c id + 1) % 2 ^ 32)
  else
    let o := s.tallyOff c id
    if s.ownsSlice (s.cellWho c) (sliceOf o) then
      s.arrive ⟨sliceOf o, s.fld (Fd.cycles .scache), 2, 16 * c + q, o, .produce c q⟩
    else s.bump Fd.poolOwnerFaultCnt

/-- SHARED_CACHE_SLICE_OP: a slice performs its next operation whole (R103, R104, R122). -/
def execSharedCacheSliceOp (sl : Fin 64) (s : State) : Res := .next (s.sliceOp sl)

/-! ## Short accesses (R79, R90, R91) -/

/-- LOAD (R90). -/
def State.doLoad (s : State) (k : Nat) (rd base : BitVec 5) (width : BitVec 2) (u : Bool) (off : BitVec 13) : State :=
  let n := widthBytes width
  let a := (s.tinker k).shortAddr base off n
  let r := s.shortRead k a n
  if r.2.1 then r.2.2.trap k tSramDouble (BitVec.ofNat 32 a)
  else r.2.2.onTinker k (fun t => (t.setG rd.toNat (extendLoad u r.1)).advance 4)

/-- LOAD: a byte, half or word from a short address (R90). -/
def execLoad (k : Fin 25600) (rd base : BitVec 5) (width : BitVec 2) (u : Bool) (off : BitVec 13) (s : State) : Res :=
  .next (s.tkExec k (.load k rd base width u off) (fun z => z.doLoad k rd base width u off))

/-- STORE (R90). -/
def State.doStore (s : State) (k : Nat) (rs base : BitVec 5) (width : BitVec 2) (off : BitVec 13) : State :=
  let t := s.tinker k
  let n := widthBytes width
  let a := t.shortAddr base off n
  let r := s.shortWrite k a n ((leBytes n (t.gr rs.toNat).toNat).map some)
  if r.1 then (r.2.undoMem s).trap k tSramDouble (BitVec.ofNat 32 a) else r.2.onTinker k (fun t => t.advance 4)

/-- STORE: a byte, half or word to a short address (R90). -/
def execStore (k : Fin 25600) (rd base : BitVec 5) (width : BitVec 2) (u : Bool) (off : BitVec 13) (s : State) : Res :=
  .next (s.tkExec k (.store k rd base width u off) (fun z => z.doStore k rd base width off))

/-- The short address of VLD and VST: the offset counts in units of the access size (R91). R90 aligns LOAD and STORE alone and R91
says nothing: the address of a vector access is not aligned down (DESIGN CHOICE; log entry 54). -/
def Tinker.vectorShort (t : Tinker) (base : BitVec 5) (off : BitVec 4) (n : Nat) : Nat :=
  (t.gr base.toNat + BitVec.ofInt 32 (off.toInt * n)).toNat

/-- Reading the bytes of active lanes at a short address. -/
def State.vectorRead (s : State) (k a fmt : Nat) (p : BitVec 8) : List Byte × Bool × State :=
  let n := vmBytes fmt
  let need := activeBytes fmt p
  let all := if isLocal a then localAddrs k (a % 2 ^ 15) n else storeAddrs (tkCell k) (a % 2 ^ 21) n
  let z := if isLocal a ∨ need = [] then s else s.countWrap (tkCell k) (a % 2 ^ 21) n
  let r := z.sramRead (if isLocal a then .local else .store) (need.map (fun i => all.getD i 0))
  ((List.range n).map (fun i => match (need.zip r.1).find? (fun x => decide (x.1 = i)) with
    | some x => x.2
    | none => 0), r.2.1, r.2.2)

/-- VLD (R91). -/
def State.doVld (s : State) (k : Nat) (vd base rk : BitVec 5) (pg fmt : BitVec 3) (g : Bool) (off : BitVec 4) : State :=
  let t := s.tinker k
  let n := vmBytes fmt.toNat
  if g then s.issueAccess k ⟨0, t.globalAddr base (off.toInt * n), .vload (vnum vd) pg.toNat fmt.toNat (t.kOf rk), none⟩
  else
    let a := t.vectorShort base off n
    let r := s.vectorRead k a fmt.toNat (t.pr pg.toNat)
    if r.2.1 then r.2.2.trap k tSramDouble (BitVec.ofNat 32 a)
    else r.2.2.onTinker k (fun t => (t.putVector (vnum vd) pg.toNat fmt.toNat (t.kOf rk) r.1).advance 4)

/-- VLD: eight elements into a vector register (R91). -/
def execVld (k : Fin 25600) (vd base rk : BitVec 5) (pg fmt : BitVec 3) (g : Bool) (off : BitVec 4) (s : State) : Res :=
  .next (s.tkExec k (.vld k vd base rk pg fmt g off) (fun z => z.doVld k vd base rk pg fmt g off))

/-- VST (R91). -/
def State.doVst (s : State) (k : Nat) (vd base rk : BitVec 5) (pg fmt : BitVec 3) (g : Bool) (off : BitVec 4) : State :=
  let t := s.tinker k
  let n := vmBytes fmt.toNat
  let l := t.storeLanes (vnum vd) pg.toNat fmt.toNat (t.kOf rk)
  if g then s.issueStore k ⟨0, t.globalAddr base (off.toInt * n), .vstore fmt.toNat l.1 l.2, none⟩
  else
    let a := t.vectorShort base off n
    let old := if fmt.toNat = 1 then s.vectorRead k a 1 (t.pr pg.toNat) else ([], false, s)
    if old.2.1 then old.2.2.trap k tSramDouble (BitVec.ofNat 32 a)
    else
      let bs := laneBytes fmt.toNat l.1 old.1
      let r := if bs.all (fun b => b.isNone) then (false, s) else s.shortWrite k a n bs
      if r.1 then (r.2.undoMem s).trap k tSramDouble (BitVec.ofNat 32 a)
      else r.2.onTinker k (fun t => (t.addCounts l.2).advance 4)

/-- VST: the active lanes of a vector register to memory (R91). -/
def execVst (k : Fin 25600) (vd base rk : BitVec 5) (pg fmt : BitVec 3) (g : Bool) (off : BitVec 4) (s : State) : Res :=
  .next (s.tkExec k (.vst k vd base rk pg fmt g off) (fun z => z.doVst k vd base rk pg fmt g off))

/-! ## Global accesses and atomics (R80, R102, R105) -/

/-- An aligned global address (R80, R90). -/
def Tinker.alignedGlobal (t : Tinker) (base : BitVec 5) (off : BitVec 13) (n : Nat) : Nat :=
  t.globalAddr base off.toInt / n * n

/-- LOADG: a load from a global address; it completes by GLOBAL_ACCESS_RESPONSE (R80, R90). -/
def execLoadg (k : Fin 25600) (rd base : BitVec 5) (width : BitVec 2) (u : Bool) (off : BitVec 13) (s : State) : Res :=
  .next (s.tkExec k (.loadg k rd base width u off) (fun z =>
    z.issueAccess k ⟨rd.toNat, (z.tinker k).alignedGlobal base off (widthBytes width), .load (widthBytes width) u, none⟩))

/-- STOREG: a store to a global address; the Tinker goes on, and the store completes by GLOBAL_ACCESS_RESPONSE (R80, R81, R90). -/
def execStoreg (k : Fin 25600) (rd base : BitVec 5) (width : BitVec 2) (u : Bool) (off : BitVec 13) (s : State) : Res :=
  .next (s.tkExec k (.storeg k rd base width u off) (fun z =>
    z.issueStore k ⟨0, (z.tinker k).alignedGlobal base off (widthBytes width),
      .store (leBytes (widthBytes width) ((z.tinker k).gr rd.toNat).toNat), none⟩))

/-- Going on where every earlier access of the Tinker has completed; else the instruction waits at its pc (R81, R110). -/
def State.whenQuiet (s : State) (k : Nat) (f : State → State) : State := if (s.tinker k).stores.isEmpty then f s else s

/-- An atomic or history instruction (R81, R102): it waits for every earlier access; outside the shared-cache aperture it traps. The
address that tval receives is that of the access, its ignored low bits zero; R84 does not say which (DESIGN CHOICE; log entry 53). -/
def State.doAtomic (s : State) (k : Nat) (rd base : BitVec 5) (op : TkOp) : State :=
  s.whenQuiet k (fun s =>
    let a := (s.tinker k).pairAddr base / 4 * 4
    match placeOf a with
    | .scache _ => s.issueAccess k ⟨rd.toNat, a, op, none⟩
    | _ => s.trap k tAtomicAddr (BitVec.ofNat 32 a))

/-- FAI: word + 1; rd receives the old word (R102). -/
def execFai (k : Fin 25600) (rd base : BitVec 5) (s : State) : Res :=
  .next (s.tkExec k (.fai k rd base) (fun z => z.doAtomic k rd base .fai))

/-- FAA: word + rs2; rd receives the old word (R102). -/
def execFaa (k : Fin 25600) (rd base rs2 : BitVec 5) (s : State) : Res :=
  .next (s.tkExec k (.faa k rd base rs2) (fun z => z.doAtomic k rd base (.faa ((z.tinker k).gr rs2.toNat))))

/-- CAS: where the word equals rs2 it becomes rs3; rd receives the old word (R102). -/
def execCas (k : Fin 25600) (rd base rs2 rs3 : BitVec 5) (s : State) : Res :=
  .next (s.tkExec k (.cas k rd base rs2 rs3) (fun z =>
    z.doAtomic k rd base (.cas ((z.tinker k).gr rs2.toNat) ((z.tinker k).gr rs3.toNat))))

/-- HMERGE: merges rs2[23:0] into a history record; rd receives 0 (R105). -/
def execHmerge (k : Fin 25600) (rd base rs2 : BitVec 5) (s : State) : Res :=
  .next (s.tkExec k (.hmerge k rd base rs2) (fun z =>
    z.doAtomic k rd base (.hmerge (toSigned 24 ((z.tinker k).gr rs2.toNat).toNat))))

/-- HPRED: the predicted block exponent of a history record (R105). -/
def execHpred (k : Fin 25600) (rd base rs2 : BitVec 5) (s : State) : Res :=
  .next (s.tkExec k (.hpred k rd base rs2) (fun z =>
    z.doAtomic k rd base (.hpred (((z.tinker k).gr rs2.toNat).toNat % 4))))

/-- What an answered access writes into its Tinker. -/
def Tinker.complete (t : Tinker) (a : TkAcc) (bs : List Byte) : Tinker :=
  match a.op with
  | .load _ u => t.setG a.rd (extendLoad u bs)
  | .store _ => t
  | .vload vd pg fmt k => t.putVector vd pg fmt k bs
  | .vstore _ _ c => t.addCounts c
  | _ => t.setG a.rd (BitVec.ofNat 32 (ofLe bs))

/-- The answer of a store that its Tinker has gone past (R81, R84): a fault traps with the store's pc in epc, and what the Tinker
waits for is given up (DESIGN CHOICE; log entry 52). -/
def State.respondStore (s : State) (k : Nat) (x : TkStore) (c : Code) : State :=
  let s1 := s.onTinker k (fun t => { t with stores := t.stores.erase x })
  if c = cOK then s1.onTinker k (fun t => t.complete x.acc [])
  else (s1.onTinker k (fun t => { t with pc := x.pc })).trap k tGlobalFault (c.setWidth 32)

/-- The answer of an outstanding access reaches its Tinker (R80, R81, R84): of the answers that have come, that of the earliest
access. -/
def State.respond (s : State) (k : Nat) : State :=
  let t := s.tinker k
  if s.cellDead (tkCell k) then s
  else
    match t.stores.find? (fun x => x.acc.answer.isSome) with
    | some x => s.respondStore k x (x.acc.answer.getD (cOK, [])).1
    | none =>
      match t.wait with
      | .access a =>
        (match a.answer with
          | none => s
          | some (c, bs) =>
            if c = cOK then s.setTinker k ({ t.complete a bs with wait := .none }.advance 4)
            else s.trap k tGlobalFault (c.setWidth 32))
      | _ => s

/-- GLOBAL_ACCESS_RESPONSE: an outstanding access completes, or traps with GLOBAL_FAULT (R80, R84, R110). -/
def execGlobalAccessResponse (k : Fin 25600) (s : State) : Res := .next (s.respond k)

/-! ## System instructions (R81 to R84, R107, R108) -/

/-- An instruction that changes its Tinker and goes on. -/
def State.sysOp (s : State) (k : Nat) (f : Tinker → Tinker) : State := s.onTinker k (fun t => (f t).advance 4)

/-- The same after every earlier instruction has completed (R81, R110). -/
def State.quietOp (s : State) (k : Nat) (f : Tinker → Tinker) : State := s.whenQuiet k (fun z => z.sysOp k f)

/-- CSRR: rd = CSR (R108). -/
def execCsrr (k : Fin 25600) (rd : BitVec 5) (csr : BitVec 8) (s : State) : Res :=
  .next (s.tkExec k (.csrr k rd csr) (fun z => z.quietOp k (fun t => t.setG rd.toNat (z.csrRead k csr.toNat))))

/-- CSRW: CSR = rs1 (R108). -/
def execCsrw (k : Fin 25600) (rs1 : BitVec 5) (csr : BitVec 8) (s : State) : Res :=
  .next (s.tkExec k (.csrw k rs1 csr) (fun z => z.quietOp k (fun t => t.csrWrite csr.toNat (t.gr rs1.toNat))))

/-- CSRC: clears the W1C bits of a CSR that are set in rs1 (R108). -/
def execCsrc (k : Fin 25600) (rs1 : BitVec 5) (csr : BitVec 8) (s : State) : Res :=
  .next (s.tkExec k (.csrc k rs1 csr) (fun z => z.quietOp k (fun t => t.csrClear csr.toNat (t.gr rs1.toNat))))

/-- FENCE.T: waits until every earlier access of the Tinker has completed (R81). -/
def execFenceT (k : Fin 25600) (s : State) : Res := .next (s.tkExec k (.fenceT k) (fun z => z.quietOp k id))

/-- IFLUSH: the instruction buffer empties (R82). -/
def execIflush (k : Fin 25600) (s : State) : Res :=
  .next (s.tkExec k (.iflush k) (fun z => z.quietOp k (fun t => { t with ibuf := [] })))

/-- HALT: the Tinker clears its own RUN bit (R83). -/
def execHalt (k : Fin 25600) (s : State) : Res :=
  .next (s.tkExec k (.halt k) (fun z => (z.sysOp k id).setRun k false))

/-- TRAP: a SOFT trap with the source register in tval (R84, R108). -/
def execTrap (k : Fin 25600) (rs1 : BitVec 5) (s : State) : Res :=
  .next (s.tkExec k (.trap k rs1) (fun z => z.trap k tSoft ((z.tinker k).gr rs1.toNat)))

/-- RETT: pc = epc, INTRAP cleared (R84). -/
def execRett (k : Fin 25600) (s : State) : Res := .next (s.tkExec k (.rett k) (fun z => z.onTinker k Tinker.ret))

/-- QDONE: rd = SQ_DONE of a queue of the cell (R107). -/
def execQdone (k : Fin 25600) (rd : BitVec 5) (q : BitVec 4) (s : State) : Res :=
  .next (s.tkExec k (.qdone k rd q) (fun z =>
    z.sysOp k (fun t => t.setG rd.toNat (BitVec.ofNat 32 (z.fld Fd.cellSqDone (tkCell k) q.toNat)))))

/-- Whether a queue's count has reached a target (R107). -/
def State.reached (s : State) (c q : Nat) (target : Word) : Bool :=
  decide ((BitVec.ofNat 32 (s.fld Fd.cellSqDone c q) - target).toNat < 2 ^ 31)

/-- WAITQ: goes on where the count has reached rs1, else waits (R107). -/
def execWaitq (k : Fin 25600) (rs1 : BitVec 5) (q : BitVec 4) (s : State) : Res :=
  .next (s.tkExec k (.waitq k rs1 q) (fun z =>
    let target := (z.tinker k).gr rs1.toNat
    if z.reached (tkCell k) q.toNat target then z.sysOp k id
    else z.onTinker k (fun t => { t with wait := .waitq q.toNat target })))

/-- WAITQ_RESUME: a waiting WAITQ goes on once its count has been reached (R107). -/
def execWaitqResume (k : Fin 25600) (s : State) : Res :=
  .next (match (s.tinker k).wait with
    | .waitq q target =>
      if s.reached (tkCell k) q target && !s.cellDead (tkCell k) then s.onTinker k (fun t => { t with wait := .none }.advance 4) else s
    | _ => s)

/-- Tinkers of a cell below an index that wait to append to a queue (R106). -/
def State.waitersBelow (s : State) (k q : Nat) : Nat :=
  s.tinkers.countP (fun (e : Nat × Tinker) => decide (tkCell e.1 = tkCell k ∧ e.1 < k) && (match e.2.wait with
    | .issue _ _ p _ => decide (p = q)
    | _ => false))

/-- Whether a queue has a place for a Tinker's pointer: of those that issue to it, the lower global index is appended first (R106). -/
def State.placeFor (s : State) (k q : Nat) : Bool := decide (s.queueLoad (tkCell k) q + s.waitersBelow k q < 64)

/-- ISSUE (R106): appended where the queue has room, else 0 in rd, or a wait where W = 1. -/
def State.doIssue (s : State) (k rd off q len : Nat) (w : Bool) : State :=
  let c := tkCell k
  if s.placeFor k q then (s.append c q off).onTinker k (fun t => (t.setG rd 1).advance len)
  else if w then s.onTinker k (fun t => { t with wait := .issue rd off q len })
  else s.onTinker k (fun t => (t.setG rd 0).advance len)

/-- ISSUE: the descriptor offset in rs1 onto a queue (R106). -/
def execIssue (k : Fin 25600) (rd rs1 : BitVec 5) (q : BitVec 4) (w : Bool) (s : State) : Res :=
  .next (s.tkExec k (.issue k rd rs1 q w) (fun z => z.doIssue k rd.toNat ((z.tinker k).gr rs1.toNat).toNat q.toNat 4 w))

/-- ISSUE.L: the descriptor offset in imm32 onto a queue (R87, R106). -/
def execIssueL (k : Fin 25600) (rd : BitVec 5) (q : BitVec 4) (w : Bool) (imm : BitVec 32) (s : State) : Res :=
  .next (s.tkExec k (.issueL k rd q w imm) (fun z => z.doIssue k rd.toNat imm.toNat q.toNat 8 w))

/-- ISSUE_APPEND_RETRY: a waiting ISSUE appends once its queue has room (R106). -/
def execIssueAppendRetry (k : Fin 25600) (s : State) : Res :=
  .next (match (s.tinker k).wait with
    | .issue rd off q len =>
      if s.placeFor k q && !s.cellDead (tkCell k) then
        (s.append (tkCell k) q off).onTinker k (fun t => ({ t with wait := .none }.setG rd 1).advance len)
      else s
    | _ => s)

/-! ## Instruction fetch (R82) -/

/-- Adding a fetched word. -/
def State.pushWord (s : State) (k a w : Nat) : State :=
  s.onTinker k (fun t => { t with fetched := t.fetched ++ [(a, BitVec.ofNat 32 w)] })

/-- A double-bit error met by a fetch: at the pc it traps; a word ahead is not taken (R82, R84). -/
def State.badFetch (s : State) (k : Nat) : State :=
  let t := s.tinker k
  if t.fetched = [] then s.trap k tSramDouble t.pc else s

/-- Taking a word from a line, of which some 64-bit words are bad (R70). -/
def State.lineWord (s : State) (k a : Nat) (bs : List Byte) (bad : List Nat) : State :=
  if bad.contains (a % 64 / 8) then s.badFetch k else s.pushWord k a (fieldB bs (a % 64) 4)

/-- The 64-bit words of a line of the cell store that hold a double-bit error. -/
def State.badWords (s : State) (c line : Nat) : List Nat :=
  (List.range 8).filter (fun w => decide (2 ≤ s.sramMark .store (c * 2 ^ 21 + (line + 8 * w) % 2 ^ 21)))

/-- Reading a line of the cell store into its entry of the buffer; only a fetch from a word with a double-bit error meets it. -/
def State.fetchLine (s : State) (k a line i : Nat) : State :=
  let r := s.storeRead (tkCell k) (line % 2 ^ 21) 64
  let bad := s.badWords (tkCell k) (line % 2 ^ 21)
  (r.2.2.onTinker k (fun t => { t with ibuf := Tab.set (fun _ => none) t.ibuf i (some (line, r.1, bad)) })).lineWord k a r.1 bad

/-- One fetch: at the pc, or up to two words ahead; a line of the cell store through the instruction buffer. -/
def State.fetchWord (s : State) (k : Nat) : State :=
  let t := s.tinker k
  let a := (t.pc.toNat + 4 * t.fetched.length) % 2 ^ 32
  if isLocal a then
    let r := s.sramRead .local (localAddrs k (a % 2 ^ 15) 4)
    if r.2.1 then r.2.2.badFetch k else r.2.2.pushWord k a (ofLe r.1)
  else
    let line := a % 2 ^ 22 / 64 * 64
    let i := bitsOf a 11 6
    match Tab.get (fun _ => none) t.ibuf i with
    | some (l, bs, bad) => if l = line then s.lineWord k a bs bad else s.fetchLine k a line i
    | none => s.fetchLine k a line i

/-- The word fetched from the pc where no instruction is assigned to it (R86): a long form is told by its first word (R87). -/
def State.undefinedWord (s : State) (k : Fin 25600) : Option Word :=
  match (s.tinker k).fetched with
  | [] => none
  | (a, w) :: _ => if a = (s.tinker k).pc.toNat ∧ decodeTinker k w 0 = none then some w else none

/-- INSTRUCTION_FETCH: a word at the pc that spells no instruction raises ILLEGAL (R84, R86); else the fetch unit runs at most two
words ahead (R82), and a double-bit error at the pc traps (R84). -/
def execInstructionFetch (k : Fin 25600) (s : State) : Res :=
  .next (match s.undefinedWord k with
    | some w => if s.canRun k then s.trap k tIllegal w else s
    | none => if s.running k && !s.cellDead (tkCell k) && decide ((s.tinker k).fetched.length < 3) then s.fetchWord k else s)

end Sys2Proof.Machine
end

