-- ==== Sys2Proof/Machine/Work.lean ====
section
/-! DEFINITION. The work of a started command: its accesses, counts and faults (R15, R44, R45, R70, R118, R127, R144), and its
completion (R117, R119, R123, R363). -/

namespace Sys2Proof.Machine

/-- How a piece of work goes on: on, waiting for an access, or ended by a fault. -/
inductive Halt where
  | go
  | wait
  | fault
  deriving DecidableEq, Repr

/-- A command at work in its cell. -/
structure W where
  s : State
  c : Nat
  k : Cmd
  halt : Halt
  deriving DecidableEq, Repr

/-- What a command's accesses carry (R281, R290, R361); where its transaction is gone, a name that none has (R370). -/
def Cmd.ctx (k : Cmd) (c : Nat) : Ctx :=
  ⟨(match k.tenant with
      | some t => .tenant t
      | none => .nobody), some c, if k.txn then some (if k.late then 2 ^ 16 else k.txnId) else none, some k.epoch, some k.num⟩

/-- Whether the work goes on. -/
def W.on (w : W) : Bool := decide (w.halt = .go)

/-- The first fault of a command, or its first warning or status (R15). -/
def Cmd.report (k : Cmd) (code : Code) : Cmd :=
  if codeIsFault code then { k with fault := k.fault <|> some code } else { k with warn := k.warn <|> some code }

/-- A code that leaves the command running (R15, R251). -/
def W.note (w : W) (code : Code) : W := { w with k := w.k.report code }

/-- A fault that ends the work (R127). -/
def W.fail (w : W) (code : Code) : W := { w with k := w.k.report code, halt := .fault }

/-- Adding counts (R44): ACC_SATURATED with the first saturated element, NAR_OPERAND with the first NaR operand of a strict
command (R45). -/
def Cmd.count (k : Cmd) (n : Counts) : Cmd :=
  let a := { k with counts := k.counts.add n }
  let b := if n.sat = 0 then a else { a with warn := a.warn <|> some cAccSaturated }
  if a.strict && decide (n.narOp ≠ 0) then { b with soft := b.soft <|> some cNarOperand } else b

def W.count (w : W) (n : Counts) : W := { w with k := w.k.count n }

/-- Bytes moved (R118). -/
def W.moved (w : W) (n : Nat) : W := { w with k := { w.k with bytes := satTo (2 ^ 48 - 1) (w.k.bytes + n) } }

/-- Bytes discarded (R118, R127, R143). -/
def W.discard (w : W) (n : Nat) : W := { w with s := w.s.dropBytes w.c w.k.num n }

/-- Taking up what an access gave. -/
def W.took (w : W) (g : Got) : W :=
  let w1 := { w with s := g.st }
  let w2 := match g.warn with
    | some x => w1.note x
    | none => w1
  match g.fault with
  | some x => w2.fail x
  | none => if g.wait then { w2 with halt := .wait } else w2

/-- Reading n bytes at a global address (R103); after a refusal the rest read as zeros and the work is ended. -/
def W.read (w : W) (a n : Nat) : List Byte × W :=
  if !w.on then (List.replicate n 0, w)
  else
    let g := (w.s.slicesBefore a n).globalRead (w.k.ctx w.c) a n
    (sliceB g.bytes 0 n, w.took g)

/-- Writing bytes at a global address (R103, R144): those before a refusal stay written. -/
def W.write (w : W) (a : Nat) (bs : List Byte) : W :=
  if !w.on then w else w.took ((w.s.slicesBefore a bs.length).globalWrite (w.k.ctx w.c) a bs)

/-- Transfer t of the command wraps in a cell's store: counted once for each transfer (R69). -/
def W.wrapIn (w : W) (t : Nat) (cell : Option Nat) : W :=
  match cell with
  | none => w
  | some c =>
    if w.k.wrapped.contains (256 * t + c) then w
    else { w with s := w.s.bumpCell Fd.cellWrapCnt c, k := { w.k with wrapped := (256 * t + c) :: w.k.wrapped } }

/-- Reading n bytes of transfer t, at a distance from the address where its source begins (R69, R103, R134): the bytes delivered, all
of them or those before a refusal. -/
def W.readT (w : W) (t base away n : Nat) : List Byte × W :=
  if !w.on then ([], w)
  else
    let b := base % 2 ^ 48
    let w1 := w.wrapIn t (w.s.wrapCell (w.k.ctx w.c).who b (away + n))
    let g := (w1.s.slicesBefore (byteAddr b away) n).readSpan (w.k.ctx w.c) (byteAddr b away) n
    (g.bytes, w1.took g)

/-- Writing bytes of transfer t, at a distance from the address where its destination begins; the number written. -/
def W.writeT (w : W) (t base away : Nat) (bs : List Byte) : Nat × W :=
  if !w.on then (0, w)
  else
    let b := base % 2 ^ 48
    let w1 := w.wrapIn t (w.s.wrapCell (w.k.ctx w.c).who b (away + bs.length))
    let g := (w1.s.slicesBefore (byteAddr b away) bs.length).writeSpan (w.k.ctx w.c) (byteAddr b away) bs
    (g.bytes.length, w1.took g)

/-- The work waits: what it has done since it was taken up is done again, but for the wraps that it has counted. -/
def W.back (w w1 : W) : W := { w with s := w1.s, k := { w.k with wrapped := w1.k.wrapped }, halt := .wait }

/-- Reading n bytes at an offset of the command's own cell store (R69, R70). -/
def W.lread (w : W) (off n : Nat) : List Byte × W :=
  if !w.on then (List.replicate n 0, w)
  else
    let r := (w.s.countWrap w.c off n).storeRead w.c off n
    let w1 := { w with s := r.2.2 }
    if r.2.1 then (List.replicate n 0, w1.fail cMemUncorrectable) else (r.1, w1)

/-- Writing bytes at an offset of the command's own cell store. -/
def W.lwrite (w : W) (off : Nat) (bs : List Byte) : W :=
  if !w.on then w
  else
    let r := (w.s.countWrap w.c off bs.length).storeWrite w.c off bs
    let w1 := { w with s := r.2 }
    if r.1 then w1.fail cMemUncorrectable else w1

/-- Opening a run for writing, page by page. -/
def W.openRun (w : W) (a n : Nat) : W :=
  if !w.on then w
  else
    let pages := a :: ((List.range (n / 65536 + 1)).map (fun i => (a / 65536 + 1 + i) * 65536)).filter (fun p => decide (p < a + n))
    let r := w.s.openPages (w.k.ctx w.c) (pages.map (· % 2 ^ 48))
    { w with s := r.2, halt := if r.1 then .wait else .go }

/-- Whether a run of a transfer's own cell-store bytes lies beyond the end of the store, seen from where the transfer begins (R69). -/
def runWraps (base off n : Nat) : Bool :=
  if base ≤ off then wraps base (off - base + n) else wraps off n

/-- Reading a run of the own store for transfer t, which begins at an offset (R69). -/
def W.lreadT (w : W) (t base off n : Nat) : List Byte × W :=
  if !w.on then ([], w)
  else
    let w1 := w.wrapIn t (if runWraps base off n then some w.c else none)
    let r := w1.s.storeRead w.c off n
    let w2 := { w1 with s := r.2.2 }
    if r.2.1 then ([], w2.fail cMemUncorrectable) else (r.1, w2)

/-- Writing a run of the own store for transfer t: the number of bytes written. -/
def W.lwriteT (w : W) (t base off : Nat) (bs : List Byte) : Nat × W :=
  if !w.on then (0, w)
  else
    let w1 := w.wrapIn t (if runWraps base off bs.length then some w.c else none)
    let r := w1.s.storeWrite w.c off bs
    let w2 := { w1 with s := r.2 }
    if r.1 then (0, w2.fail cMemUncorrectable) else (bs.length, w2)

/-- The place of a cell-store offset beside the global addresses: offsets of the own store stand above 2^48. -/
def ownPlace (off : Nat) : Nat := 2 ^ 48 + off

/-- Reading a signed block exponent. -/
def expByte (b : Byte) : Int := b.toInt

/-- The work has ended: only the completion remains. -/
def W.finish (w : W) : W := { w with k := { w.k with finished := true, kdone := true } }

/-- MILL_BUSY follows the commands that the Mill holds (R73). -/
def State.syncMill (s : State) (c : Nat) : State :=
  s.setFld Fd.cellStateMillBusy c 0 (b2n ((s.cell c).cmds.any (fun k => isMill k.opcode && !k.finished)))

/-- Keeping what the work has done: where it waits, the command stands as before, to be taken up again. -/
def W.keep (w : W) : State :=
  match w.halt with
  | .wait => (match w.s.cmd w.c w.k.num with
    | some y => if y.wrapped = w.k.wrapped then w.s else w.s.putCmd w.c { y with wrapped := w.k.wrapped }
    | none => w.s)
  | _ => (w.s.putCmd w.c w.k).syncMill w.c

/-- Working on a started command of one of some opcodes; nothing happens where there is none, or its work has ended. -/
def State.work (s : State) (c n : Nat) (ops : List Nat) (f : W → W) : State :=
  if s.cellDead c then s
  else
    match s.cmd c n with
    | none => s
    | some k => if k.finished || !ops.contains k.opcode then s else (f ⟨s, c, k, .go⟩).keep

/-- A command whose work is done in one go: after a fault it has ended as well. -/
def State.workWhole (s : State) (c n : Nat) (ops : List Nat) (f : W → W) : State :=
  s.work c n ops (fun w => (f w).finish)

/-! ## Completion -/

/-- Where a command's history record lies, if it names one (R38, R128, R159, R337). -/
def Cmd.histOff (k : Cmd) : Option Nat :=
  if k.opcode = 0x0201 ∧ k.bit 35 2 then some (k.u 108 4)
  else if k.opcode = 0x0402 ∧ k.bit 27 0 then some (k.u 84 4)
  else if k.opcode = 0x0601 ∧ k.bit 101 0 then some (k.u 96 4)
  else none

/-- Gathering a merge value (R38). -/
def W.gather (w : W) (q : Option Int) : W := { w with k := { w.k with hist := optMax w.k.hist q } }

/-- The history merge of a command without a fault (R38), by the owner of the slice. -/
def State.mergeHist (s : State) (c : Nat) (k : Cmd) : Cmd × State :=
  match k.histOff, k.hist with
  | some o, some q =>
    if codeIsFault k.code then (k, s)
    else if !s.ownsSlice (k.ctx c).who (sliceOf (recordOffset o)) then (k.report cPageOwner, s.bump Fd.poolOwnerFaultCnt)
    else
      let r := (s.slicesFirst (recordOffset o) 80).histMerge o q
      (match r.1 with
        | some x => k.report x
        | none => k, r.2)
  | _, _ => (k, s)

/-- Whether every write of a command has been acknowledged and its turn has come (R117, R119, R143). -/
def State.mayComplete (s : State) (c : Nat) (k : Cmd) : Bool :=
  let x := s.cell c
  k.finished && x.xfers.all (fun t => decide (t.num ≠ k.num)) &&
    x.cmds.all (fun y => decide (y.q ≠ k.q) || decide (k.num ≤ y.num)) &&
    k.matched.all (fun m => x.cmds.all (fun y => decide (y.seq ≠ m)) &&
      x.queues.all (fun l => l.2.all (fun e => decide (e.seq ≠ m)))) &&
    s.fab.outstanding.all (fun a => match a.kind with
      | .fetch d n _ _ => decide (d ≠ c ∨ n ≠ k.num)
      | .store d n _ _ => decide (d ≠ c ∨ n ≠ k.num))

/-- The record, SQ_DONE, and the tally-out (R119, R123); a transaction in which the command took part is doomed where it ended badly
(R363): one that ended before or had not opened is none of its own. -/
def State.complete (s : State) (c : Nat) (k0 : Cmd) : State :=
  let m := s.mergeHist c k0
  let d := m.2.draw
  let k := m.1.stalled d.1
  let s1 := ((d.2.countStalls c k d.1).storeWrite c k.recordOff k.record).2
  let s2 := s1.setFld Fd.cellSqDone c k.q ((s1.fld Fd.cellSqDone c k.q + 1) % 2 ^ 32)
  let s3 := (s2.produce c k.q k.tallyOut).onCell c (fun x => { x with cmds := x.cmds.filter (fun y => decide (y.num ≠ k.num)) })
  let s4 := match k.tenant with
    | some t => if k.txn && !k.late && (codeIsFault k.code || k.cancelled) then s3.doom t k.txnId else s3
    | none => s3
  s4.syncMill c

end Sys2Proof.Machine
end

