-- ==== Sys2Proof/Machine/Stream.lean ====
section
/-! DEFINITION. Stream queues at work: starting the head (R113, R115, R116, R136, R290, R331, R363), tallies (R122), completing
(R117, R119), FENCE (R139) and CANCEL (R141 to R143). -/

namespace Sys2Proof.Machine

/-! ## What an engine accepts (R115) -/

/-- Whether a command takes part in a Weaver channel (R114, R331, R366). -/
def Cmd.onChannel (k : Cmd) : Bool :=
  [0x0601, 0x0602, 0x0603, 0x0604, 0x0605].contains k.opcode || (decide (k.opcode = 0x0702) && decide (k.u 32 1 % 4 = 1))

/-- Started commands of a cell, of some opcodes, whose work has not ended. -/
def State.running' (s : State) (c : Nat) (f : Cmd → Bool) : Nat := (s.cell c).cmds.countP (fun y => f y && !y.finished)

/-- Started commands of the module that have not written their record. -/
def State.started (s : State) (f : Cmd → Bool) : Nat :=
  s.cells.foldl (fun n c => n + c.2.cmds.countP f) 0

/-- Whether the Weaver can take a command of a channel (R332, R351, R438). -/
def State.weaverTakes (s : State) (t : Fin 16) (k : Cmd) : Bool :=
  let mine := fun (y : Cmd) => decide (y.tenant = some t) && y.onChannel && decide (y.chanq = k.chanq)
  decide (s.weav.insts.countP (fun i => decide (i.t = t) && decide (i.ch.val = k.chanq)) < 4) &&
    decide (s.started (fun y => mine y && decide (y.opcode = 0x0603)) = 0) &&
    (decide (k.opcode ≠ 0x0603) || decide (s.started mine = 0)) &&
    !s.inReset .weaver 0 (k.chanq / 8)

/-- Whether the command's engine can accept it (R115, R160, R216, R244, R289, R332). -/
def State.accepts (s : State) (c : Nat) (k : Cmd) : Bool :=
  let op := k.opcode
  let carter := !(op = 0x0101 || op = 0x0804) || decide (s.running' c (fun y => y.opcode = 0x0101 || y.opcode = 0x0804) < 16)
  let mill := !isMill op || (decide (s.running' c (fun y => isMill y.opcode) < 2) &&
    decide (s.running' c (fun y => isMill y.opcode && !y.kdone) = 0))
  let till := op ≠ 0x0203 || decide (s.running' c (fun y => y.opcode = 0x0203) < 4)
  let out := !(op = 0x0401 || op = 0x0402) || decide (s.running' c (fun y => y.opcode = 0x0401 || y.opcode = 0x0402) = 0)
  let coder := !(op = 0x0501 || op = 0x0503) || decide (s.running' c (fun y => y.opcode = 0x0501 || y.opcode = 0x0503) = 0)
  let pool := !isPool k || (decide (s.started (fun y => isPool y && decide (y.tenant = k.tenant)) < 64) &&
    decide (s.started isPool < 256))
  let snap := op ≠ 0x0704 || decide (s.started (fun y => decide (y.opcode = 0x0704) && decide (y.tenant = k.tenant)) = 0)
  let weaver := !k.onChannel || (match k.tenant with
    | some t => s.weaverTakes t k
    | none => false)
  carter && mill && till && out && coder && pool && snap && weaver

/-! ## Starting -/

/-- The fence-before condition of a head, and no incomplete FENCE command in its queue (R115, R139). -/
def State.unfenced (s : State) (c q : Nat) (fence : Bool) (e : QEnt) : Bool :=
  (s.cell c).cmds.all (fun y => decide (y.q ≠ q) ||
    ((!fence || decide (e.root < y.root)) && (decide (y.opcode ≠ 0x0F02) || y.finished || decide (e.root < y.root))))

/-- Whether a transaction takes part in commands: OPEN or DOOMED (R363), and no commit that names it has started (R366). -/
def State.txnLive (s : State) (t : Option (Fin 16)) (id : Nat) : Bool :=
  match t with
  | none => false
  | some u => (match s.txnSlot u id with
    | some j => decide (s.txnState u j = 1 ∨ s.txnState u j = 2) &&
        s.cells.all (fun c => c.2.cmds.all (fun k => decide (k.opcode ≠ 0x0702) || decide (k.tenant ≠ t) || k.finished ||
          decide (k.u 32 1 % 4 = 3) || !k.txnNames.contains id))
    | none => false)

/-- Why a command ends at its start: an unreadable descriptor (R70), or no transaction (R363). -/
def State.startFault (s : State) (bad : Bool) (k : Cmd) : Option Code :=
  if bad then some cMemUncorrectable
  else if assignedOpcodes.contains k.opcode && k.txn && !([0x0701, 0x0702, 0x0703].contains k.opcode) &&
      !s.txnLive k.tenant k.txnId then some cTxnAbort
  else none

/-- Taking an instance number on the command's channel (R331, R332). -/
def State.takeInst (s : State) (c : Nat) (k : Cmd) : State :=
  match k.tenant with
  | none => s
  | some t =>
    let ch : Fin 16 := ⟨k.chanq % 16, Nat.mod_lt _ (by decide)⟩
    let idx := 16 * t.val + ch.val
    let i : Inst := Inst.start t ch (s.fld Fd.weaverChanSeq 0 idx) c k.num k.opcode (k.u 24 4)
    let s1 := { s with weav := { s.weav with insts := s.weav.insts ++ [i] } }
    (s1.setFld Fd.weaverChanSeq 0 idx ((i.num + 1) % 2 ^ 32)).setFld Fd.weaverChanInflight 0 idx
      (s1.fld Fd.weaverChanInflight 0 idx + 1)

/-- PENDING of a slot follows its requested swaps (R255). -/
def State.syncSwap (s : State) (c slot : Nat) : State :=
  s.setFld Fd.cellTableSlotPending c slot (b2n ((s.cell c).swaps.any (fun w => decide (w.slot = slot))))

/-- Requesting the swaps that a TABLE_SWAP names (R253), when it starts. -/
def State.requestSwaps (s : State) (c : Nat) (k : Cmd) : State :=
  let m := k.u 16 2
  let slots := (List.range 16).filter (fun i => m.testBit i)
  slots.foldl (fun z i =>
    (z.onCell c (fun x => { x with swaps := x.swaps ++ [⟨k.num, i, [0, 1, 2]⟩] })).syncSwap c i) s

/-- LOADING of a slot, set for a table form whose slot has no swap pending (R242, R255). -/
def State.startLoading (s : State) (c : Nat) (k : Cmd) : State :=
  let slot := k.u 17 1 % 16
  if 2 ≤ k.u 16 1 % 4 ∨ (s.cell c).swaps.any (fun w => decide (w.slot = slot)) then s
  else s.setFld Fd.cellTableSlotLoading c slot 1

/-- Elements of a head (R183), and whether the command is the backward pass. -/
def Cmd.headDim (k : Cmd) : Nat := [64, 128, 256, 256].getD (k.u 21 1 % 4) 0
def Cmd.isBwd (k : Cmd) : Bool := decide (k.opcode = 0x0302)

/-- The slots of the query gradient: TS7, and TS6 for the second dimension tile (R214). -/
def gradSlot (u : Nat) : Nat := 7 - u

/-- Slots that an ATTN_BWD holds (R214). -/
def Cmd.gradSlots (k : Cmd) : List Nat := if k.isBwd then (List.range (ceilDiv k.headDim 128)).map gradSlot else []

/-- An ATTN_BWD takes hold of its slots (R214); one without sequences completes at once and holds none (R144). -/
def State.holdSlots (s : State) (c : Nat) (k : Cmd) : State :=
  if k.u 16 4 = 0 then s
  else k.gradSlots.foldl (fun z i => z.setFld Fd.cellTillSlotBusy c i 1) (s.onCell c (fun x => { x with tillHeld := k.gradSlots }))

/-- What a command sets off as it starts: a Weaver command takes its number, a TABLE_SWAP requests its swaps, a TABLE_BUILD marks
its slot, an ATTN_BWD holds its slots. -/
def State.startEffect (s : State) (c : Nat) (k : Cmd) : State :=
  if k.finished then s
  else if k.onChannel then s.takeInst c k
  else if k.opcode = 0x0502 then s.requestSwaps c k
  else if k.opcode = 0x0501 then s.startLoading c k
  else if k.opcode = 0x0302 then s.holdSlots c k
  else s

/-- The head of a queue as the command it would become: descriptor, whether it could not be read, the state after reading. -/
def State.headCmd (s : State) (c q : Nat) (e : QEnt) : Cmd × Bool × State :=
  let d := match e.desc with
    | some d => (d, e.bad, s)
    | none => s.readDesc c e.off
  let t := s.cellTenant c
  (Cmd.start (s.cell c).nextNum q e.off e.seq e.root d.1 t (match t with
    | some u => s.epoch u
    | none => 0), d.2.1, d.2.2)

/-- A started successor goes on from what its prologue fetched (R137). -/
def Cmd.resume (k : Cmd) (early : Option Cmd) : Cmd :=
  match early with
  | none => k
  | some y => { k with
    loads := y.loads, issued := y.issued, hand := y.hand, idx := y.idx, plainOf := y.plainOf, maps := y.maps, bytes := y.bytes, fault := y.fault, warn := y.warn,
    held := y.held, codes := y.codes, rows := y.rows, acc := y.acc, words := y.words, counts := y.counts, soft := y.soft,
    finished := y.fault.isSome, kdone := y.fault.isSome }

/-- Starting a head that may start: it leaves its queue, its record is zeroed (R116), its successor is read (R136); a member of a
multicast that cannot begin withdraws, another takes up what was withdrawn before (R65). -/
def State.startCmd (s : State) (c q : Nat) (e : QEnt) (rest : List QEnt) (k0 : Cmd) (bad : Bool) : State :=
  let fault := s.startFault bad k0
  let assigned := assignedOpcodes.contains k0.opcode
  let k1 := k0.resume e.early
  let k := if fault.isSome || !assigned then { k1 with fault := fault, late := fault = some cTxnAbort, finished := true, kdone := true } else k1
  let s1 := s.setQueue c q rest
  let s2 := s1.onCell c (fun x => { x with cmds := x.cmds ++ [k], nextNum := x.nextNum + 1 })
  let s3 := (s2.storeWrite c k.recordOff (List.replicate 32 0)).2
  let s4 := if assigned || bad then s3 else s3.bump Fd.cellBadopCnt c
  let s5 := if k.finished then s4.withdraw c k else s4.takeWithdrawals c k
  ((s5.startEffect c k).chainFrom c q e.off k.desc k.num e.root).syncMill c

/-- Starting the head of a queue where its conditions hold (R115); a cancelled head only leaves its record to write (R142); a
CANCEL in the place of a head starts by R141. -/
def State.startHead (s : State) (c q : Nat) : State :=
  if s.cellDead c then s
  else
    match s.queue c q with
    | [] => s
    | e :: rest =>
      if e.cancelled then (s.setQueue c q rest).retireEntry c q e
      else
        let h := s.headCmd c q e
        let k := h.1
        if k.opcode = 0x0F01 then (h.2.2.setQueue c q rest).cancelStart c q e.off e.seq k.desc
        else if s.unfenced c q k.fence e && (decide (k.tallyIn = 0) || e.tallyTaken) && s.accepts c k then
          h.2.2.startCmd c q e rest k h.2.1
        else s

/-- COMMAND_START: a queue starts its head (R115). -/
def execCommandStart (c : Fin 256) (q : Fin 16) (s : State) : Res := .next (s.startHead c.val q.val)

/-- Whether the head of a queue has an opcode that R114 does not assign. -/
def State.headUnassigned (s : State) (c q : Nat) : Bool :=
  match s.queue c q with
  | [] => false
  | e :: _ => let k := (s.headCmd c q e).1; !e.cancelled && !assignedOpcodes.contains k.opcode

/-- BAD_OPCODE: a head with an unassigned opcode completes at once and is counted (R113). -/
def execBadOpcode (c : Fin 256) (q : Fin 16) (s : State) : Res :=
  .next (if s.headUnassigned c.val q.val then s.startHead c.val q.val else s)

/-! ## Tallies (R122) -/

/-- Marking the head's tally as consumed. -/
def takeTally : List QEnt → List QEnt
  | e :: es => { e with tallyTaken := true } :: es
  | [] => []

/-- The head's tally: a local one is tested and decremented; for a shared one a consume request goes to the slice, once. -/
def State.tallyConsume (s : State) (c q : Nat) : State :=
  match s.queue c q with
  | [] => s
  | e :: es =>
    let k := (s.headCmd c q e).1
    if s.cellDead c || e.cancelled || e.tallyTaken || decide (k.tallyIn = 0) || decide (k.opcode = 0x0F01) then s
    else if k.tallyIn < 256 then
      let v := s.fld Fd.cellTally c k.tallyIn
      if v = 0 then s else (s.setFld Fd.cellTally c k.tallyIn (v - 1)).setQueue c q (takeTally (e :: es))
    else
      let o := s.tallyOff c k.tallyIn
      if s.slices.any (fun z => decide (z.op = SliceOp.consume c q e.seq)) then s
      else if !s.ownsSlice (s.cellWho c) (sliceOf o) then s.bump Fd.poolOwnerFaultCnt
      else
        let r : SliceReq := ⟨sliceOf o, s.fld (Fd.cycles .scache), 2, 16 * c + q, o, SliceOp.consume c q e.seq⟩
        { s with slices := s.slices ++ [r] }

/-- TALLY_CONSUME: the waiting head's tally is tested (R122). -/
def execTallyConsume (c : Fin 256) (q : Fin 16) (s : State) : Res := .next (s.tallyConsume c.val q.val)

/-! ## Completing -/

/-- COMMAND_COMPLETE: a finished command whose writes are acknowledged and whose turn has come (R117, R119). -/
def execCommandComplete (c : Fin 256) (n : Nat) (s : State) : Res :=
  .next (match s.cmd c.val n with
    | some k => if !s.cellDead c.val && s.mayComplete c.val k then s.complete c.val k else s
    | none => s)

/-! ## FENCE and CANCEL -/

/-- Whether every command appended before a FENCE to a queue it names has written its record (R139): of its own chain, those that
started before it. -/
def State.fenceMet (s : State) (c : Nat) (k : Cmd) : Bool :=
  let m := k.u 16 2
  let x := s.cell c
  x.cmds.all (fun y => !m.testBit y.q || decide (k.root < y.root) || decide (k.root = y.root ∧ k.num ≤ y.num)) &&
    x.queues.all (fun l => !m.testBit l.1 || l.2.all (fun e => decide (k.root ≤ e.root)))

/-- FENCE: completes when its condition holds (R139). -/
def execFence (c : Fin 256) (n : Nat) (s : State) : Res :=
  .next (s.work c.val n [0x0F02] (fun w => if w.s.fenceMet w.c w.k then w.finish else w))

/-- CANCEL: matched and stopped where it was appended (R141, R142), it completes once every command it matched has written its
record (R143). -/
def execCancel (c : Fin 256) (n : Nat) (s : State) : Res :=
  .next (match s.cmd c.val n with
    | some k => if decide (k.opcode = 0x0F01) && !s.cellDead c.val && s.mayComplete c.val k then s.complete c.val k else s
    | none => s)

end Sys2Proof.Machine
end

