-- ==== Sys2Proof/Machine/Carter.lean ====
section
/-! DEFINITION. Carters and their transfers (R133, R134, R144), and their packets to other modules (R315, R316, R322). -/

namespace Sys2Proof.Machine

/-! ## Repeating a step -/

/-- Repeating a step while it makes progress. -/
def State.steps (f : State → State × Bool) : Nat → State → State
  | 0, s => s
  | n + 1, s => let r := f s; if r.2 then State.steps f n r.1 else r.1

/-- Trying steps in order: the first that makes progress. -/
def State.firstOf (s : State) : List (State → State × Bool) → State × Bool
  | [] => (s, false)
  | f :: fs => let r := f s; if r.2 then r else State.firstOf r.1 fs

/-- One piece of work with whether it made progress: it did not where an access has to wait. -/
def W.step (w : W) : State × Bool := (w.keep, decide (w.halt ≠ .wait))

/-! ## Packets of remote accesses -/

/-- A run of n bytes cut into packets: offsets and lengths. -/
def packetCuts (n : Nat) : List (Nat × Nat) :=
  (List.range (ceilDiv n packetMax)).map (fun i => (i * packetMax, min packetMax (n - i * packetMax)))

/-- Sending one remote access with a fresh tag (R315, R316). -/
def State.remote (s : State) (dst t op addr len : Nat) (data : List Byte) (kind : RemKind) (cmd : Nat × Nat) : State :=
  let tag := s.fab.nextTag % 2 ^ 16
  let a : RemAcc := ⟨tag, kind⟩
  let s1 := { s with fab := { s.fab with outstanding := s.fab.outstanding ++ [a], nextTag := (tag + 1) % 2 ^ 16 } }
  s1.inject 0 ⟨dst, s.moduleId, t, op, 0, tag, addr, len, data⟩ none (some cmd)

/-- The module named by a global address field (R316). -/
def Cmd.module (k : Cmd) (o : Nat) : Nat := k.u (o + 6) 2

/-- The tenant number of a command, for its packets. -/
def Cmd.tenantNo (k : Cmd) : Nat :=
  match k.tenant with
  | some t => t.val
  | none => 0

/-! ## Transfers -/

/-- Outstanding transfers of a command. -/
def State.xfersOf (s : State) (c n : Nat) : List Xfer := (s.cell c).xfers.filter (fun x => decide (x.num = n))

/-- Whether a Carter queue is below its depth (R133). -/
def State.depthRoom (s : State) (c cq : Nat) : Bool :=
  decide (s.fld Fd.cellQueueOutst c cq < max 1 (min 256 (s.fld Fd.cellQueueDepth c cq)))

/-- Beginning a transfer. -/
def W.begin (w : W) (x : Xfer) : W :=
  let s1 := w.s.onCell w.c (fun y => { y with xfers := y.xfers ++ [x] })
  { w with s := s1.setFld Fd.cellQueueOutst w.c x.cq (s1.fld Fd.cellQueueOutst w.c x.cq + 1) }

/-- The number of a transfer among those of its command. -/
def Xfer.no (x : Xfer) : Nat := x.unit % 2 ^ 20

/-- Ending a transfer: what was noted of its wraps is let go of. -/
def W.endXfer (w : W) (x : Xfer) : W :=
  let s1 := w.s.onCell w.c (fun y => { y with xfers := y.xfers.erase x })
  { w with
    s := s1.setFld Fd.cellQueueOutst w.c x.cq (s1.fld Fd.cellQueueOutst w.c x.cq - 1)
    k := { w.k with wrapped := w.k.wrapped.filter (fun t => decide (t / 256 ≠ x.no)) } }

/-- Whether parts of a transfer are on their way to or from another module. -/
def State.xferAway (s : State) (c n u : Nat) : Bool :=
  s.fab.outstanding.any (fun a => match a.kind with
    | .fetch d m v _ => decide (d = c ∧ m = n ∧ v = u)
    | .store d m v _ => decide (d = c ∧ m = n ∧ v = u))

/-! ## Landing -/

/-- Writing what a transfer brought, at a distance from the place where it begins: the bytes written count in BYTES, those refused in
DISCARD_CNT (R118, R144). -/
def W.landPiece (w : W) (t base away : Nat) (bs : List Byte) : W :=
  if !w.on then w.discard bs.length
  else
    let g := w.writeT t base away bs
    if g.2.halt = .wait then g.2 else (g.2.moved g.1).discard (bs.length - g.1)

end Sys2Proof.Machine
end

