-- ==== Sys2Proof/Machine/Cooper.lean ====
section
/-! DEFINITION. Compression: tables (R237 to R242), frames and their index (R232 to R235), the coder (R243, R244), decoding (R249
to R252), swaps (R253, R254), and the commands TABLE_BUILD, TABLE_SWAP and COMPRESS. -/

namespace Sys2Proof.Machine

/-! ## Tables -/

/-- The Kraft sum of R238. -/
def kraft (lens : List Nat) : Nat := (lens.map (fun l => 2 ^ (12 - l))).foldl (· + ·) 0

/-- A complete code (R238). -/
def tableValid (lens : List Nat) : Bool :=
  decide (lens.length = 256) && lens.all (fun l => decide (1 ≤ l) && decide (l ≤ 12)) && decide (kraft lens = 4096)

/-- Symbols with their code lengths and canonical codewords (R238): symbol, length, codeword. -/
def codeBook (lens : List Nat) : List (Nat × Nat × Nat) :=
  ((List.range 12).foldl (fun (a : Nat × List (Nat × Nat × Nat)) i =>
    let l := i + 1
    let b := (List.range 256).foldl (fun (z : Nat × List (Nat × Nat × Nat)) y =>
      if lens.getD y 0 = l then (z.1 + 1, z.2 ++ [(y, l, z.1)]) else z) a
    (2 * b.1, b.2)) (0, [])).2

/-- A number of bits as booleans, most significant first. -/
def msbBits (n x : Nat) : List Bool := (List.range n).map (fun i => x.testBit (n - 1 - i))

/-- The number that bits spell, most significant first. -/
def ofBits (bs : List Bool) : Nat := bs.foldl (fun a b => 2 * a + b2n b) 0

/-- Bits of bytes, bit 7 first (R233). -/
def bitsOfBytes (bs : List Byte) : List Bool := bs.flatMap (fun b => msbBits 8 b.toNat)

/-- Bytes of bits, the last padded with zeros (R233). -/
def bytesOfBits (bs : List Bool) : List Byte :=
  (List.range (ceilDiv bs.length 8)).map (fun i =>
    let t := (bs.drop (8 * i)).take 8
    BitVec.ofNat 8 (ofBits (t ++ List.replicate (8 - t.length) false)))

/-- An item of the package merge (R241): its weight and the symbols in it. -/
structure PkItem where
  weight : Nat
  syms : List Nat
  deriving DecidableEq, Repr

/-- Inserting a leaf by weight, then symbol: leaves come in symbol order. -/
def pkInsert (x : PkItem) : List PkItem → List PkItem
  | [] => [x]
  | y :: ys => if y.weight ≤ x.weight then y :: pkInsert x ys else x :: y :: ys

/-- Pairs of neighbours as packages. -/
def pkPairs : List PkItem → List PkItem
  | a :: b :: r => ⟨a.weight + b.weight, a.syms ++ b.syms⟩ :: pkPairs r
  | _ => []

/-- Merging packages into leaves by weight; a leaf goes before a package of equal weight. -/
def pkMerge (leaves : List PkItem) : List PkItem → List PkItem
  | [] => leaves
  | p :: ps =>
    let r := pkMerge leaves ps
    r.takeWhile (fun y => leaves.contains y && decide (y.weight ≤ p.weight)) ++ [p] ++
      r.dropWhile (fun y => leaves.contains y && decide (y.weight ≤ p.weight))

/-- Code lengths of a histogram by length-limited package merge (R241). -/
def buildLens (bins : List Nat) : List Nat :=
  let leaves := (List.range 256).foldl (fun l y => pkInsert ⟨bins.getD y 0 + 1, [y]⟩ l) []
  let last := (List.range 11).foldl (fun l _ => pkMerge leaves (pkPairs l)) leaves
  let sel := (last.take 510).flatMap PkItem.syms
  (List.range 256).map (fun y => sel.count y)

/-- The histogram of bytes in 32-bit saturating bins (R241). -/
def histogram (bs : List Byte) : List Nat :=
  (List.range 256).map (fun y => satTo (2 ^ 32 - 1) (bs.countP (fun b => decide (b.toNat = y))))

/-- The code lengths in a bank, and its generation; none where it is empty. -/
def State.tableOf (s : State) (c slot bank : Nat) : Option (Nat × List Nat) :=
  if s.flag (if bank = 0 then Fd.cellTableSlotValid0 else Fd.cellTableSlotValid1) c slot then
    some (s.fld (if bank = 0 then Fd.cellTableSlotGen0 else Fd.cellTableSlotGen1) c slot,
      Tab.get (fun _ => []) (s.cell c).tables (2 * slot + bank))
  else none

/-- Writing a bank (R242): none empties it. -/
def State.setTable (s : State) (c slot bank : Nat) (t : Option (Nat × List Nat)) : State :=
  let valid := if bank = 0 then Fd.cellTableSlotValid0 else Fd.cellTableSlotValid1
  let gen := if bank = 0 then Fd.cellTableSlotGen0 else Fd.cellTableSlotGen1
  match t with
  | none => (s.setFld valid c slot 0).onCell c (fun x => { x with tables := Tab.set (fun _ => []) x.tables (2 * slot + bank) [] })
  | some (g, l) => ((s.setFld valid c slot 1).setFld gen c slot g).onCell c
      (fun x => { x with tables := Tab.set (fun _ => []) x.tables (2 * slot + bank) l })

/-- The bank that a port uses for a slot (R253). -/
def State.portTable (s : State) (c slot port : Nat) : Option (Nat × List Nat) :=
  s.tableOf c slot (Tab.get (fun _ => 0) (s.cell c).portBank (3 * slot + port))

/-- Whether a port waits at a block boundary for a swap of a slot (R254). -/
def State.swapHolds (s : State) (c slot port : Nat) : Bool :=
  (s.cell c).swaps.any (fun w => decide (w.slot = slot) && w.ports.contains port)

/-! ## Swaps -/

/-- A port switches for the oldest swap of a slot, unless a load is writing the inactive bank; the last port completes the swap
(R253). -/
def State.applySwap (s : State) (c slot port : Nat) : State :=
  match (s.cell c).swaps.find? (fun w => decide (w.slot = slot)) with
  | none => s
  | some w =>
    if s.flag Fd.cellTableSlotLoading c slot || !w.ports.contains port then s
    else
      let new := 1 - s.fld Fd.cellTableSlotActive c slot
      let ports := w.ports.filter (fun p => decide (p ≠ port))
      let s1 := s.onCell c (fun x => { x with
        portBank := Tab.set (fun _ => 0) x.portBank (3 * slot + port) new
        swaps := if ports = [] then x.swaps.erase w else x.swaps.map (fun y => if y = w then { w with ports := ports } else y) })
      if ports = [] then (s1.setFld Fd.cellTableSlotActive c slot new).syncSwap c slot else s1

/-- TABLE_SWAP_APPLY: a port reaches a block boundary and switches (R253). -/
def execTableSwapApply (c : Fin 256) (slot : Fin 16) (port : Fin 3) (s : State) : Res :=
  .next (if s.cellDead c.val then s else s.applySwap c.val slot.val port.val)

/-- TABLE_SWAP: the requested swaps apply at every port; it completes when no port of its slots remains on the old bank (R253).
Blocks are decoded and encoded whole, so no port is inside one here. -/
def execTableSwap (c : Fin 256) (n : Nat) (s : State) : Res :=
  .next (s.work c.val n [0x0502] (fun w =>
    let s1 := ((List.range 16).flatMap (fun i => [(i, 0), (i, 1), (i, 2)])).foldl (fun z (ip : Nat × Nat) =>
      match (z.cell w.c).swaps.find? (fun y => decide (y.slot = ip.1)) with
      | some y => if y.num = w.k.num then z.applySwap w.c ip.1 ip.2 else z
      | none => z) w.s
    let w1 := { w with s := s1 }
    if (s1.cell w.c).swaps.any (fun y => decide (y.num = w.k.num)) then w1 else w1.finish))

/-! ## TABLE_BUILD -/

/-- Writing the finished table, and its image where that is asked for, or leaving the bank empty where the lengths are invalid
(R242). -/
def W.putTable (w : W) (lens : List Nat) (gen : Nat) : W :=
  let k := w.k
  let slot := k.u 17 1 % 16
  let bank := 1 - w.s.fld Fd.cellTableSlotActive w.c slot
  let done := fun (z : W) => { z with s := z.s.setFld Fd.cellTableSlotLoading z.c slot 0 }
  if !w.on then done w
  else if !tableValid lens then (done { w with s := w.s.setTable w.c slot bank none }).fail cStaleTable
  else if k.bit 16 2 then
    let img := lens.map (BitVec.ofNat 8) ++ leBytes 1 gen ++ leBytes 7 0
    let w1 := w.openRun (k.addr 32) 264
    if w1.halt = .wait then w.back w1
    else
      let w2 := { w1 with s := w1.s.setTable w.c slot bank (some (gen, lens)) }.write (k.addr 32) img
      done (if w2.on then w2.moved 264 else w2)
  else done { w with s := w.s.setTable w.c slot bank (some (gen, lens)) }

/-- A table form with the lengths it yields, holding back while a swap of its slot is pending (R242). -/
def W.tableForm (w : W) (f : W → List Nat × Nat × W) : W :=
  let slot := w.k.u 17 1 % 16
  if (w.s.cell w.c).swaps.any (fun y => decide (y.slot = slot)) && !w.s.flag Fd.cellTableSlotLoading w.c slot then
    { w with halt := .wait }
  else
    let r := f w
    let z := r.2.2.putTable r.1 r.2.1
    if z.halt = .wait then w.back z else z.finish

/-- TABLE_BUILD: FORM BUILD makes a table from the bytes at SRC (R241); FORM 2 and 3 complete at once (R240). -/
def execTableBuild (c : Fin 256) (n : Nat) (s : State) : Res :=
  .next (s.work c.val n [0x0501] (fun w =>
    let form := w.k.u 16 1 % 4
    if 2 ≤ form then w.finish
    else if form = 1 then w
    else w.tableForm (fun z =>
      let cnt := z.k.u 20 4
      let r := z.read (z.k.addr 24) cnt
      (buildLens (histogram r.1), z.k.u 18 1, r.2.moved (if r.2.on then cnt else 0)))))

/-- TABLE_LOAD: FORM LOAD takes the image at SRC (R242). -/
def execTableLoad (c : Fin 256) (n : Nat) (s : State) : Res :=
  .next (s.work c.val n [0x0501] (fun w =>
    if w.k.u 16 1 % 4 ≠ 1 then w
    else w.tableForm (fun z =>
      let r := z.read (z.k.addr 24) 264
      ((r.1.take 256).map BitVec.toNat, fieldB r.1 256 1, r.2.moved (if r.2.on then 264 else 0)))))

/-! ## Coding (R243, R244) -/

/-- A block header (R232). -/
def blockHeader (clen dcount slot gen : Nat) (coded : Bool) : List Byte :=
  leBytes 8 (clen + dcount * 2 ^ 16 + slot * 2 ^ 32 + gen * 2 ^ 36 + b2n coded * 2 ^ 44)

/-- Cutting a unit into its places (R234). -/
def placesOf (bs : List Byte) : List (List Byte) :=
  (List.range (ceilDiv bs.length 4096)).map (fun i => (bs.drop (4096 * i)).take 4096)

/-- One place as a block, with whether it is coded (R243). -/
def codePlace (slot : Nat) (table : Option (Nat × List Nat)) (bs : List Byte) : List Byte × Bool :=
  let x := bs.length
  let raw := (blockHeader x x slot 0 false ++ bs ++ List.replicate (8 * ceilDiv x 8 - x) 0, false)
  match table with
  | none => raw
  | some (gen, lens) =>
    let book := codeBook lens
    let bits := bs.flatMap (fun b => match book.find? (fun e => decide (e.1 = b.toNat)) with
      | some e => msbBits e.2.1 e.2.2
      | none => [])
    let pay := bytesOfBits bits
    let n := pay.length
    if 16 * n ≤ 15 * x then (blockHeader n x slot gen true ++ pay ++ List.replicate (8 * ceilDiv n 8 - n) 0, true) else raw

/-- A unit as a frame (R235, R243): its bytes padded to 64, whether it is plain, and the coded and raw blocks in it. -/
def codeUnit (slot : Nat) (table : Option (Nat × List Nat)) (bs : List Byte) : List Byte × Bool × Nat × Nat :=
  let blocks := (placesOf bs).map (codePlace slot table)
  let f := blocks.flatMap Prod.fst
  let coded := blocks.countP (fun b => b.2)
  let pad := fun (l : List Byte) => l ++ List.replicate (ceilTo 64 l.length - l.length) 0
  if coded = 0 ∨ ceilTo 64 bs.length < ceilTo 64 f.length then (pad bs, true, 0, 0)
  else (pad f, false, coded, blocks.length - coded)

/-- Counting the blocks of a frame that the coder wrote (R255). -/
def State.countFrame (s : State) (c : Nat) (plain : Bool) (coded raw : Nat) : State :=
  if plain then s.bump Fd.cellPlainFrameCnt c
  else (s.bump Fd.cellCodedBlockCnt c 0 coded).bump Fd.cellRawBlockCnt c 0 raw

/-! ## Decoding (R249 to R252) -/

/-- What a decoded place is: its plain bytes, and what it raised. -/
structure Place' where
  plain : List Byte
  trunc : Bool
  overlong : Bool
  coded : Bool
  deriving DecidableEq, Repr

/-- The next symbol of a bit stream and the bits after it; none where its codeword needs bits beyond the end. -/
def nextSym (book : List (Nat × Nat × Nat)) (bits : List Bool) : Option (Nat × List Bool) :=
  (List.range 12).findSome? (fun i =>
    let l := i + 1
    if bits.length < l then none
    else
      match book.find? (fun e => decide (e.2.1 = l) && decide (e.2.2 = ofBits (bits.take l))) with
      | some e => some (e.1, bits.drop l)
      | none => none)

/-- Up to n symbols of a bit stream: the symbols, the bits left, and whether the bits ran out. -/
def takeSyms (book : List (Nat × Nat × Nat)) : Nat → List Bool → List Byte × List Bool × Bool
  | 0, bits => ([], bits, false)
  | n + 1, bits =>
    match nextSym book bits with
    | none => ([], bits, true)
    | some (y, rest) => let r := takeSyms book n rest; (BitVec.ofNat 8 y :: r.1, r.2)

/-- Whether a block is coded (R232). -/
def headerCoded (header : List Byte) : Bool := (fieldB header 0 8).testBit 44

/-- Whether a block is stale: coded, and its slot's bank is empty or of another generation (R252). -/
def staleBlock (header : List Byte) (table : Option (Nat × List Nat)) : Bool :=
  headerCoded header && (match table with
    | some (g, _) => decide (g ≠ bitsOf (fieldB header 0 8) 43 36)
    | none => true)

/-- Bytes of the payload that a block's decoding takes at most (R250). -/
def payloadBytes (header : List Byte) (x : Nat) : Nat :=
  if headerCoded header then fieldB header 0 2 else min (fieldB header 2 2) (min x (fieldB header 0 2))

/-- Decoding one block of a place of extent x from its header and payload (R250); a stale one is not decoded (R252). -/
def decodeBlock (header payload : List Byte) (x : Nat) (table : Option (Nat × List Nat)) : Place' :=
  let clen := fieldB header 0 2
  let dcount := fieldB header 2 2
  let fill := fun (l : List Byte) => l ++ List.replicate (x - l.length) 0
  if headerCoded header then
    match table with
    | none => ⟨fill [], true, false, true⟩
    | some (_, lens) =>
      let t := min dcount x
      let r := takeSyms (codeBook lens) t (bitsOfBytes (payload.take clen))
      ⟨fill r.1, r.2.2 || decide (t < x), !r.2.2 && decide (7 < r.2.1.length), true⟩
  else
    let t := min dcount (min x clen)
    ⟨fill (payload.take t), decide (t < x), decide (7 < 8 * (clen - t)), false⟩

/-- The slot that a header names. -/
def headerSlot (header : List Byte) : Nat := bitsOf (fieldB header 0 8) 35 32

/-- Where the next header lies (R233). -/
def nextHeader (at_ : Nat) (header : List Byte) : Nat := at_ + 8 + 8 * ceilDiv (fieldB header 0 2) 8

/-- A stale block stops the command (R252, R255). -/
def W.staleMet (w : W) : W := { w with s := w.s.bump Fd.cellStaleBlockCnt w.c }.fail cStaleTable

/-- What a decoded place does to its command and to the cell's counters (R250, R251, R255). -/
def W.placeDone (w : W) (p : Place') : W :=
  let s1 := w.s.bump (if p.coded then Fd.cellCodedBlockCnt else Fd.cellRawBlockCnt) w.c
  let w1 := { w with s := s1 }
  let w2 := if p.overlong then { w1 with s := w1.s.bump Fd.cellOverlongBlockCnt w.c }.note cOverlongBlock else w1
  if p.trunc then
    { w2 with s := w2.s.bump Fd.cellTruncBlockCnt w.c, k := { w2.k with soft := w2.k.soft <|> some cTruncatedBlock } }
  else w2

/-- One place through a port, from a reader of frame bytes by offset: the plain bytes, where the next header lies, and the work
(R249); the port waits where a swap of the slot that the block names is pending (R254). -/
def W.placeAt (w : W) (port : Nat) (get : W → Nat → Nat → List Byte × W) (at_ x : Nat) : List Byte × Nat × W :=
  let h := get w at_ 8
  let slot := headerSlot h.1
  let table := w.s.portTable w.c slot port
  if !h.2.on then ([], at_, h.2)
  else if w.s.swapHolds w.c slot port then ([], at_, w.back h.2)
  else if staleBlock h.1 table then ([], at_, h.2.staleMet)
  else
    let p := get h.2 (at_ + 8) (payloadBytes h.1 x)
    if !p.2.on then ([], at_, p.2)
    else
      let d := decodeBlock h.1 p.1 x table
      (d.plain, nextHeader at_ h.1, p.2.placeDone d)

/-- The places of a coded frame in order. -/
def W.placesFrom (w : W) (port : Nat) (get : W → Nat → Nat → List Byte × W) (at_ size done : Nat) : Nat → List Byte × W
  | 0 => ([], w)
  | n + 1 =>
    if size ≤ done ∨ !w.on then ([], w)
    else
      let r := w.placeAt port get at_ (min 4096 (size - done))
      if !r.2.2.on then ([], r.2.2)
      else
        let z := W.placesFrom r.2.2 port get r.2.1 size (done + 4096) n
        (r.1 ++ z.1, z.2)

/-- A whole unit of a size from its frame: verbatim where the frame is plain (R234). -/
def W.expandUnit (w : W) (port : Nat) (get : W → Nat → Nat → List Byte × W) (plain : Bool) (size : Nat) : List Byte × W :=
  if plain then get w 0 size else w.placesFrom port get 0 size 0 (size / 4096 + 1)

/-! ## Frame index (R235) -/

def entryAddr (e : List Byte) : Nat := fieldB e 0 6 / 64 * 64
def entryLen (e : List Byte) : Nat := 64 * bitsOf (fieldB e 0 8) 58 48
def entryPlain (e : List Byte) : Bool := (fieldB e 0 8).testBit 59

/-- The two bytes of an entry that the coder writes: FLEN and PLAIN over zero reserved bits (R244). -/
def entryTail (len : Nat) (plain : Bool) : List Byte := leBytes 2 (len / 64 + 2048 * b2n plain)

/-! ## COMPRESS (R245, R246) -/

/-- Plain bytes of a unit of a COMPRESS. -/
def Cmd.unitBytes (k : Cmd) : Nat := min 65536 (k.u 20 4 % 2 ^ 17)

/-- Compressing the next unit (R243, R244): its blocks are counted once the frame can be written. -/
def W.compressUnit (w : W) : W :=
  let k := w.k
  let slot := k.u 25 1 % 16
  if w.s.swapHolds w.c slot 2 then { w with halt := .wait }
  else
    let u := k.pos
    let n := k.unitBytes
    let at_ := (k.addr 40 + 8 * u + 6) % 2 ^ 48
    let r := w.read ((k.addr 32 + u * k.u 28 4) % 2 ^ 48) n
    let e := r.2.read ((k.addr 40 + 8 * u) % 2 ^ 48) 8
    let f := codeUnit slot (w.s.portTable w.c slot 2) r.1
    let o := (e.2.openRun (entryAddr e.1) f.1.length).openRun at_ 2
    if !o.on then o
    else
      let w1 := { o with s := o.s.countFrame w.c f.2.1 f.2.2.1 f.2.2.2, k := { o.k with pos := u + 1 } }.moved (n + 8)
      let w2 := w1.write (entryAddr e.1) f.1
      let w3 := if w2.on then w2.moved f.1.length else w2
      let w4 := w3.write at_ (entryTail f.1.length f.2.1)
      if w4.on then w4.moved 2 else w4

/-- A reader over bytes already fetched; what lies past them in the coder's buffer is open: free values. -/
def W.readBuf (buf : List Byte) (w : W) (o n : Nat) : List Byte × W :=
  if o + n ≤ buf.length then (sliceB buf o n, w)
  else
    let v := w.s.draw
    let known := (buf.drop o).take n
    (known ++ leBytes (n - known.length) v.1, { w with s := v.2 })

/-- Expanding the next unit: where its decoding waits for a swap, it begins again. -/
def W.expandNext (w : W) : W :=
  let k := w.k
  let u := k.pos
  let n := k.unitBytes
  let dst := (k.addr 32 + u * k.u 28 4) % 2 ^ 48
  let o := w.openRun dst n
  let e := o.read ((k.addr 40 + 8 * u) % 2 ^ 48) 8
  let f := e.2.read (entryAddr e.1) (entryLen e.1)
  if !f.2.on then f.2
  else
    let p := f.2.expandUnit 2 (W.readBuf f.1) (entryPlain e.1) n
    if p.2.halt = .wait then { w with halt := .wait }
    else
      let w1 := { p.2 with k := { p.2.k with pos := u + 1 } }.moved (8 + entryLen e.1)
      let w2 := w1.write dst p.1
      if w2.on then w2.moved n else w2

/-- One unit of a COMPRESS in its direction, or its end. -/
def W.compressStep (w : W) (f : W → W) : W :=
  if w.k.unitBytes = 0 ∨ w.k.u 16 4 ≤ w.k.pos ∨ w.k.cancelled then w.finish
  else
    let r := f w
    if r.halt = .fault then r.finish else r

/-- The units of a COMPRESS in one direction, ascending. -/
def State.compressRun (s : State) (c n dir : Nat) (f : W → W) : State :=
  match s.cmd c n with
  | none => s
  | some k =>
    if k.u 24 1 % 2 ≠ dir ∨ s.cellDead c then s
    else
      State.steps (fun z => match z.cmd c n with
        | some y => if y.finished ∨ y.opcode ≠ 0x0503 then (z, false) else ((W.mk z c y .go).compressStep f).step
        | none => (z, false)) (k.u 16 4 + 1) s

/-- COMPRESS_UNITS: DIR 0 codes plain units into frames (R246). -/
def execCompressUnits (c : Fin 256) (n : Nat) (s : State) : Res := .next (s.compressRun c.val n 0 W.compressUnit)

/-- EXPAND_UNITS: DIR 1 decodes frames into plain units (R246). -/
def execExpandUnits (c : Fin 256) (n : Nat) (s : State) : Res := .next (s.compressRun c.val n 1 W.expandNext)

end Sys2Proof.Machine
end

