-- ==== Sys2Proof/Machine/Output.lean ====
section
/-! DEFINITION. The output stage: function compositions (R147, R152, R154, R156, R158), codes in rows (R91, R206), element images
(R166), the rows of ACT_FUSED (R159, R160), and NORM_STATS (R165 to R169). -/

namespace Sys2Proof.Machine

/-! ## Functions -/

/-- What a function takes: the exact linear value a × 2^e (none: NaR), its LX32 value, and whether that value is exact, as for
stored codes (R160), so that no R34 step rounds again. -/
structure FnIn where
  lin : Option (Int × Int)
  lx : LVal
  exact : Bool
  deriving DecidableEq, Repr

/-- The LX32 value after the clamps of R93, uncounted in intermediate steps (R152). -/
def lxClamp (v : LVal) : LVal := lxVal (lxOfVal v).1

/-- The LX32 value of a linear value by R34. -/
def lxOfLin (a e : Int) : LVal :=
  if a = 0 then .zero else lxClamp (.num (decide (a < 0)) (roundLog 10 a.natAbs 1 e 0))

/-- An accumulator element as function input (R32, R55). -/
def FnIn.ofAcc (w : Int) (x : Acc) : FnIn :=
  if x.nar then ⟨none, .nar, false⟩ else ⟨some (x.v, w - 30), lxOfLin x.v (w - 30), false⟩

/-- A stored code as function input: embedded exactly, its linear value by the T16 magnitude (R30, R93, R160). -/
def FnIn.ofVal (v : LVal) : FnIn :=
  match v with
  | .nar => ⟨none, .nar, true⟩
  | .zero => ⟨some (0, 0), .zero, true⟩
  | .num neg l => ⟨some (sInt neg (t16 (l % 1024).toNat), l / 1024 - 16), .num neg l, true⟩

/-- Function codes of R154; every other code acts as NONE. -/
inductive Fn where
  | none
  | exp2
  | exp
  | relu
  | relu2
  | recip
  | rsqrt
  | sigmoid
  | silu
  | gelu
  | softplus
  deriving DecidableEq, Repr

/-- The function of a code and whether it is gated (R154, R158). -/
def fnOf (code : Nat) : Fn × Bool :=
  match code with
  | 1 => (.exp2, false)
  | 2 => (.exp, false)
  | 3 => (.relu, false)
  | 4 => (.relu2, false)
  | 5 => (.recip, false)
  | 6 => (.rsqrt, false)
  | 7 => (.sigmoid, false)
  | 8 => (.silu, false)
  | 9 => (.gelu, false)
  | 10 => (.softplus, false)
  | 16 => (.silu, true)
  | 17 => (.gelu, true)
  | 18 => (.relu2, true)
  | _ => (.none, false)

/-- LOG2E × 2^32 and LN2 × 2^32 (R152). -/
def log2E : Int := 0x171547653
def ln2C : Int := 0xB17217F8

/-- One in LX32. -/
def lxOne : LVal := .num false 0

/-- exp2 of an exact value x × 2^e in LX32 (R147). -/
def lxExp2 (x e : Int) : LVal := lxClamp (lvalOfS (.expv x e))

/-- σ from y = x × LOG2E: LNEGX(LADD(1, exp2(-y))) (R152). -/
def lxSigmoid (x e : Int) : LVal := lnegxVal (lxClamp (lxAdd lxOne (lxExp2 (-x) e)))

/-- GELU in the tanh form (R152). -/
def lxGelu (x : LVal) : LVal :=
  let m := fun a b => lxClamp (lmulVal a b)
  let z := lxClamp (lxAdd x (m (.num false (-4591)) (m x (m x x))))
  let y := m (.num false 1232) z
  match y with
  | .nar => .nar
  | .zero => m x (lnegxVal (lxClamp (lxAdd lxOne lxOne)))
  | .num neg l =>
    m x (lnegxVal (lxClamp (lxAdd lxOne (lxExp2 (sInt (!neg) (cg 10 (l % 1024).toNat)) (l / 1024 - 23)))))

/-- An LX32 result on its way to a code (R152). -/
def ofLx (v : LVal) : SVal :=
  match v with
  | .zero => .zero
  | .nar => .nar
  | .num neg l => .logv neg (64 * l)

/-- The result of a function before output rounding (R152). -/
def fnApply (f : Fn) (x : FnIn) : SVal :=
  match x.lin with
  | Option.none => .nar
  | some (a, e) =>
    let lin : SVal := if a = 0 then .zero else if x.exact then ofLx x.lx else .lin (decide (a < 0)) a.natAbs 1 e
    match f with
    | .none => lin
    | .exp2 => .expv a e
    | .exp => .expv (a * log2E) (e - 32)
    | .relu => if a ≤ 0 then .zero else lin
    | .relu2 =>
      if a ≤ 0 then .zero else if x.exact then ofLx (lmulVal x.lx x.lx) else .lin false (a * a).natAbs 1 (2 * e)
    | .recip => ofLx (lnegxVal x.lx)
    | .rsqrt => ofLx (match lhalfVal x.lx with
      | .zero => .nar
      | v => lnegxVal v)
    | .sigmoid => ofLx (lxSigmoid (a * log2E) (e - 32))
    | .silu => ofLx (lxClamp (lmulVal x.lx (lxSigmoid (a * log2E) (e - 32))))
    | .gelu => ofLx (lxGelu x.lx)
    | .softplus =>
      let y := a * log2E
      let small := if 0 ≤ e - 32 then decide (y * 2 ^ (e - 32).toNat ≤ -11) else decide (y ≤ -11 * 2 ^ (32 - e).toNat)
      if small then .expv y (e - 32)
      else
        match lxClamp (lxAdd lxOne (lxExp2 y (e - 32))) with
        | .num _ l => if l = 0 then .zero else .lin (decide (l < 0)) (ln2C * l).natAbs 1 (-42)
        | _ => .zero

/-- Functions that XC = 1 evaluates in FP32 (R156). -/
def fnCompat : Fn → Bool
  | .exp | .sigmoid | .silu | .gelu | .softplus => true
  | _ => false

/-- The FP32 constants of R156, rounded toward zero: log2e, c3, k, ln2, one. -/
def fLog2e : Word := 0x3FB8AA3B
def fC3 : Word := 0x3D372713
def fK : Word := 0x40135761
def fLn2 : Word := 0x3F317217
def fOne : Word := 0x3F800000

/-- An element as FP32, to nearest even (R156). -/
def fpOfIn (x : FnIn) : Word :=
  match x.lin with
  | Option.none => fpNaN
  | some (a, e) => (fpRoundInt .ne false a e).1

/-- The FP32 composition of a function, every operation rounded toward zero (R156). -/
def fnFp (f : Fn) (x : Word) : Word :=
  let mul := fun a b => (fpMul .tz a b).1
  let add := fun a b => (fpAdd .tz a b).1
  let recip1 := fun a => (fpDiv .tz fOne (add fOne a)).1
  let ex := fun a => (fpExp2 true a).1
  let y := mul x fLog2e
  match f with
  | .exp => ex y
  | .sigmoid => recip1 (ex (fpNeg y))
  | .silu => mul x (recip1 (ex (fpNeg y)))
  | .gelu =>
    let z := add x (mul fC3 (mul (mul x x) x))
    mul x (recip1 (ex (fpNeg (mul fK z))))
  | .softplus => mul fLn2 (fpLog2 true (add fOne (ex y))).1
  | _ => x

/-- An output element of an ungated function (R152, R156). -/
def fnOut (f : Fn) (xc : Bool) (x : FnIn) : SVal :=
  if xc && fnCompat f then fpToS (fnFp f (fpOfIn x)) else fnApply f x

/-- The up element of a product as FP32 (R156): a stored code by R26, an accumulator element to nearest even. -/
def fpOfUp (u : FnIn) : Word := if u.exact then (fpOfLog u.lx).1 else fpOfIn u

/-- A fused element act(gate) × up (R156, R158, R160). With XC = 1 a stored gate becomes FP32 from its linear value, which R160 forms
with T16; R26 converts codes otherwise, and R156 does not say which it means (DEDUCED; log entry 59). -/
def fnGate (f : Fn) (xc : Bool) (g u : FnIn) : SVal :=
  if xc && fnCompat f then fpToS (fpMul .tz (fnFp f (fpOfIn g)) (fpOfUp u)).1
  else ofLx (lxClamp (lmulVal (lxClamp (lvalOfS (fnApply f g))) u.lx))

/-! ## Codes in rows -/

/-- A format field: 3 is read as 2. -/
def fmtAt (k : Cmd) (o lo : Nat) : Fmt := Fmt.ofField (bitsOf (k.u o 1) (lo + 1) lo)

/-- Bytes of n codes. -/
def codeBytes (f : Fmt) (n : Nat) : Nat := ceilDiv (n * f.bits) 8

/-- Code i of packed codes: in L4 the even index is the low nibble (R91). -/
def codeAt (f : Fmt) (bs : List Byte) (i : Nat) : Nat :=
  match f with
  | .l4 => fieldB bs (i / 2) 1 / 16 ^ (i % 2) % 16
  | .l8 => fieldB bs i 1
  | .l16 => fieldB bs (2 * i) 2

/-- Packing codes in order. -/
def packCodes (f : Fmt) (cs : List Nat) : List Byte :=
  match f with
  | .l4 => (List.range (ceilDiv cs.length 2)).map (fun i => BitVec.ofNat 8 (cs.getD (2 * i) 0 + 16 * cs.getD (2 * i + 1) 0))
  | .l8 => cs.map (BitVec.ofNat 8)
  | .l16 => cs.flatMap (leBytes 2)

/-- Whether a code is NaR. -/
def isNarCode (f : Fmt) (c : Nat) : Bool := decide (c = narCode f)

/-- A row of n stored values from its codes and its block exponents. -/
def rowVals (f : Fmt) (codes exps : List Byte) (n : Nat) : List LVal :=
  (List.range n).map (fun i => decodeCode f (codeAt f codes i) (expByte (exps.getD (i / f.blk) 0)))

/-- Counts of NaR operands in values read (R44). -/
def narCount (vs : List LVal) : Counts := ⟨0, 0, vs.countP (fun v => decide (v = .nar)), 0⟩

/-- Cutting a list into blocks. -/
def blocksOf {α : Type} (n : Nat) (xs : List α) : List (List α) :=
  (List.range (ceilDiv xs.length n)).map (fun i => (xs.drop (n * i)).take n)

/-- A row coded by the main path, block by block (R35): codes, exponents, counts. -/
def codeRow (f : Fmt) (t : Int) (vs : List SVal) : List Nat × List Byte × Counts :=
  let bs := (blocksOf f.blk vs).map (codeBlock f t)
  (bs.flatMap (fun b => b.2.1), bs.map (fun b => BitVec.ofInt 8 b.1), bs.foldl (fun c b => c.add b.2.2) Counts.none)

/-! ## Rows of a command -/

/-- The rows of a command in order, one step each: a fault ends it. -/
def W.rowStep (rows : Nat) (f : W → W) (w : W) : W :=
  if rows ≤ w.k.pos ∨ w.k.cancelled then w.finish
  else
    let r := f w
    match r.halt with
    | .go => { r with k := { r.k with pos := w.k.pos + 1 } }
    | .fault => r.finish
    | .wait => r

/-- Running a step on a started command of one opcode until it ends or waits. -/
def State.runCmd (s : State) (c n op fuel : Nat) (f : W → W) : State :=
  if s.cellDead c then s
  else
    State.steps (fun z => match z.cmd c n with
      | some y => if y.finished ∨ y.opcode ≠ op then (z, false) else (f (W.mk z c y .go)).step
      | none => (z, false)) fuel s

/-- The number under which the output row under way notes its wrap (R69). -/
def rowOutNo : Nat := 2 ^ 19 + 16

/-- Writing a row's codes and its exponents: what lands counts in BYTES, what is refused in DISCARD_CNT (R118). -/
def W.putRow (w : W) (a : Nat) (codes : List Byte) (x : Nat) (exps : List Byte) : W :=
  let w1 := (w.landPiece rowOutNo a 0 codes).landPiece rowOutNo x 0 exps
  if w1.halt = .wait then w1 else { w1 with k := { w1.k with wrapped := w1.k.wrapped.filter (fun t => decide (t / 256 ≠ rowOutNo)) } }

/-! ## ACT_FUSED -/

/-- One row of an ACT_FUSED (R159, R160): what is delivered and what is coded counts, whether or not the row can be written (R44). -/
def W.actRow (w : W) : W :=
  let k := w.k
  let r := k.pos
  let n := k.u 20 4
  let fi := fmtAt k 25 0
  let fo := fmtAt k 25 2
  let fn := (fnOf (bitsOf (k.u 24 1) 6 1)).1
  let xc := k.bit 24 0
  let t := k.i 26 1
  let m := 2 ^ 48
  let ne := ceilDiv n fi.blk
  let gc := w.read ((k.addr 32 + r * k.u 28 4) % m) (codeBytes fi n)
  let ge := gc.2.read ((k.addr 40 + r * ne) % m) ne
  let uc := ge.2.read ((k.addr 48 + r * k.u 28 4) % m) (codeBytes fi n)
  let ue := uc.2.read ((k.addr 56 + r * ne) % m) ne
  if !ue.2.on then ue.2
  else
    let gs := rowVals fi gc.1 ge.1 n
    let us := rowVals fi uc.1 ue.1 n
    let vs := (gs.zip us).map (fun (p : LVal × LVal) => fnGate fn xc (FnIn.ofVal p.1) (FnIn.ofVal p.2))
    let o := codeRow fo t vs
    let w1 := (((ue.2.count (narCount (gs ++ us))).count o.2.2).gather (histMaxOf t vs)).moved (2 * (codeBytes fi n + ne))
    w1.putRow ((k.addr 64 + r * k.u 80 4) % m) (packCodes fo o.1) ((k.addr 72 + r * ceilDiv n fo.blk) % m) o.2.1

/-! ## NORM_STATS -/

/-- The image of a value in units of 2^(W - 30), with its counts (R166). -/
def image (w : Int) (v : LVal) : Int × Counts :=
  match v with
  | .num neg l =>
    let mag := shiftMag (t16 (l % 1024).toNat) 16 (l / 1024) w
    if mag = 0 then (0, Counts.oneFlush)
    else if 2 ^ 63 ≤ mag then (if neg then accMin else accMax, Counts.oneSat)
    else (sInt neg mag, Counts.none)
  | _ => (0, Counts.none)

/-- An LX32 code of num / den × 2^e2 by R34 with no trim; the zero code for zero. -/
def lxRound (neg : Bool) (num den : Nat) (e2 : Int) : LVal :=
  if num = 0 then .zero else .num neg (roundLog 10 num den e2 0)

/-- The record of a row from its images (R167, R168): MEAN, VAR, RSTD. -/
def normRecord (rms : Bool) (given : Option Int) (n : Nat) (w eps : Int) (xs : List Int) : List LVal :=
  let sum := given.getD (xs.foldl (· + ·) 0)
  let mean := if rms then 0 else roundHE (sum * 2 ^ 16) n
  let q := (xs.foldl (fun a x => a + (x * 2 ^ 16 - mean) * (x * 2 ^ 16 - mean)) 0).natAbs
  let e := 2 * w - 92
  let lo := min e eps
  let v := q * 2 ^ (e - lo).toNat + n * 2 ^ (eps - lo).toNat
  [lxRound (decide (mean < 0)) mean.natAbs 1 (w - 46), lxRound false q n e,
    lnegxVal (lxClamp (lhalfVal (lxClamp (lxRound false v n lo))))]

/-- One row of a NORM_STATS (R165 to R169): of a given record COUNT is not read (R169). -/
def W.normRow (w : W) : W :=
  let k := w.k
  let r := k.pos
  let n := k.u 20 4
  let f := fmtAt k 24 0
  let rms := k.bit 24 2
  let given := k.bit 24 3 && !rms
  let win := k.i 26 2
  let m := 2 ^ 48
  let ne := ceilDiv n f.blk
  let nb := codeBytes f n
  let cs := w.read ((k.addr 32 + r * k.u 28 4) % m) nb
  let es := cs.2.read ((k.addr 40 + r * ne) % m) ne
  let si := if given then es.2.read ((k.addr 56 + 16 * r) % m) 12 else ([], es.2)
  let vs := rowVals f cs.1 es.1 n
  let imgs := vs.map (image win)
  let counts := imgs.foldl (fun a x => a.add x.2) (narCount vs)
  let nar := vs.any (fun v => decide (v = .nar))
  let rec3 := if nar then [.nar, .nar, .nar]
    else normRecord rms (if given then some (toSigned 96 (fieldB si.1 0 12)) else none) n win (k.i 25 1) (imgs.map Prod.fst)
  let codes := rec3.map lxOfVal
  let out := codes.flatMap (fun x => leBytes 4 x.1.toNat) ++ leBytes 4 0
  let again := if 65536 < nb ∧ !rms ∧ !given then nb + ne else 0
  if !si.2.on then si.2
  else
    let w1 := si.2.count (counts.add (if nar then ⟨0, 0, 0, 3⟩ else Counts.none))
    let w2 := (w1.moved (nb + ne + again + (if given then 12 else 0))).write ((k.addr 48 + 16 * r) % m) out
    if w2.on then w2.moved 16 else w2

/-- NORM_STATS: mean, variance and reciprocal deviation of each row (R165 to R169). -/
def execNormStats (c : Fin 256) (n : Nat) (s : State) : Res :=
  .next (match s.cmd c.val n with
    | some k =>
      let rows := if k.u 20 4 = 0 then 0 else k.u 16 4
      s.runCmd c.val n 0x0401 (rows + 1) (W.rowStep rows W.normRow)
    | none => s)

end Sys2Proof.Machine
end

