-- ==== Sys2Proof/Machine/Mill.lean ====
section
/-! DEFINITION. The Mill's operands and products: tiles and their order (R51, R54, R59, R61, R158, R211, R226, R474), where operands
lie (R52, R53, R129, R130, R205, R206, R208, R248), their delivery (R42, R44, R207), their fetches (R126, R134), die-row
multicast (R62 to R65), and the accumulation of a tile (R31 to R33, R55 to R57). -/

namespace Sys2Proof.Machine

/-! ## Geometry -/

/-- What the descriptor of a GEMM or GEMM_DW fixes: extents, formats, tile width, Turner modes (R54, R128, R208, R210). -/
structure Geo where
  dw : Bool
  m : Nat
  n : Nat
  kk : Nat
  fa : Fmt
  fb : Fmt
  fo : Fmt
  wide : Bool
  p : Nat
  ma : Nat
  mb : Nat
  gated : Bool
  axis1 : Bool
  deriving DecidableEq, Repr

def Cmd.geo (k : Cmd) : Geo :=
  let dw := decide (k.opcode = 0x0202)
  let fa := fmtAt k 29 0
  let fb := fmtAt k 29 2
  let wide := decide (fa = .l16) || decide (fb = .l16)
  let turn := k.u 32 1
  { dw, m := k.u 16 4, n := k.u 20 4, kk := k.u 24 4, fa, fb, fo := fmtAt k 29 4, wide, p := if wide then 64 else 128,
    ma := if dw then turn % 4 else if k.bit 35 3 then 1 else 0,
    mb := if dw then turn / 4 % 4 else if k.bit 35 4 then 3 else 0,
    gated := !dw && k.bit 28 4 && (fnOf (bitsOf (k.u 33 1) 6 1)).2, axis1 := k.bit 29 6 }

/-- Whether two row panels run together (R474; the quarters of a Till tile, R211). -/
def Geo.paired (g : Geo) : Bool := g.wide && (g.dw || (g.axis1 && decide (g.fo = .l16)))

/-- k-steps of a 64 KiB streaming tile (R52), and streaming tiles of a tile column. -/
def Geo.tileSteps (g : Geo) : Nat := 2 ^ 19 / (g.p * g.fb.bits)
def Geo.streams (g : Geo) : Nat := ceilDiv g.kk g.tileSteps

/-- Output columns (R158). -/
def Geo.outN (g : Geo) : Nat := if g.gated then 32 * (g.n / 64) else g.n

/-- Output columns of a tile. -/
def Geo.outP (g : Geo) : Nat := if g.gated then g.p / 2 else g.p

/-- The columns of the product that form an output column: one, or gate and up (R158). -/
def Geo.sources (g : Geo) (j : Nat) : List Nat := if g.gated then [64 * (j / 32) + j % 32, 64 * (j / 32) + 32 + j % 32] else [j]

def mapBit (bs : List Byte) (i : Nat) : Bool := (bs.getD (i / 8) 0).toNat.testBit (i % 8)

/-- Whether a row or a column takes part (R59); a GEMM_DW has no predicates. -/
def Cmd.rowLive (k : Cmd) (g : Geo) (i : Nat) : Bool :=
  decide (i < g.m) && (g.dw || !k.bit 35 0 || (match k.maps with
    | some x => mapBit x.1 i
    | none => true))

def Cmd.colLive (k : Cmd) (g : Geo) (j : Nat) : Bool :=
  decide (j < g.n) && (g.dw || !k.bit 35 1 || (match k.maps with
    | some x => mapBit x.2 j
    | none => true))

/-- The live rows and columns of a tile. -/
def Cmd.rowsOf (k : Cmd) (g : Geo) (rt : Nat) : List Nat :=
  ((List.range g.p).map (fun i => rt * g.p + i)).filter (k.rowLive g)

def Cmd.colsOf (k : Cmd) (g : Geo) (ct : Nat) : List Nat :=
  ((List.range g.p).map (fun j => ct * g.p + j)).filter (k.colLive g)

/-- The output columns of a tile inside the extents. -/
def Geo.outColsOf (g : Geo) (ct : Nat) : List Nat :=
  ((List.range g.outP).map (fun j => ct * g.outP + j)).filter (fun j => decide (j < g.outN))

/-- Whether an output element is live (R59, R158). -/
def Cmd.outLive (k : Cmd) (g : Geo) (i j : Nat) : Bool := k.rowLive g i && (g.sources j).all (k.colLive g)

/-- Whether a tile has a live output element (R61, R158), and is not masked (R226). -/
def Cmd.tileRuns (k : Cmd) (g : Geo) (rt ct : Nat) : Bool :=
  let masked := g.dw && k.bit 35 0 && (match k.maps with
    | some x => !mapBit x.1 (if g.wide then rt / 2 else rt)
    | none => false)
  !masked && !(k.rowsOf g rt).isEmpty && (g.outColsOf ct).any (fun j => (g.sources j).all (k.colLive g))

/-- The tiles that run, in their order (R51, R61, R211, R226, R474). -/
def Cmd.runs (k : Cmd) (g : Geo) : List (Nat × Nat) :=
  let np := ceilDiv g.m g.p
  let nc := ceilDiv g.n g.p
  let order : List (Nat × Nat) :=
    if g.paired && g.dw then
      (List.range (ceilDiv np 2)).flatMap (fun a => (List.range (ceilDiv nc 2)).flatMap (fun b =>
        [(2 * a, 2 * b), (2 * a, 2 * b + 1), (2 * a + 1, 2 * b), (2 * a + 1, 2 * b + 1)]))
    else if g.paired then
      (List.range (ceilDiv np 2)).flatMap (fun a => (List.range nc).flatMap (fun t => [(2 * a, t), (2 * a + 1, t)]))
    else (List.range np).flatMap (fun a => (List.range nc).map (fun t => (a, t)))
  order.filter (fun x => k.tileRuns g x.1 x.2)

/-- Whether a GEMM or GEMM_DW has nothing to do: an extent of zero, no tile that runs, or a ring of no slots (R131, R144). -/
def Cmd.nothing (k : Cmd) : Bool :=
  let g := k.geo
  decide (g.kk = 0) || (k.runs g).isEmpty || (k.bit 28 1 && decide (k.u 39 1 = 0))

/-- The resident-panel load that a row tile belongs to. -/
def Geo.groupOf (g : Geo) (rt : Nat) : Nat := if g.paired then rt / 2 else rt

/-- The loads of the resident panel, in order. -/
def Cmd.groups (k : Cmd) (g : Geo) : List Nat := ((k.runs g).map (fun x => g.groupOf x.1)).eraseDups

/-! ## Where an operand lies -/

/-- A place of an operand (R52, R129, R130, R205, R206): format, Turner mode, panel width, addresses of codes and exponents, the
stored row or panel stride, blocks per stored row, and the panel element and k-step that it begins with. -/
structure Src where
  f : Fmt
  mode : Nat
  p : Nat
  code : Nat
  exp : Nat
  stride : Nat
  nb : Nat
  e0 : Nat
  k0 : Nat
  deriving DecidableEq, Repr

/-- The bit address of the code of panel element e at k-step k. -/
def Src.codeBit (x : Src) (e k : Nat) : Nat :=
  let i := e - x.e0
  let j := k - x.k0
  match x.mode with
  | 0 => 8 * x.code + (j * x.p + i) * x.f.bits
  | 1 => 8 * (x.code + i * x.stride) + j * x.f.bits
  | 2 => 8 * (x.code + j * x.stride) + i * x.f.bits
  | _ => 8 * (x.code + j / x.p * x.stride) + (i * x.p + j % x.p) * x.f.bits

/-- The address of the exponent of the block that holds it. -/
def Src.expAddr (x : Src) (e k : Nat) : Nat :=
  let i := e - x.e0
  let j := k - x.k0
  let bs := x.f.blk
  match x.mode with
  | 0 => x.exp + j / bs * x.p + i
  | 1 => x.exp + i * x.nb + j / bs
  | 2 => x.exp + j * x.nb + i / bs
  | _ => x.exp + j / x.p * (x.p * x.nb) + i / bs * x.p + j % x.p

/-- The runs of codes that hold elements e1 to e2 - 1 of k-steps k1 to k2 - 1: address and length. -/
def Src.codeRuns (x : Src) (e1 e2 k1 k2 : Nat) : List (Nat × Nat) :=
  let b := x.f.bits
  match x.mode with
  | 0 => [(x.code + (k1 - x.k0) * x.p * b / 8, ceilDiv ((k2 - k1) * x.p * b) 8)]
  | 1 => (List.range (e2 - e1)).map (fun i => (x.codeBit (e1 + i) k1 / 8, ceilDiv ((k2 - k1) * b) 8))
  | 2 => (List.range (k2 - k1)).map (fun j => (x.codeBit e1 (k1 + j) / 8, ceilDiv ((e2 - e1) * b) 8))
  | _ => (List.range (ceilDiv (k2 - k1) x.p)).map (fun q => (x.codeBit e1 (k1 + q * x.p) / 8, ceilDiv ((e2 - e1) * x.p * b) 8))

/-- The runs of their exponents. -/
def Src.expRuns (x : Src) (e1 e2 k1 k2 : Nat) : List (Nat × Nat) :=
  let bs := x.f.blk
  match x.mode with
  | 0 => [(x.expAddr x.e0 k1, ceilDiv (k2 - k1) bs * x.p)]
  | 1 => (List.range (e2 - e1)).map (fun i => (x.expAddr (e1 + i) k1, ceilDiv (k2 - k1) bs))
  | 2 => (List.range (k2 - k1)).map (fun j => (x.expAddr e1 (k1 + j), ceilDiv (e2 - e1) bs))
  | _ => (List.range (ceilDiv (k2 - k1) x.p)).map (fun q => (x.expAddr e1 (k1 + q * x.p), ceilDiv (e2 - e1) bs * x.p))

/-- The stored operand that a descriptor names, for panel or tile column t: side 0 is A, side 1 is B (R129, R206). -/
def Cmd.stored (k : Cmd) (g : Geo) (side t : Nat) : Src :=
  let f := if side = 0 then g.fa else g.fb
  let mode := if side = 0 then g.ma else g.mb
  let code := k.addr (if side = 0 then 40 else 56)
  let exp := k.addr (if side = 0 then 48 else 64)
  let stride := k.u (if side = 0 then 112 else 116) 4
  let ext := if side = 0 then g.m else g.n
  let bs := f.blk
  match mode with
  | 0 => ⟨f, 0, g.p, code + t * stride, exp + t * (g.p * ceilDiv g.kk bs), 0, 0, t * g.p, 0⟩
  | 1 => ⟨f, 1, g.p, code, exp, stride, ceilDiv g.kk bs, 0, 0⟩
  | 2 => ⟨f, 2, g.p, code, exp, stride, ceilDiv ext bs, 0, 0⟩
  | _ => ⟨f, 3, g.p, code, exp, stride, ceilDiv ext bs, 0, 0⟩

/-- Length of a stored row of an operand (R206): the reduction length in mode 1, the panel extent in mode 2. -/
def Geo.rowLen (g : Geo) (side : Nat) : Nat :=
  if (if side = 0 then g.ma else g.mb) = 1 then g.kk else if side = 0 then g.m else g.n

/-- The stored row stride of a fetched operand (R208); in mode 3, which has no rows, the stored panels follow one another
(log entry 60). -/
def bufStride (f : Fmt) (mode p lr : Nat) : Nat := if mode = 3 then p * p * f.bits / 8 else ceilTo 128 (ceilDiv (lr * f.bits) 8)

/-- Bytes of codes and of exponents that a fetched panel or tile of n k-steps takes in its buffer (R130, R208). The exponents follow
the codes at the next 128 bytes (DEDUCED; log entry 60). -/
def bufCodes (f : Fmt) (mode p lr n : Nat) : Nat :=
  match mode with
  | 0 => ceilTo 128 (ceilDiv (p * n * f.bits) 8)
  | 1 => p * bufStride f 1 p lr
  | 2 => n * bufStride f 2 p lr
  | _ => ceilDiv n p * bufStride f 3 p lr

def bufExps (f : Fmt) (mode p lr n : Nat) : Nat :=
  match mode with
  | 0 => p * ceilDiv n f.blk
  | 1 => p * ceilDiv lr f.blk
  | 2 => n * ceilDiv lr f.blk
  | _ => ceilDiv n p * p * ceilDiv p f.blk

/-- The same operand copied into a buffer: codes at one place, exponents at another (R130, R208). -/
def bufSrc (f : Fmt) (mode p lr code exp t k0 : Nat) : Src :=
  match mode with
  | 0 => ⟨f, 0, p, code, exp, 0, 0, t * p, k0⟩
  | 1 => ⟨f, 1, p, code, exp, bufStride f 1 p lr, ceilDiv lr f.blk, t * p, k0⟩
  | 2 => ⟨f, 2, p, code, exp, bufStride f 2 p lr, ceilDiv lr f.blk, t * p, k0⟩
  | _ => ⟨f, 3, p, code, exp, bufStride f 3 p lr, ceilDiv p f.blk, t * p, k0⟩

/-- Bytes of a fetched panel's codes, and where its exponents end. -/
def Geo.panelCodes (g : Geo) : Nat := bufCodes g.fa g.ma g.p (g.rowLen 0) g.kk
def Geo.panelSize (g : Geo) : Nat := g.panelCodes + bufExps g.fa g.ma g.p (g.rowLen 0) g.kk

/-- Where a panel of a load is placed: the second begins at the first 128-byte boundary after the exponents of the first (R474). -/
def Cmd.panelBase (k : Cmd) (g : Geo) (rt : Nat) : Nat :=
  let a := k.u 88 4
  if !g.paired || decide (rt % 2 = 0) then a else ceilTo 128 (a + g.panelSize)

/-- Whether an operand goes through the Cooper as coded frames (R130, R208). -/
def Cmd.expandA (k : Cmd) (g : Geo) : Bool := k.bit 28 2 && decide (g.ma = 0)
def Cmd.expandB (k : Cmd) (g : Geo) : Bool := k.bit 28 3 && decide (g.mb = 0)
def Cmd.fetchA (k : Cmd) : Bool := k.bit 28 0
def Cmd.fetchB (k : Cmd) : Bool := k.bit 28 1

/-- The low 7 bits of an operand buffer address are ignored (R53). R53 does not say whether this holds for a buffer that the Turner reads
or that holds coded frames: there the address is used as it is (DESIGN CHOICE; log entry 58). -/
def millAlign (a : Nat) : Nat := a / 128 * 128

/-- The resident panel as the Mill reads it: in its buffer, or in place (R53, R130). -/
def Cmd.srcA (k : Cmd) (g : Geo) (rt : Nat) : Src :=
  if k.fetchA then
    let b := k.panelBase g rt
    bufSrc g.fa g.ma g.p (g.rowLen 0) (if g.ma = 0 then millAlign b else b) (b + g.panelCodes) rt 0
  else
    let x := k.stored g 0 rt
    if g.ma = 0 then { x with code := millAlign (x.code % 2 ^ 21) } else x

/-- Ring slots (R128), and the slot of a streaming tile. -/
def Cmd.ring (k : Cmd) : Nat := k.u 39 1

/-- A ring slot's codes and exponents (R130). -/
def Cmd.slotCode (k : Cmd) (slot : Nat) : Nat := k.u 92 4 + slot * 65536
def Cmd.slotExp (k : Cmd) (slot : Nat) : Nat := k.u 92 4 + k.ring * 65536 + slot * 4096

/-- k-steps of streaming tile j of a column: first and end. -/
def Geo.steps (g : Geo) (j : Nat) : Nat × Nat := (j * g.tileSteps, min g.kk ((j + 1) * g.tileSteps))

/-- A streaming tile as the Mill reads it: q is its number in the command, j its place in tile column t. -/
def Cmd.srcB (k : Cmd) (g : Geo) (t j q : Nat) : Src :=
  if k.fetchB then
    let slot := q % max 1 k.ring
    let b := k.slotCode slot
    bufSrc g.fb g.mb g.p (g.rowLen 1) (if g.mb = 0 then millAlign b else b) (k.slotExp slot) t (g.steps j).1
  else
    let x := k.stored g 1 t
    if g.mb = 0 then { x with code := millAlign (x.code % 2 ^ 21) } else x

/-- The panel elements of a panel or tile column that are stored: whole for engine-ready forms, inside the extent otherwise. -/
def Geo.elems (g : Geo) (side t : Nat) : Nat × Nat :=
  let mode := if side = 0 then g.ma else g.mb
  let ext := if side = 0 then g.m else g.n
  (t * g.p, if mode = 0 then t * g.p + g.p else min ext (t * g.p + g.p))

/-! ## Delivery (R42, R44, R207) -/

/-- A byte of a cell's store. -/
def State.storeByte (s : State) (c a : Nat) : Byte := Mem.get s.stores (c * 2 ^ 21 + a % 2 ^ 21)

/-- Reading a run of the own store for an engine: errors are corrected, counted and reported (R70), wraps are not counted. -/
def W.peek (w : W) (off n : Nat) : List Byte × W :=
  if !w.on then (List.replicate n 0, w)
  else
    let r := w.s.storeRead w.c off n
    let w1 := { w with s := r.2.2 }
    if r.2.1 then (r.1, w1.fail cMemUncorrectable) else (r.1, w1)

/-- Writing a run of the own store for an engine. -/
def W.poke (w : W) (off : Nat) (bs : List Byte) : W :=
  if !w.on then w
  else
    let r := w.s.storeWrite w.c off bs
    let w1 := { w with s := r.2 }
    if r.1 then w1.fail cMemUncorrectable else w1

/-- Meeting the errors of runs that are read. -/
def W.peekRuns (w : W) (rs : List (Nat × Nat)) : W := rs.foldl (fun z r => (z.peek r.1 r.2).2) w

/-- A code at a bit address of bytes. -/
def codeAtBit (f : Fmt) (get : Nat → Byte) (b : Nat) : Nat :=
  match f with
  | .l4 => (get (b / 8)).toNat / 2 ^ (b % 8) % 16
  | .l8 => (get (b / 8)).toNat
  | .l16 => (get (b / 8)).toNat + 256 * (get (b / 8 + 1)).toNat

/-- The exponent of the new block of a re-blocked element: the largest of the source blocks that hold its elements (R207). -/
def Src.newExp (x : Src) (get : Nat → Byte) (e k kk : Nat) : Int :=
  let b := k / x.f.blk * x.f.blk
  ((List.range (min x.f.blk (kk - b))).map (fun i => expByte (get (x.expAddr e (b + i))))).foldl max (-128)

/-- One element as delivered, and whether re-blocking flushed it (R207). -/
def Src.elem (x : Src) (code exp : Nat → Byte) (kk e k : Nat) : LVal × Bool :=
  let c := codeAtBit x.f code (x.codeBit e k)
  let ko := expByte (exp (x.expAddr e k))
  if 2 ≤ x.mode ∧ x.f.expOf c ≠ 0 ∧ (x.f.expOf c : Int) - (x.newExp exp e k kk - ko) * 2 ^ x.f.g < 1 then (.zero, true)
  else (decodeCode x.f c ko, false)

/-- The elements es of k-steps k1 to k2 - 1, k-step by k-step; coded operands come from their expanded unit, which begins at k-step
u (R249). -/
def W.deliver (w : W) (x : Src) (plain : Option (List Byte × Nat)) (kk : Nat) (es : List Nat) (e1 e2 k1 k2 : Nat) :
    List (List LVal) × W :=
  let w1 := w.peekRuns (x.expRuns e1 e2 k1 k2 ++ (if plain.isSome then [] else x.codeRuns e1 e2 k1 k2))
  if !w1.on then ([], w1)
  else
    let get := w1.s.storeByte w.c
    let y := match plain with
      | some pl => { x with code := 0, k0 := pl.2 }
      | none => x
    let code := fun (a : Nat) => match plain with
      | some pl => pl.1.getD a 0
      | none => get a
    let one := fun (e k : Nat) =>
      let c := codeAtBit x.f code (y.codeBit e k)
      if plain.isSome then (decodeCode x.f c (expByte (get (x.expAddr e k))), false) else x.elem code get kk e k
    let rows := (List.range (k2 - k1)).map (fun i => es.map (fun e => one e (k1 + i)))
    let flushed := rows.foldl (fun a r => a + r.countP (fun v => v.2)) 0
    let vals := rows.map (fun r => r.map Prod.fst)
    let nars := vals.foldl (fun a r => a + r.countP (fun v => decide (v = .nar))) 0
    let w2 := if flushed = 0 then w1 else { w1 with s := w1.s.bump Fd.cellReblockFlushCnt w.c 0 flushed }
    (vals, w2.count ⟨0, flushed, nars, 0⟩)

/-! ## Hand-overs (R125, R126) -/

/-- The number of a hand-over. -/
def handNo : Handover → Nat
  | .fetchB => 0
  | .fetchA => 1
  | .expand => 2
  | .multiply => 3
  | .transform => 4
  | .compress => 5

def Cmd.handAt (k : Cmd) (h : Handover) : HandSt := Tab.get (fun _ => HandSt.init) k.hand (handNo h)

def Cmd.onHand (k : Cmd) (h : Handover) (f : HandSt → HandSt) : Cmd :=
  { k with hand := Tab.upd (fun _ => HandSt.init) k.hand (handNo h) f }

/-- A unit is complete in the buffer. -/
def HandSt.make (h : HandSt) : HandSt := { h with made := h.made + 1 }
/-- The next stage has finished reading a unit. -/
def HandSt.use (h : HandSt) : HandSt := { h with done := h.done + 1 }
/-- A tally is passed. -/
def HandSt.pass (h : HandSt) : HandSt := if h.passed < h.made then { h with passed := h.passed + 1 } else h
/-- A credit is returned. -/
def HandSt.giveBack (h : HandSt) : HandSt := if h.returned < h.done then { h with returned := h.returned + 1 } else h
/-- Every tally passed and every credit returned. -/
def HandSt.settle (h : HandSt) : HandSt := { h with passed := h.made, returned := h.done }

/-- Passing every tally and credit of a command. -/
def Cmd.settle (k : Cmd) : Cmd := { k with hand := k.hand.map (fun e => (e.1, e.2.settle)) }

/-! ## Reading the predicates -/

/-- The bitmaps are read once, before the first tile (R59, R226). -/
def W.latchMaps (w : W) : W :=
  match w.k.maps with
  | some _ => w
  | none =>
    let g := w.k.geo
    if g.dw then
      let r := if w.k.bit 35 0 then w.peek (w.k.u 96 4) (ceilDiv (ceilDiv g.m 128) 8) else ([], w)
      { r.2 with k := { r.2.k with maps := some (r.1, []) } }
    else
      let r := if w.k.bit 35 0 then w.peek (w.k.u 100 4) (ceilDiv g.m 8) else ([], w)
      let c := if w.k.bit 35 1 then r.2.peek (w.k.u 104 4) (ceilDiv g.n 8) else ([], r.2)
      { c.2 with k := { c.2.k with maps := some (r.1, c.1) } }

/-! ## Fetching (R126, R130, R134, R248) -/

/-- Copying an operand into a buffer: source runs at global addresses, destinations in the own store. What comes before a refusal is
copied, the rest never read (R144). -/
def W.copyRuns (w : W) (t : Nat) (src dst : List (Nat × Nat)) : List (Nat × List Byte) × W :=
  (src.zip dst).foldl (fun (z : List (Nat × List Byte) × W) sd =>
    let r := z.2.readT t sd.1.1 0 sd.1.2
    (if r.1.isEmpty then z.1 else z.1 ++ [(ownPlace sd.2.1, r.1)], r.2)) ([], w)

/-- The frames of coded units: index entries and where each frame is placed. -/
def W.copyFrames (w : W) (t : Nat) (es : List (List Byte × Nat)) : List (Nat × List Byte) × W :=
  w.copyRuns t (es.map (fun e => (entryAddr e.1, entryLen e.1))) (es.map (fun e => (e.2, 0)))

/-- Cutting index bytes into entries. -/
def entriesOf (bs : List Byte) (n : Nat) : List (List Byte) := (List.range n).map (fun i => sliceB bs (8 * i) 8)

/-- Reading n index entries in one transfer: its bytes count where it is read (R248). -/
def W.readIndex (w : W) (t a n : Nat) : List (List Byte) × W :=
  let x := w.readT t a 0 (8 * n)
  (entriesOf x.1 n, if x.2.on then x.2.moved (8 * n) else x.2)

/-- Units of the resident panel when it is coded (R248): k-steps per unit of A. -/
def Geo.panelSteps (g : Geo) : Nat := 2 ^ 19 / (g.p * g.fa.bits)

/-- Beginning a transfer that reads pieces for the own store; a refusal at the source ends the command when it lands. -/
def W.beginRead (w : W) (u : Nat) (ps : List (Nat × List Byte)) (w1 : W) : W :=
  let ok := w1.on
  let w2 := { w1 with halt := .go, k := if ok then w1.k else { w1.k with fault := w.k.fault } }
  w2.begin ⟨w.k.num, w.k.chanq, ps, u, if ok then none else w1.k.fault⟩

/-- The key under which a command notes whether a frame of its resident panel is plain. -/
def panelKey (rt f : Nat) : Nat := 2 * (f + rt % 2 * 2 ^ 32)

/-- One panel of a load: codes or frames, then exponents (R130, R248). -/
def W.loadOne (w : W) (rt : Nat) : List (Nat × List Byte) × W :=
  let k := w.k
  let g := k.geo
  let src := k.stored g 0 rt
  let b := k.panelBase g rt
  let dst := bufSrc g.fa g.ma g.p (g.rowLen 0) b (b + g.panelCodes) rt 0
  let e := g.elems 0 rt
  let cs : List (Nat × List Byte) × W :=
    if k.expandA g then
      let n := ceilDiv g.kk g.panelSteps
      let ix := w.readIndex 0 (k.addr 40 + rt * k.u 112 4) n
      let fr := ix.2.copyFrames 0 (ix.1.zip ((List.range n).map (fun f => b + f * 65536)))
      let tab := ((List.range n).zip ix.1).foldl (fun t fe => Tab.set (fun _ => false) t (panelKey rt fe.1) (entryPlain fe.2)) fr.2.k.plainOf
      (fr.1, { fr.2 with k := { fr.2.k with plainOf := tab } })
    else w.copyRuns 0 (src.codeRuns e.1 e.2 0 g.kk) (dst.codeRuns e.1 e.2 0 g.kk)
  let xs := cs.2.copyRuns 0 (src.expRuns e.1 e.2 0 g.kk) (dst.expRuns e.1 e.2 0 g.kk)
  (cs.1 ++ xs.1, xs.2)

/-- The next load of the resident panel: transfer 0. -/
def W.loadPanel (w : W) : W :=
  let k := w.k
  let g := k.geo
  let grp := (k.groups g).getD k.loads 0
  let rts := ((k.runs g).map Prod.fst).eraseDups.filter (fun rt => decide (g.groupOf rt = grp))
  let r := rts.foldl (fun (z : List (Nat × List Byte) × W) rt => let x := z.2.loadOne rt; (z.1 ++ x.1, x.2)) ([], w)
  w.beginRead 0 r.1 { r.2 with k := { r.2.k with loads := k.loads + 1 } }

/-- The number of the transfer of streaming tile q. -/
def tileXfer (q : Nat) : Nat := 1 + q % 2 ^ 18

/-- The next streaming tile: its pieces for the own ring. The index of its column is read with the column's first tile, and by a member
that takes over the lead inside the column (R65, R248). -/
def W.loadTile (w : W) : W :=
  let k := w.k
  let g := k.geo
  let q := k.issued
  let t := tileXfer q
  let j := q % max 1 g.streams
  let ct := ((k.runs g).getD (q / max 1 g.streams) (0, 0)).2
  let st := g.steps j
  let src := k.stored g 1 ct
  let slot := q % max 1 k.ring
  let dst := bufSrc g.fb g.mb g.p (g.rowLen 1) (k.slotCode slot) (k.slotExp slot) ct st.1
  let e := g.elems 1 ct
  let cs : List (Nat × List Byte) × W :=
    if k.expandB g then
      let ix := if j = 0 ∨ k.idx.length ≠ g.streams then w.readIndex t (k.addr 56 + ct * k.u 116 4) g.streams
        else (k.idx.map (leBytes 8), w)
      let e1 := ix.1.getD j []
      let fr := ix.2.copyFrames t [(e1, k.slotCode slot)]
      (fr.1, { fr.2 with k := { fr.2.k with
        idx := if ix.2.on then ix.1.map ofLe else k.idx, plainOf := Tab.set (fun _ => false) fr.2.k.plainOf (2 * q + 1) (entryPlain e1) } })
    else w.copyRuns t (src.codeRuns e.1 e.2 st.1 st.2) (dst.codeRuns e.1 e.2 st.1 st.2)
  let xs := cs.2.copyRuns t (src.expRuns e.1 e.2 st.1 st.2) (dst.expRuns e.1 e.2 st.1 st.2)
  w.beginRead t (cs.1 ++ xs.1) { xs.2 with k := { xs.2.k with issued := q + 1 } }

/-! ## Die-row multicast (R62 to R65) -/

/-- Members of a command's multicast: the cells of its die row that the mask names, the issuing cell among them (R62). -/
def Cmd.members (k : Cmd) (c : Nat) : List Nat :=
  ((List.range 8).map (fun b => c / 8 * 8 + b)).filter (fun m => decide (m = c) || (k.u 34 1).testBit (m % 8))

/-- The matching command of a member: the oldest with the tag whose mask names more than one cell (R63). -/
def State.mcCmd (s : State) (m tag : Nat) : Option Cmd :=
  (s.cell m).cmds.find? (fun y => decide (y.opcode = 0x0201 ∨ y.opcode = 0x0202) && decide (y.u 36 2 = tag) &&
    decide (1 < (y.members m).length) && !y.finished)

/-- The members that have not withdrawn; a fenced member counts as withdrawn from the start (R65). -/
def State.mcActive (s : State) (c : Nat) (k : Cmd) : List Nat :=
  (k.members c).filter (fun m => !s.fenced m && !k.mcOut.contains m)

/-- Whether a cell leads its multicast: the lowest remaining member fetches (R62, R65). -/
def State.mcLeads (s : State) (c : Nat) (k : Cmd) : Bool := decide ((s.mcActive c k).head? = some c) || (s.mcActive c k).isEmpty

/-- Whether the lead may write its next streaming tile: every other member has issued its command, has returned a credit for the
tile, and no multicast with another tag is in progress (R63, R64). -/
def State.mcReady (s : State) (c : Nat) (k : Cmd) : Bool :=
  (s.mcActive c k).all (fun m => decide (m = c) ||
    ((s.mcCmd m (k.u 36 2)).isSome && decide (k.issued < Tab.get (fun _ => 0) k.mcCredit m))) &&
  ((k.members c).length ≤ 1 || (s.mcActive c k).all (fun m => match (s.cell m).mcast with
    | none => true
    | some x => decide (x.tag = k.u 36 2)))

/-- Writing pieces of a tile into a member's ring: counted once where the transfer wraps there (R69), and whether the store refused
one (R70). -/
def State.memberWrite (s : State) (m base : Nat) (ps : List (Nat × List Byte)) : Bool × State :=
  let s1 := if ps.any (fun p => runWraps base p.1 p.2.length) then s.bumpCell Fd.cellWrapCnt m else s
  ps.foldl (fun (z : Bool × State) p =>
    if z.1 then z else z.2.storeWrite m p.1 p.2) (false, s1)

/-- The streaming tile of a lead lands in the rings that the members' own descriptors name (R62, R63); the last n pieces are
exponents. A member whose store refuses a write has faulted and withdraws (R65, R70). -/
def W.mcDeliver (w : W) (ps : List (Nat × List Byte)) (n : Nat) : W :=
  let k := w.k
  let q := (k.handAt .fetchB).made
  let from_ := q % max 1 k.ring
  let codes := ps.take (ps.length - n)
  let exps := ps.drop (ps.length - n)
  let mark := fun (z : State) (m : Nat) => z.onCell m (fun x => { x with mcast := some ⟨k.u 36 2, k.u 34 1⟩ })
  if (k.members w.c).length ≤ 1 then w
  else
    let s1 := ((w.s.mcActive w.c k).filter (fun m => decide (m ≠ w.c))).foldl (fun z m =>
      match z.mcCmd m (k.u 36 2) with
      | none => z
      | some y =>
        let r := (y.handAt .fetchB).made
        let slot := r % max 1 y.ring
        let base := y.slotCode slot
        let moved := codes.map (fun p => (base + (p.1 - ownPlace (k.slotCode from_)), p.2)) ++
          exps.map (fun p => (y.slotExp slot + (p.1 - ownPlace (k.slotExp from_)), p.2))
        let d := z.memberWrite m base moved
        if d.1 then
          let y1 := y.report cMemUncorrectable
          (((d.2.putCmd m y1).withdraw m y1).stopCmd m y1 false).1
        else
          let plain := Tab.get (fun _ => false) k.plainOf (2 * q + 1)
          mark (d.2.putCmd m { (y.onHand .fetchB HandSt.make) with
            issued := y.issued + 1, plainOf := Tab.set (fun _ => false) y.plainOf (2 * r + 1) plain }) m) w.s
    { w with s := mark s1 w.c }

/-! ## Landing -/

/-- The unit number of the transfer that stores C_BUF slot u. -/
def storeUnit (u : Nat) : Nat := 2 ^ 20 + 2 ^ 19 + u

/-- What a load brought is written into the own store, up to a write that is refused (R70). -/
def W.landOwn (w : W) (x : Xfer) : W :=
  let base := match x.pieces with
    | p :: _ => p.1 - 2 ^ 48
    | [] => 0
  x.pieces.foldl (fun z p =>
    let r := z.lwriteT x.no base (p.1 - 2 ^ 48) p.2
    (r.2.moved r.1).discard (p.2.length - r.1)) w

/-- A transfer of a Mill command lands: a panel, a streaming tile, or an output tile (R134). Of a read that was refused the bytes before
the refusal are written (R144); after a fault what was in flight is discarded (R127). -/
def W.millLand (w : W) (x : Xfer) : W :=
  if 2 ^ 20 ≤ x.unit then
    let w1 := x.pieces.foldl (fun z p => z.landPiece x.no p.1 0 p.2) w
    if w1.halt = .wait then w.back w1
    else
      let k1 := { w1.k with staged := w1.k.staged.filter (fun t => !(decide (storeUnit t.slot = x.unit) && t.issued)) }
      ({ w1 with k := k1.onHand .transform HandSt.use }).endXfer x
  else if w.k.fault.isSome then (w.discard (x.pieces.foldl (fun n p => n + p.2.length) 0)).endXfer x
  else
    let w1 := w.landOwn x
    let w2 := match x.fault with
      | some f => w1.fail f
      | none => w1
    if !w2.on then w2.endXfer x
    else if x.unit = 0 then ({ w2 with k := w2.k.onHand .fetchA HandSt.make }).endXfer x
    else
      let g := w2.k.geo
      let q := (w2.k.handAt .fetchB).made
      let st := g.steps (q % max 1 g.streams)
      let e := g.elems 1 0
      let w3 := w2.mcDeliver x.pieces ((w2.k.stored g 1 0).expRuns e.1 e.2 st.1 st.2).length
      ({ w3 with k := w3.k.onHand .fetchB HandSt.make }).endXfer x

/-! ## Banks (R55 to R57) -/

def State.bank (s : State) (c b : Nat) : Option Bank := Tab.get (fun _ => none) (s.cell c).banks b

def State.setBank (s : State) (c b : Nat) (x : Option Bank) : State :=
  s.onCell c (fun y => { y with banks := Tab.set (fun _ => none) y.banks b x })

/-- BANK0_DRAIN and BANK1_DRAIN (R73). -/
def State.setDrain (s : State) (c b : Nat) (v : Bool) : State :=
  s.setFld (if b = 0 then Fd.cellStateBank0Drain else Fd.cellStateBank1Drain) c 0 (b2n v)

/-- The open bank of a command: the tile that accumulates. -/
def State.openBank (s : State) (c n : Nat) : Option (Nat × Bank) :=
  [0, 1].findSome? (fun b => match s.bank c b with
    | some x => if x.num = n ∧ !x.closed then some (b, x) else none
    | none => none)

/-- Whether a command may start its next tile: one is left, none accumulates, and the bank that comes next is free (R55). -/
def State.tileReady (s : State) (c : Nat) (k : Cmd) : Bool :=
  let g := k.geo
  !k.cancelled && k.fault.isNone && decide (g.kk ≠ 0) && decide (k.pos < (k.runs g).length) && (s.openBank c k.num).isNone &&
    (s.bank c ((s.cell c).nextBank % 2)).isNone

/-- The index entry of an in-place frame (R235, R248), read for an engine. -/
def W.entryInPlace (w : W) (a : Nat) : List Byte × W := w.peek a 8

/-- Where the entry of unit f of panel or tile column t lies in the own store. -/
def Cmd.entryAt (k : Cmd) (side t f : Nat) : Nat :=
  if side = 0 then k.u 40 8 + t * k.u 112 4 + 8 * f else k.u 56 8 + t * k.u 116 4 + 8 * f

/-- Whether the frame of a coded operand read in place runs past the end of the store (R69). -/
def State.frameWraps (s : State) (c : Nat) (k : Cmd) (side t f : Nat) : Bool :=
  let e := (List.range 8).map (fun i => s.storeByte c (k.entryAt side t f + i))
  wraps (entryAddr e) (entryLen e)

/-- Whether the resident panel, read in place for a tile, runs past the end of the store (R69). -/
def State.panelWraps (s : State) (c : Nat) (k : Cmd) (rt : Nat) : Bool :=
  let g := k.geo
  let e := g.elems 0 rt
  let src := k.srcA g rt
  let runs := src.expRuns e.1 e.2 0 g.kk ++ (if k.expandA g then [] else src.codeRuns e.1 e.2 0 g.kk)
  !k.fetchA && (runs.any (fun r => wraps r.1 r.2) ||
    (k.expandA g && (List.range (ceilDiv g.kk g.panelSteps)).any (fun f => s.frameWraps c k 0 rt f)))

/-- Whether streaming tile j of column t, read in place, runs past the end of the store (R69). -/
def State.streamWraps (s : State) (c : Nat) (k : Cmd) (t j : Nat) : Bool :=
  let g := k.geo
  let e := g.elems 1 t
  let st := g.steps j
  let src := k.srcB g t j 0
  let runs := src.expRuns e.1 e.2 st.1 st.2 ++ (if k.expandB g then [] else src.codeRuns e.1 e.2 st.1 st.2)
  !k.fetchB && (runs.any (fun r => wraps r.1 r.2) || (k.expandB g && s.frameWraps c k 1 t j))

/-- A tile starts in the bank that comes next: it latches window, trim and function (R55, R56). A panel read in place that wraps
counts once for the tile (R69). -/
def W.tileStart (w : W) : W :=
  let k := w.k
  let g := k.geo
  let u := k.pos
  let t := (k.runs g).getD u (0, 0)
  let b := (w.s.cell w.c).nextBank % 2
  let x : Bank := ⟨k.num, t.1, t.2, u, k.i 30 2, if g.dw then 0 else k.i 32 1, k.u 33 1, [], false, 0⟩
  let s1 := (w.s.setBank w.c b (some x)).onCell w.c (fun y => { y with nextBank := (b + 1) % 2 })
  { w with s := if w.s.panelWraps w.c k t.1 then s1.bump Fd.cellWrapCnt w.c else s1, k := { k with pos := u + 1, sub := 0, kread := 0 } }

/-- Whether a tile is the last of its resident panel. -/
def Cmd.lastOfGroup (k : Cmd) (g : Geo) (ord rt : Nat) : Bool :=
  ((k.runs g).drop (ord + 1)).all (fun t => decide (g.groupOf t.1 ≠ g.groupOf rt))

/-- Whether the resident panel of a row tile is in place (R126). -/
def Cmd.panelThere (k : Cmd) (g : Geo) (rt : Nat) : Bool :=
  !k.fetchA || decide ((k.groups g).idxOf (g.groupOf rt) < (k.handAt .fetchA).passed)

/-- Whether streaming tile q is in place. -/
def Cmd.streamThere (k : Cmd) (q : Nat) : Bool := !k.fetchB || decide (q < (k.handAt .fetchB).passed)

/-- The resident panel has been read for the last tile that takes it: its credit returns (R126). -/
def Cmd.panelRead (k : Cmd) (g : Geo) (ord rt : Nat) : Cmd :=
  if k.fetchA && k.lastOfGroup g ord rt then k.onHand .fetchA HandSt.use else k

/-- A streaming tile has been read: its slot's credit returns (R126). -/
def Cmd.streamRead (k : Cmd) : Cmd := if k.fetchB then k.onHand .fetchB HandSt.use else k

/-! ## The Coopers (R249) -/

/-- A reader of a frame in the own store at an offset. -/
def W.frameAt (base : Nat) (w : W) (o n : Nat) : List Byte × W := w.peek (base + o) n

/-- Plain bytes of coded unit f of the resident panel, and of streaming tile j (R248). -/
def Geo.panelBytes (g : Geo) (f : Nat) : Nat := ceilDiv (min g.panelSteps (g.kk - f * g.panelSteps) * g.p * g.fa.bits) 8
def Geo.tileBytes (g : Geo) (j : Nat) : Nat := ceilDiv (((g.steps j).2 - (g.steps j).1) * g.p * g.fb.bits) 8

/-- Units of a coded resident panel; the Cooper of its port numbers them on from tile to tile, as the panel is decoded again for each
(R248). -/
def Geo.panelUnits (g : Geo) : Nat := ceilDiv g.kk g.panelSteps

/-- k-steps of a group of 4,096 bytes (R249). -/
def Geo.groupSteps (g : Geo) (f : Fmt) : Nat := 32768 / (g.p * f.bits)

/-- Where the frame of unit f of the resident panel lies in the own store, and whether it is plain (R248). -/
def W.panelFrame (w : W) (rt f : Nat) : Nat × Bool × W :=
  let k := w.k
  if k.fetchA then (k.panelBase k.geo rt + f * 65536, Tab.get (fun _ => false) k.plainOf (panelKey rt f), w)
  else let e := w.entryInPlace (k.entryAt 0 rt f); (entryAddr e.1, entryPlain e.1, e.2)

/-- Where the frame of streaming tile j of column t lies and whether it is plain (R248). -/
def W.tileFrame (w : W) (t j q : Nat) : Nat × Bool × W :=
  let k := w.k
  if k.fetchB then (k.slotCode (q % max 1 k.ring), Tab.get (fun _ => false) k.plainOf (2 * q + 1), w)
  else let e := w.entryInPlace (k.entryAt 1 t j); (entryAddr e.1, entryPlain e.1, e.2)

def State.cooper (s : State) (c port : Nat) : Option CooperSt := Tab.get (fun _ => none) (s.cell c).coopers port

def State.setCooper (s : State) (c port : Nat) (x : Option CooperSt) : State :=
  s.onCell c (fun y => { y with coopers := Tab.set (fun _ => none) y.coopers port x })

/-- What a Cooper holds for a command; nothing before its first place. -/
def State.cooperOf (s : State) (c port num : Nat) : CooperSt :=
  match s.cooper c port with
  | some y => if y.num = num then y else ⟨num, 0, 0, 0, [], none⟩
  | none => ⟨num, 0, 0, 0, [], none⟩

/-- The oldest group of a Cooper, if it is the one named. -/
def CooperSt.group (cp : CooperSt) (unit place : Nat) : Option (List Byte) :=
  match cp.groups with
  | (u, p, bs) :: _ => if u = unit ∧ p = place then some bs else none
  | [] => none

/-- The Mill has read the oldest group of a Cooper. -/
def State.dropGroup (s : State) (c port num : Nat) : State :=
  let cp := s.cooperOf c port num
  s.setCooper c port (some { cp with groups := cp.groups.drop 1 })

/-- The next place of a unit of a size through a port: its plain bytes form a group. -/
def W.placeInto (w : W) (port : Nat) (cp : CooperSt) (base : Nat) (plain : Bool) (size : Nat) : W :=
  let x := min 4096 (size - 4096 * cp.place)
  let r : List Byte × Nat × W :=
    if plain then let b := w.peek (base + cp.at_) x; (b.1, cp.at_ + x, b.2)
    else w.placeAt port (W.frameAt base) cp.at_ x
  if !r.2.2.on then r.2.2
  else
    let last := decide (size ≤ 4096 * (cp.place + 1))
    let groups := cp.groups ++ [(cp.unit, cp.place, r.1)]
    let cp1 : CooperSt := if last then ⟨cp.num, cp.unit + 1, 0, 0, groups, none⟩
      else ⟨cp.num, cp.unit, cp.place + 1, r.2.1, groups, some (base, plain)⟩
    { r.2.2 with s := r.2.2.s.setCooper w.c port (some cp1) }

/-- Whether the Cooper of the streaming port can decode a place: it holds a credit, and the tile is in place (R125, R249). -/
def State.placeBReady (s : State) (c : Nat) (k : Cmd) : Bool :=
  let g := k.geo
  let h := k.handAt .expand
  let cp := s.cooperOf c 1 k.num
  k.expandB g && k.maps.isSome && !k.nothing && k.fault.isNone && !k.cancelled && decide (cp.unit < (k.runs g).length * g.streams) &&
    decide (h.made < h.returned + 4) && decide (cp.groups.length < 4) && k.streamThere cp.unit

/-- A place of the streaming unit that comes next. The tile's credit returns with its last k-step, since its exponents are read with the
k-steps (R126). -/
def W.placeB (w : W) : W :=
  let k := w.k
  let g := k.geo
  let cp := w.s.cooperOf w.c 1 k.num
  let j := cp.unit % max 1 g.streams
  let t := ((k.runs g).getD (cp.unit / max 1 g.streams) (0, 0)).2
  let fr := match cp.frame with
    | some x => (x.1, x.2, w)
    | none => w.tileFrame t j cp.unit
  if !fr.2.2.on then fr.2.2
  else
    let r := fr.2.2.placeInto 1 cp fr.1 fr.2.1 (g.tileBytes j)
    if r.on then { r with k := r.k.onHand .expand HandSt.make } else r

/-- Whether the Cooper of the resident port can decode a place. -/
def State.placeAReady (s : State) (c : Nat) (k : Cmd) : Bool :=
  let g := k.geo
  let cp := s.cooperOf c 0 k.num
  k.expandA g && k.maps.isSome && !k.nothing && k.fault.isNone && !k.cancelled && decide (cp.groups.length < 4) &&
    (match (k.runs g)[cp.unit / max 1 g.panelUnits]? with
      | some t => k.panelThere g t.1
      | none => false)

/-- A place of the resident panel's unit that comes next. -/
def W.placeA (w : W) : W :=
  let k := w.k
  let g := k.geo
  let cp := w.s.cooperOf w.c 0 k.num
  let ord := cp.unit / max 1 g.panelUnits
  let f := cp.unit % max 1 g.panelUnits
  let rt := ((k.runs g).getD ord (0, 0)).1
  let fr := match cp.frame with
    | some x => (x.1, x.2, w)
    | none => w.panelFrame rt f
  if !fr.2.2.on then fr.2.2 else fr.2.2.placeInto 0 cp fr.1 fr.2.1 (g.panelBytes f)

/-! ## The Turner (R204 to R208) -/

/-- k-steps of a square (R204). -/
def squareSteps (f : Fmt) : Nat := if f = .l4 then 256 else 128

/-- What a half of the Turner holds for a command. -/
def State.turnerOf (s : State) (c port num : Nat) : TurnSt :=
  match Tab.get (fun _ => none) (s.cell c).turners port with
  | some y => if y.num = num then y else ⟨num, 0, 0, []⟩
  | none => ⟨num, 0, 0, []⟩

def State.setTurner (s : State) (c port : Nat) (x : Option TurnSt) : State :=
  s.onCell c (fun y => { y with turners := Tab.set (fun _ => none) y.turners port x })

/-- The oldest square of a half, if it holds a k-step of a unit. -/
def TurnSt.square (x : TurnSt) (unit kk : Nat) : Option Square :=
  match x.bufs with
  | q :: _ => if q.unit = unit ∧ q.lo ≤ kk ∧ kk < q.hi then some q else none
  | [] => none

/-- The Mill has read the oldest square of a half. -/
def State.dropSquare (s : State) (c port num : Nat) : State :=
  let x := s.turnerOf c port num
  s.setTurner c port (some { x with bufs := x.bufs.drop 1 })

/-- The operand unit that a half reads next: its tile, its place in the column, and its k-steps. The resident port reads the panel of
each tile, the streaming port each streaming tile. -/
def Cmd.turnUnit (k : Cmd) (g : Geo) (port unit : Nat) : Option (Nat × (Nat × Nat) × Nat × Nat × Nat) :=
  let ord := if port = 0 then unit else unit / max 1 g.streams
  let j := unit % max 1 g.streams
  ((k.runs g)[ord]?).map (fun t => (ord, t, if port = 0 then (0, 0, g.kk) else (j, g.steps j)))

/-- Whether a half can read a square: one of its eight buffers is free, and the operand is in place (R204). -/
def State.squareReady (s : State) (c port : Nat) (k : Cmd) : Bool :=
  let g := k.geo
  let x := s.turnerOf c port k.num
  decide ((if port = 0 then g.ma else g.mb) ≠ 0) && k.maps.isSome && !k.nothing && k.fault.isNone && !k.cancelled &&
    decide (x.bufs.length < 8) &&
    (match k.turnUnit g port x.unit with
      | some u => if port = 0 then k.panelThere g u.2.1.1 else k.streamThere x.unit
      | none => false)

/-- A half reads the next square of its operand from the own store and turns or re-blocks it (R204 to R207). -/
def W.readSquare (port : Nat) (w : W) : W :=
  let k := w.k
  let g := k.geo
  let x := w.s.turnerOf w.c port k.num
  match k.turnUnit g port x.unit with
  | none => w
  | some (ord, t, j, first, end_) =>
    let lo := first + x.next
    let hi := min end_ (lo + squareSteps (if port = 0 then g.fa else g.fb))
    let el := g.elems port (if port = 0 then t.1 else t.2)
    let d := if port = 0 then w.deliver (k.srcA g t.1) none g.kk (k.rowsOf g t.1) el.1 el.2 lo hi
      else w.deliver (k.srcB g t.2 j x.unit) none g.kk (k.colsOf g t.2) el.1 el.2 lo hi
    if !d.2.on then d.2
    else
      let last := decide (end_ ≤ hi)
      let bufs := x.bufs ++ [⟨x.unit, lo, hi, d.1⟩]
      let x1 : TurnSt := if last then ⟨x.num, x.unit + 1, 0, bufs⟩ else ⟨x.num, x.unit, hi - first, bufs⟩
      let k1 := if last then (if port = 0 then d.2.k.panelRead g ord t.1 else d.2.k.streamRead) else d.2.k
      { d.2 with s := d.2.s.setTurner w.c port (some x1), k := k1 }

/-! ## The Mill reads (R51, R52, R55) -/

/-- Where the Mill finds the k-steps of an operand: in the store, in a Cooper's group (its bytes and its first k-step), or in a square
of the Turner. -/
inductive Feed where
  | store
  | group (bytes : List Byte) (first : Nat)
  | square (q : Square)
  deriving DecidableEq, Repr

/-- The feed of the resident port at a k-step of a tile; none where it is not there yet. -/
def State.feedA (s : State) (c : Nat) (k : Cmd) (g : Geo) (x : Bank) (kk : Nat) : Option Feed :=
  if k.expandA g then
    let f := kk / max 1 g.panelSteps
    let p := kk % max 1 g.panelSteps / max 1 (g.groupSteps g.fa)
    ((s.cooperOf c 0 k.num).group (x.ord * g.panelUnits + f) p).map
      (fun bs => .group bs (f * g.panelSteps + p * g.groupSteps g.fa))
  else if g.ma ≠ 0 then ((s.turnerOf c 0 k.num).square x.ord kk).map Feed.square
  else if k.panelThere g x.rt then some .store else none

/-- The feed of the streaming port at a k-step of streaming tile q. -/
def State.feedB (s : State) (c : Nat) (k : Cmd) (g : Geo) (q kk : Nat) : Option Feed :=
  if k.expandB g then
    let first := (g.steps (q % max 1 g.streams)).1
    let p := (kk - first) / max 1 (g.groupSteps g.fb)
    let h := k.handAt .expand
    if h.done < h.passed then
      ((s.cooperOf c 1 k.num).group q p).map (fun bs => .group bs (first + p * g.groupSteps g.fb))
    else none
  else if g.mb ≠ 0 then ((s.turnerOf c 1 k.num).square q kk).map Feed.square
  else if k.streamThere q then some .store else none

/-- Where a feed ends, of k-steps up to an end. -/
def Feed.until (f : Feed) (g : Geo) (fmt : Fmt) (end_ : Nat) : Nat :=
  match f with
  | .store => end_
  | .group _ first => min end_ (first + g.groupSteps fmt)
  | .square q => min end_ q.hi

/-- The k-steps lo to hi - 1 of an operand from its feed. -/
def W.feed (w : W) (f : Feed) (src : Src) (kk : Nat) (es : List Nat) (el : Nat × Nat) (lo hi : Nat) : List (List LVal) × W :=
  match f with
  | .store => w.deliver src none kk es el.1 el.2 lo hi
  | .group bs first => w.deliver src (some (bs, first)) kk es el.1 el.2 lo hi
  | .square q => ((q.vals.drop (lo - q.lo)).take (hi - lo), w)

/-- Whether the Mill can read the next k-steps of the open tile (R126). -/
def State.stepsReady (s : State) (c : Nat) (k : Cmd) : Bool :=
  match s.openBank c k.num with
  | none => false
  | some (_, x) =>
    let g := k.geo
    let lo := (g.steps k.sub).1 + k.kread
    decide (k.sub < g.streams) && !k.cancelled && k.fault.isNone && (s.feedA c k g x lo).isSome &&
      (s.feedB c k g (x.ord * g.streams + k.sub) lo).isSome

/-- Adding the products of one k-step into a bank, in the order of the elements (R31 to R33): the sums and the flushed count. -/
def addStep (table8 : Bool) (w : Int) (acc : Tab Acc) (rows cols : List Nat) (av bv : List LVal) : Tab Acc × Nat :=
  (rows.zip av).foldl (fun (z : Tab Acc × Nat) ia =>
    (cols.zip bv).foldl (fun (y : Tab Acc × Nat) jb =>
      let key := 128 * ia.1 + jb.1
      let r := Acc.addVal table8 w (Tab.get (fun _ => Acc.clear) y.1 key) (lmulVal ia.2 jb.2)
      (Tab.set (fun _ => Acc.clear) y.1 key r.1, if r.2 then y.2 + 1 else y.2)) z) (acc, 0)

/-- What the Mill has read of a feed up to k-step hi is let go of where it ends there: a group, a square (R249, R204). -/
def W.feedRead (w : W) (port : Nat) (f : Feed) (ends hi : Nat) : W :=
  if hi < ends then w
  else
    match f with
    | .store => w
    | .group _ _ =>
      { w with s := w.s.dropGroup w.c port w.k.num, k := if port = 1 then w.k.onHand .expand HandSt.use else w.k }
    | .square _ => { w with s := w.s.dropSquare w.c port w.k.num }

/-- The Mill reads the next k-steps of the open tile, as far as both operands' feeds reach (R51, R55): their products enter the bank. -/
def W.millSteps (w : W) : W :=
  match w.s.openBank w.c w.k.num with
  | none => w
  | some (b, x) =>
    let k := w.k
    let g := k.geo
    let j := k.sub
    let q := x.ord * g.streams + j
    let st := g.steps j
    let lo := st.1 + k.kread
    match w.s.feedA w.c k g x lo, w.s.feedB w.c k g q lo with
    | some fa, some fb =>
      let endA := fa.until g g.fa g.kk
      let endB := fb.until g g.fb st.2
      let hi := min st.2 (min endA endB)
      let rows := k.rowsOf g x.rt
      let cols := k.colsOf g x.ct
      let ap := w.feed fa (k.srcA g x.rt) g.kk rows (g.elems 0 x.rt) lo hi
      let bp := ap.2.feed fb (k.srcB g x.ct j q) g.kk cols (g.elems 1 x.ct) lo hi
      if !bp.2.on then bp.2
      else
        let r := (ap.1.zip bp.1).foldl (fun (z : Tab Acc × Nat) ab =>
          let y := addStep (!g.wide) x.w z.1 (rows.map (· % g.p)) (cols.map (· % g.p)) ab.1 ab.2
          (y.1, z.2 + y.2)) (x.acc, 0)
        let whole := decide (hi = st.2)
        let last := whole && decide (j + 1 = g.streams)
        let cyc := if g.fa = .l4 ∧ g.fb = .l4 then ceilDiv (hi - lo) 2 else hi - lo
        let s1 := (bp.2.s.setBank w.c b (some { x with acc := r.1 })).bump Fd.cellBusyCnt w.c 0 cyc
        -- a streaming tile read in place that wraps counts once (R69)
        let s2 := if decide (k.kread = 0) && w.s.streamWraps w.c k x.ct j then s1.bump Fd.cellWrapCnt w.c else s1
        let k1 := { bp.2.k with
          sub := if whole then j + 1 else j, kread := if whole then 0 else hi - st.1
          kdone := last && decide (x.ord + 1 = (k.runs g).length) }
        let k2 := if whole && decide (g.mb = 0) then k1.streamRead else k1
        let k3 := if last && decide (g.ma = 0) then k2.panelRead g x.ord x.rt else k2
        ((({ bp.2 with s := s2, k := k3 }).feedRead 0 fa endA hi).feedRead 1 fb endB hi).count ⟨0, r.2, 0, 0⟩
    | _, _ => w

/-- The last products of a tile are in: its bank closes (R55, R58). -/
def W.tileClose (w : W) (b : Nat) : W :=
  match w.s.bank w.c b with
  | none => w
  | some x => { w with s := (w.s.setBank w.c b (some { x with closed := true })).setDrain w.c b true, k := w.k.onHand .multiply HandSt.make }

end Sys2Proof.Machine
end

