-- ==== Sys2Proof/Machine/Move.lean ====
section
/-! DEFINITION. The order of transfers in a Carter queue (R134), and MOVE (R132, R144). -/

namespace Sys2Proof.Machine

/-! ## MOVE -/

/-- The row of a MOVE that is issued next (R132, R134): its bytes are read at the source, or asked for at another module. -/
def W.moveIssue (w : W) : W :=
  let k := w.k
  let r := k.issued
  let n := k.u 32 4
  let src := (k.addr 16 + r * k.u 40 4) % 2 ^ 48
  let dst := (k.addr 24 + r * k.u 44 4) % 2 ^ 48
  let u := r % 2 ^ 20
  if k.module 16 ≠ w.s.moduleId then
    let cuts := packetCuts n
    let ps : List (Nat × List Byte) := cuts.map (fun (x : Nat × Nat) => (byteAddr dst x.1, []))
    let w1 := ({ w with k := { k with issued := r + 1 } }).begin ⟨k.num, k.chanq, ps, u, none⟩
    { w1 with s := ((List.range cuts.length).zip cuts).foldl (fun z (x : Nat × Nat × Nat) =>
        z.remote (k.module 16) k.tenantNo 0 (byteAddr src x.2.1) x.2.2 [] (.fetch w.c k.num u x.1) (w.c, k.num)) w1.s }
  else
    let g := w.readT u src 0 n
    if g.2.halt = .wait then w.back g.2
    else
      -- the rest after a refusal is never read: what came before it lands (R144)
      let f := if g.2.on then none else g.2.k.fault
      let k1 := { g.2.k with issued := r + 1, fault := k.fault }
      ({ g.2 with k := k1, halt := .go }).begin ⟨k.num, k.chanq, [(dst, g.1)], u, f⟩

/-- A MOVE row lands (R134, R144): bytes before a refusal stay written; a row of another module leaves as packets. -/
def W.moveLand (w : W) (x : Xfer) : W :=
  let k := w.k
  if 2 ^ 20 ≤ x.unit then
    -- acknowledged at the other module
    (w.moved (x.pieces.foldl (fun n p => n + p.2.length) 0)).endXfer x
  else if k.module 24 ≠ w.s.moduleId ∧ k.fault.isNone then
    let y := { x with unit := x.unit + 2 ^ 20 }
    let w1 := { w with s := w.s.onCell w.c (fun z => { z with xfers := z.xfers.map (fun t => if t = x then y else t) }) }
    let outs := x.pieces.flatMap (fun p => (packetCuts p.2.length).map (fun q => (byteAddr p.1 q.1, sliceB p.2 q.1 q.2)))
    let w2 := { w1 with s := ((List.range outs.length).zip outs).foldl (fun z (o : Nat × Nat × List Byte) =>
      z.remote (k.module 24) k.tenantNo 1 o.2.1 o.2.2.length o.2.2 (.store w.c k.num y.unit o.1) (w.c, k.num)) w1.s }
    match x.fault with
    | some f => { w2 with k := w2.k.report f }
    | none => w2
  else
    let w0 := if k.fault.isSome then { w with halt := .fault } else w
    let dst := match x.pieces with
      | p :: _ => p.1
      | [] => 0
    let w1 := ((List.range x.pieces.length).zip x.pieces).foldl (fun z (p : Nat × Nat × List Byte) =>
      z.landPiece x.no dst (packetMax * p.1) p.2.2) w0
    if w1.halt = .wait then w.back w1
    else
      let w2 := match x.fault with
        | some f => w1.fail f
        | none => w1
      w2.endXfer x

/-- A MOVE has ended once no row is left to issue, or it was stopped, and none is outstanding. -/
def W.moveEnd (w : W) : W :=
  let k := w.k
  let all := decide (k.u 32 4 = 0) || decide (k.u 36 4 ≤ k.issued) || k.fault.isSome || k.cancelled
  if all && (w.s.xfersOf w.c k.num).isEmpty then w.finish else w

/-- Whether a MOVE has a row left to issue. -/
def Cmd.rowsLeft (k : Cmd) : Bool :=
  decide (k.u 32 4 ≠ 0) && decide (k.issued < k.u 36 4) && k.fault.isNone && !k.cancelled && !k.finished

/-- Whether a GEMM or GEMM_DW has panels or streaming tiles left to fetch; a member of a multicast that does not lead fetches no
streaming tile (R62). -/
def State.fetchLeft (s : State) (c : Nat) (k : Cmd) : Bool :=
  let g := k.geo
  k.fault.isNone && !k.cancelled && !k.finished && !k.nothing &&
    ((k.fetchA && decide (k.loads < (k.groups g).length)) ||
      (k.fetchB && decide (k.issued < (k.runs g).length * g.streams) && s.mcLeads c k))

/-- Rows of an ACT_FUSED (R144, R159), and whether one is left to issue. -/
def Cmd.actRows (k : Cmd) : Nat := if k.u 20 4 = 0 then 0 else k.u 16 4
def Cmd.actLeft (k : Cmd) : Bool := decide (k.issued < k.actRows) && k.fault.isNone && !k.cancelled && !k.finished

/-- Whether a started command has transfers that it has not issued (R134): rows, panels, streaming tiles, and output tiles that are
ready to be stored. -/
def State.unissued (s : State) (c : Nat) (k : Cmd) : Bool :=
  if k.opcode = 0x0101 then k.rowsLeft
  else if k.opcode = 0x0201 ∨ k.opcode = 0x0202 then s.fetchLeft c k || (k.bit 28 6 && k.staged.any (fun t => t.units.isEmpty && !t.issued))
  else decide (k.opcode = 0x0402) && k.actLeft

/-- A Carter queue issues its transfers in the order of the commands that created them (R134): the turn of a command. A command's
transfers count as created when it starts, its output tiles when they are ready (DEDUCED; log entry 61). -/
def State.carterTurn (s : State) (c : Nat) (k : Cmd) : Bool :=
  (s.cell c).cmds.all (fun y => decide (k.num ≤ y.num) || decide (y.chanq ≠ k.chanq) || !s.unissued c y)

/-- Whether a MOVE can issue a row. -/
def State.moveReady (s : State) (c : Nat) (k : Cmd) : Bool :=
  k.rowsLeft && s.depthRoom c k.chanq && s.carterTurn c k && (s.xfersOf c k.num).all (fun x => x.fault.isNone)

/-- Issuing a row of a started MOVE. -/
def State.moveIssue (s : State) (c n : Nat) : State × Bool :=
  match s.cmd c n with
  | some k => if k.opcode = 0x0101 ∧ !k.finished ∧ s.moveReady c k then (W.mk s c k .go).moveIssue.step else (s, false)
  | none => (s, false)

/-- Landing a row of a started MOVE. -/
def State.moveLand (s : State) (c n : Nat) (x : Xfer) : State × Bool :=
  match s.cmd c n with
  | some k =>
    if k.opcode = 0x0101 ∧ x ∈ (s.cell c).xfers ∧ x.num = n ∧ !s.xferAway c n x.unit then
      ((W.mk s c k .go).moveLand x).moveEnd.step
    else (s, false)
  | none => (s, false)

/-- One step of a MOVE: a row lands, or the next is issued. -/
def State.moveStep (c n : Nat) (s : State) : State × Bool :=
  s.firstOf ((s.xfersOf c n).map (fun x z => z.moveLand c n x) ++ [fun z => z.moveIssue c n])

/-- The rows of a MOVE; where one waits for another module or for a page, the command stays to be taken up again. -/
def State.moveRun (s : State) (c n : Nat) : State :=
  match s.cmd c n with
  | none => s
  | some k => (State.steps (State.moveStep c n) (3 * k.u 36 4 + 3) s).work c n [0x0101] W.moveEnd

/-- MOVE: the rows move in ascending order (R132). -/
def execMove (c : Fin 256) (n : Nat) (s : State) : Res :=
  .next (if s.cellDead c.val then s else s.moveRun c.val n)

/-! ## ACT_FUSED -/

/-- A row of an ACT_FUSED is issued as a transfer of the Carter queue in CHANQ (R160). -/
def State.actIssue (s : State) (c n : Nat) : State × Bool :=
  match s.cmd c n with
  | some k =>
    if k.opcode = 0x0402 ∧ k.actLeft ∧ k.issued = k.pos ∧ s.depthRoom c k.chanq ∧ s.carterTurn c k then
      (((W.mk s c { k with issued := k.issued + 1 } .go).begin ⟨n, k.chanq, [], k.pos % 2 ^ 20, none⟩).step)
    else (s, false)
  | none => (s, false)

/-- The row of an ACT_FUSED that its Carters move is formed, coded and written (R159, R160). -/
def State.actLand (s : State) (c n : Nat) (x : Xfer) : State × Bool :=
  match s.cmd c n with
  | some k =>
    if k.opcode = 0x0402 ∧ x ∈ (s.cell c).xfers ∧ x.num = n ∧ !k.finished then
      let r := (W.mk s c k .go).actRow
      match r.halt with
      | .wait => (((W.mk s c k .go).back r).keep, false)
      | .go => (({ r with k := { r.k with pos := k.pos + 1 } }.endXfer x).keep, true)
      | .fault => ((r.endXfer x).finish.keep, true)
    else (s, false)
  | none => (s, false)

/-- One step of an ACT_FUSED: a row lands, the next is issued, or it ends. -/
def State.actStep (c n : Nat) (s : State) : State × Bool :=
  s.firstOf ((s.xfersOf c n).map (fun x z => z.actLand c n x) ++ [fun z => z.actIssue c n])

/-- An ACT_FUSED has ended once no row is left, or it was stopped, and none is outstanding. -/
def W.actEnd (w : W) : W := if !w.k.actLeft && (w.s.xfersOf w.c w.k.num).isEmpty then w.finish else w

/-- ACT_FUSED: f(gate) × up, row by row (R159, R160). -/
def execActFused (c : Fin 256) (n : Nat) (s : State) : Res :=
  .next (match s.cmd c.val n with
    | some k =>
      if s.cellDead c.val ∨ k.opcode ≠ 0x0402 then s
      else (State.steps (State.actStep c.val n) (2 * k.actRows + 2) s).work c.val n [0x0402] W.actEnd
    | none => s)

end Sys2Proof.Machine
end

