-- ==== Sys2Proof/Machine/Drain.lean ====
section
/-! DEFINITION. The output stage of a GEMM: draining a bank row by row (R32, R55, R59, R60), coding its blocks (R35, R474), row sums
(R157), C_BUF and the store stage (R130), and the compress stage (R247). -/

namespace Sys2Proof.Machine

/-! ## Drained elements -/

/-- The key of an output element. -/
def outKey (i j : Nat) : Nat := 2 ^ 33 * i + j

/-- The function that the output transform applies (R125, R154). -/
def Cmd.outFn (k : Cmd) (func : Nat) : Fn × Bool :=
  if k.bit 28 4 then ((fnOf (bitsOf func 6 1)).1, func.testBit 0) else (.none, false)

/-- One live output element from its bank, with its saturation mark (R32, R152, R158). -/
def Cmd.outElem (k : Cmd) (g : Geo) (x : Bank) (i j : Nat) : SVal × Bool :=
  let f := k.outFn x.func
  let at_ := fun (c : Nat) => Tab.get (fun _ => Acc.clear) x.acc (128 * (i % g.p) + c % g.p)
  match g.sources j with
  | [a, b] =>
    let ga := at_ a
    let up := at_ b
    (fnGate f.1 f.2 (FnIn.ofAcc x.w ga) (FnIn.ofAcc x.w up), ga.satd || up.satd)
  | _ => let y := at_ j; (fnOut f.1 f.2 (FnIn.ofAcc x.w y), y.satd)

/-- A coded element with its counts: each output element counts once, one that saturated in its bank as saturated (R32, R44,
R154). -/
def codeHeld (f : Fmt) (t k : Int) (v : SVal × Bool) : Nat × Counts :=
  let r := codeSVal f t k v.1
  (r.1, if v.2 && !v.1.isNar then Counts.oneSat else r.2)

/-! ## Blocks -/

/-- A block of the output (R20, R474): its axis position and its place along the axis. -/
structure OutBlk where
  line : Nat
  blk : Nat
  deriving DecidableEq, Repr

/-- The tiles of a command that run to their end: of a stopped one those that had closed (R127, R142). -/
def Cmd.ran (k : Cmd) (g : Geo) : List (Nat × Nat) :=
  match k.tiles with
  | some n => (k.runs g).take n
  | none => k.runs g

/-- The elements of a block inside the extents, of tiles that run: a skipped tile contributes nothing (R60, R474), nor one that was
abandoned (R127). -/
def Cmd.blockElems (k : Cmd) (g : Geo) (b : OutBlk) : List (Nat × Nat) :=
  let bs := g.fo.blk
  let idx := (List.range bs).map (fun i => b.blk * bs + i)
  let all : List (Nat × Nat) :=
    if g.axis1 then (idx.filter (fun i => decide (i < g.m))).map (fun i => (i, b.line))
    else (idx.filter (fun j => decide (j < g.outN))).map (fun j => (b.line, j))
  all.filter (fun e => (k.ran g).contains (e.1 / g.p, e.2 / g.outP))

/-- Whether a block runs over several tiles (R474). -/
def Geo.spans (g : Geo) : Bool := decide ((if g.axis1 then g.p else g.outP) < g.fo.blk)

/-- Whether tiles after the u-th share a block with tile (rt, ct). -/
def Cmd.laterShares (k : Cmd) (g : Geo) (u rt ct : Nat) : Bool :=
  let bs := g.fo.blk
  ((k.ran g).drop (u + 1)).any (fun t =>
    if g.axis1 then decide (t.2 = ct) && decide (t.1 * g.p / bs = rt * g.p / bs)
    else decide (t.1 = rt) && decide (t.2 * g.outP / bs = ct * g.outP / bs))

/-- The blocks of a tile. -/
def Geo.tileBlocks (g : Geo) (rt ct : Nat) : List OutBlk :=
  let bs := g.fo.blk
  let rows := ((List.range g.p).map (fun r => rt * g.p + r)).filter (fun i => decide (i < g.m))
  let cols := g.outColsOf ct
  if g.axis1 then ((rows.map (· / bs)).eraseDups).flatMap (fun b => cols.map (fun j => ⟨j, b⟩))
  else rows.flatMap (fun i => ((cols.map (· / bs)).eraseDups).map (fun b => ⟨i, b⟩))

/-- The blocks that are complete once local row r of a tile has drained: those that span tiles once the last row of their last tile has
left (R474). -/
def Cmd.blocksDone (k : Cmd) (g : Geo) (x : Bank) (r : Nat) : List OutBlk :=
  let i := x.rt * g.p + r
  let bs := g.fo.blk
  let cols := g.outColsOf x.ct
  if g.spans then (if r + 1 = g.p ∧ !k.laterShares g x.ord x.rt x.ct then g.tileBlocks x.rt x.ct else [])
  else if g.axis1 then (if (r + 1) % bs = 0 then cols.map (fun j => ⟨j, i / bs⟩) else [])
  else if g.m ≤ i then []
  else ((cols.map (· / bs)).eraseDups).map (fun b => ⟨i, b⟩)

/-! ## Where results go (R129, R130) -/

/-- The address of an output code's first byte: by row, or by column; a run of codes along the axis begins there. -/
def Cmd.codeDst (k : Cmd) (g : Geo) (i j : Nat) : Nat :=
  let b := if k.bit 28 6 then k.addr 72 else k.addr 72 % 2 ^ 21
  if g.axis1 then b + j * k.u 120 4 + i * g.fo.bits / 8 else b + i * k.u 120 4 + j * g.fo.bits / 8

/-- The address of a block's exponent. -/
def Cmd.expDst (k : Cmd) (g : Geo) (b : OutBlk) : Nat :=
  let a := if k.bit 28 6 then k.addr 80 else k.addr 80 % 2 ^ 21
  a + b.line * ceilDiv (if g.axis1 then g.m else g.outN) g.fo.blk + b.blk

/-- Whether the tiles have 32 KiB of codes (R130). -/
def Geo.bigTile (g : Geo) : Bool := !g.wide && !g.gated && decide (g.fo = .l16)

/-- Code and exponent areas of a C_BUF slot (R130). -/
def Cmd.slotBase (k : Cmd) (g : Geo) (u : Nat) : Nat := k.u 96 4 + u % 2 * (if g.bigTile then 49152 else 32768)
def Cmd.slotExps (k : Cmd) (g : Geo) (u : Nat) : Nat := k.slotBase g u + (if g.bigTile then 32768 else 16384)

/-- The place of a tile among those that share its blocks. -/
def Geo.shareIdx (g : Geo) (rt ct : Nat) : Nat :=
  if !g.spans then 0 else if g.axis1 then rt * g.p % g.fo.blk / g.p else ct * g.outP % g.fo.blk / g.outP

/-- Where an element's code lies in C_BUF: row by row, or column by column, at the full pitch of its tile; tiles that share blocks
alternate between the slots (log entry 16). -/
def Cmd.bufCode (k : Cmd) (g : Geo) (u i j : Nat) : Nat :=
  let sh := g.shareIdx (i / g.p) (j / g.outP)
  let r := i % g.p
  let c := j % g.outP
  let bits := g.fo.bits
  k.slotBase g (u + sh) + sh / 2 * (g.p * g.outP * bits / 8) +
    (if g.axis1 then (c * g.p + r) * bits / 8 else (r * g.outP + c) * bits / 8)

/-- Where a block's exponent lies in C_BUF. -/
def Cmd.bufExp (k : Cmd) (g : Geo) (u : Nat) (b : OutBlk) : Nat :=
  let bs := g.fo.blk
  k.slotExps g u + (if g.axis1 then b.line % g.outP * ceilDiv g.p bs + b.blk % max 1 (ceilDiv g.p bs)
    else b.line % g.p * ceilDiv g.outP bs + b.blk % max 1 (ceilDiv g.outP bs))

/-! ## Row sums (R157) -/

/-- Adding stored codes to the row-sum record of a row: the first tile that runs writes it, with the row's output elements, live or
dead, as COUNT; later ones add. -/
def W.addRowSum (w : W) (i : Nat) (sum : Int) : W :=
  let o := w.k.u 124 4 + 16 * i
  let first := !w.k.sumRows.contains i
  let old := if first then (List.replicate 16 0, w) else w.peek o 16
  let sm := toSigned 96 (fieldB old.1 0 12) + sum
  let count := if first then w.k.geo.outN % 2 ^ 32 else fieldB old.1 12 4
  let w1 := old.2.poke o (leBytes 12 (ofSigned 96 sm) ++ leBytes 4 count)
  if first then { w1 with k := { w1.k with sumRows := i :: w1.k.sumRows } } else w1

/-! ## Coding a block -/

/-- Cutting elements into runs that lie in one tile. -/
def tileRunsOf (g : Geo) (es : List ((Nat × Nat) × Nat)) : List (List ((Nat × Nat) × Nat)) :=
  let keys := (es.map (fun e => (e.1.1 / g.p, e.1.2 / g.outP))).eraseDups
  keys.map (fun t => es.filter (fun e => decide ((e.1.1 / g.p, e.1.2 / g.outP) = t)))

/-- The number under which the output tile in slot u, written in place, notes its wrap (R69). -/
def tileOutNo (u : Nat) : Nat := 2 ^ 19 + 8 + u

/-- Writing bytes of the output: in place, where the tile's area begins at an offset, or into C_BUF with a piece for the store stage
(R130). -/
def W.putOut (w : W) (u base dst buf : Nat) (bs : List Byte) : W :=
  if w.k.bit 28 6 then
    let w1 := w.poke buf bs
    { w1 with k := { w1.k with pieces := w1.k.pieces ++ [(dst, buf, bs.length)] } }
  else (w.lwriteT (tileOutNo u) base dst bs).2

/-- A complete block is coded and written (R35, R59, R60, R474); u is the C_BUF slot of its last tile. -/
def W.putBlock (w : W) (g : Geo) (trim win : Int) (u : Nat) (b : OutBlk) : W :=
  let k := w.k
  let es := k.blockElems g b
  if es.isEmpty then w
  else
    let vals := es.map (fun e => Tab.get (fun _ => none) k.held (outKey e.1 e.2))
    let live := vals.filterMap id
    let kx := blockExpOf g.fo trim (live.map Prod.fst)
    let coded := vals.map (fun v => match v with
      | some y => codeHeld g.fo trim kx y
      | none => (zeroCode, Counts.none))
    let codes := coded.map Prod.fst
    let n := coded.foldl (fun a x => a.add x.2) Counts.none
    let w1 := (w.count n).gather (histMaxOf trim (live.map Prod.fst))
    let w2 := { w1 with k := { w1.k with held := es.foldl (fun h e => Tab.set (fun _ => none) h (outKey e.1 e.2) none) w1.k.held } }
    let w3 :=
      if k.bit 28 5 then
        { w2 with k := { w2.k with codes := (es.zip codes).foldl (fun t (e : (Nat × Nat) × Nat) =>
          Tab.set (fun _ => 0) t (outKey e.1.1 e.1.2) (e.2 + 1)) w2.k.codes } }
      else
        (tileRunsOf g (es.zip codes)).foldl (fun z run =>
          match run with
          | [] => z
          | e :: _ => z.putOut u (k.codeDst g (e.1.1 / g.p * g.p) (e.1.2 / g.outP * g.outP)) (k.codeDst g e.1.1 e.1.2)
              (k.bufCode g u e.1.1 e.1.2) (packCodes g.fo (run.map Prod.snd))) w2
    let w4 := if live.isEmpty then w3 else w3.putOut u (k.expDst g b) (k.expDst g b) (k.bufExp g u b) [BitVec.ofInt 8 kx]
    if k.bit 33 7 then
      let im := fun (c : Nat) => (image win (decodeCode g.fo c kx)).1
      if g.axis1 then (es.zip codes).foldl (fun z (e : (Nat × Nat) × Nat) => z.addRowSum e.1.1 (im e.2)) w4
      else w4.addRowSum b.line ((codes.map im).foldl (· + ·) 0)
    else w4

/-! ## Draining -/

/-- Drain rows of a tile: in L16 mode a drain row holds two output rows (R55). -/
def Geo.drainRows (g : Geo) : Nat := if g.wide then 32 else 128

/-- Whether outputs pass through C_BUF or the coder. -/
def Cmd.stages (k : Cmd) : Bool := k.bit 28 5 || k.bit 28 6

/-- The output stage serves one bank at a time, the tile that closed first (R55). -/
def State.servesBank (s : State) (c b : Nat) (x : Bank) : Bool :=
  match s.bank c (1 - b) with
  | some y => !y.closed || decide (x.num < y.num) || (decide (x.num = y.num) && decide (x.ord < y.ord))
  | none => true

/-- Whether the next row of a bank may drain: the tally of its tile has been passed, the output stage is its, and a C_BUF slot is
free (R125, R126). -/
def State.drainReady (s : State) (c b : Nat) : Bool :=
  match s.bank c b with
  | none => false
  | some x =>
    match s.cmd c x.num with
    | none => false
    | some k =>
      let g := k.geo
      let h := k.handAt .transform
      let out := h.made - h.returned
      x.closed && decide (k.opcode = 0x0201) && decide (x.rows < g.drainRows) && s.servesBank c b x &&
        decide (x.ord < (k.handAt .multiply).passed) &&
        (!k.stages || decide (0 < x.rows) || decide (out < (if g.spans then 1 else 2)))

/-- One drain row: its output rows are converted, and the blocks that are complete are coded and written. -/
def W.drainRow (w : W) (b : Nat) : W :=
  match w.s.bank w.c b with
  | none => w
  | some x =>
    let g := w.k.geo
    let rows := if g.wide then [2 * x.rows, 2 * x.rows + 1] else [x.rows]
    let w0 := { w with s := w.s.setBank w.c b (some { x with rows := x.rows + 1 }) }
    let u := (w.k.handAt .transform).made % 2
    let w1 : W := rows.foldl (fun (z : W) r =>
      let i := x.rt * g.p + r
      let held := if g.m ≤ i then z.k.held
        else ((g.outColsOf x.ct).filter (fun j => z.k.outLive g i j)).foldl (fun h j =>
          Tab.set (fun _ => none) h (outKey i j) (some (z.k.outElem g x i j))) z.k.held
      let z1 := { z with k := { z.k with held := held } }
      (z1.k.blocksDone g x r).foldl (fun y bk => y.putBlock g x.trim x.w u bk) z1) w0
    -- a fault in a tile's own store ends that tile (R127)
    if w1.halt = .fault then
      { w1 with s := (w1.s.setBank w.c b none).setDrain w.c b false, k := { w1.k with pieces := [], held := [] } }
    else w1

/-- The units of the tiles whose blocks are complete with tile (rt, ct), for the coder (R247): index entry and codes. -/
def Cmd.unitsOf (k : Cmd) (g : Geo) (u rt ct : Nat) : List (Nat × List Byte) :=
  let bs := g.fo.blk
  let tiles := ((k.ran g).take (u + 1)).filter (fun t => decide (t = (rt, ct)) || (g.spans &&
    (if g.axis1 then decide (t.2 = ct) && decide (t.1 * g.p / bs = rt * g.p / bs)
      else decide (t.1 = rt) && decide (t.2 * g.outP / bs = ct * g.outP / bs))))
  tiles.map (fun t =>
    let is := ((List.range g.p).map (fun i => t.1 * g.p + i)).filter (fun i => decide (i < g.m))
    let js := g.outColsOf t.2
    let at_ := fun (i j : Nat) => Tab.get (fun _ => 0) k.codes (outKey i j) - 1
    let bytes := if g.axis1 then js.flatMap (fun j => packCodes g.fo (is.map (fun i => at_ i j)))
      else is.flatMap (fun i => packCodes g.fo (js.map (fun j => at_ i j)))
    ((if k.bit 28 6 then k.addr 72 else k.addr 72 % 2 ^ 21) + t.1 * k.u 120 4 + 8 * t.2, bytes))

/-- Whether a bank's last row has left. -/
def State.freeReady (s : State) (c b : Nat) : Bool :=
  match s.bank c b with
  | none => false
  | some x => (match s.cmd c x.num with
    | some k => x.closed && decide (k.opcode = 0x0201) && decide (k.geo.drainRows ≤ x.rows)
    | none => false)

/-- A tile whose blocks are complete is handed on to the coder or to the store stage; one written in place is done with. -/
def Cmd.stageTile (k : Cmd) (g : Geo) (u rt ct : Nat) : Cmd :=
  let slot := (k.handAt .transform).made % 2
  if !k.stages then { k with wrapped := k.wrapped.filter (fun t => decide (t / 256 ≠ tileOutNo slot)) }
  else
    let units := if k.bit 28 5 then k.unitsOf g u rt ct else []
    { (k.onHand .transform HandSt.make) with
      staged := k.staged ++ [⟨slot, k.pieces, units, false⟩], pieces := [], codes := if k.bit 28 5 then [] else k.codes }

/-- A bank becomes free (R55); its tile is handed on unless it shares blocks with a later one. -/
def W.bankFree (w : W) (b : Nat) : W :=
  match w.s.bank w.c b with
  | none => w
  | some x =>
    let k := w.k
    let g := k.geo
    let k1 := k.onHand .multiply HandSt.use
    { w with
      s := (w.s.setBank w.c b none).setDrain w.c b false
      k := if g.spans && k.laterShares g x.ord x.rt x.ct then k1 else k1.stageTile g x.ord x.rt x.ct }

/-- Whether a stopped command holds blocks of drained tiles that only abandoned ones would have completed (R127, R142, R474). -/
def State.flushReady (s : State) (c : Nat) (k : Cmd) : Bool :=
  k.tiles.isSome && decide (k.held ≠ [] ∨ k.pieces ≠ []) && [0, 1].all (fun b => match s.bank c b with
    | some x => decide (x.num ≠ k.num)
    | none => true)

/-- Such blocks are coded and written with the elements of the tiles that have drained. -/
def W.flushHeld (w : W) : W :=
  let k := w.k
  let g := k.geo
  match (k.ran g).getLast? with
  | none => { w with k := { k with held := [], pieces := [] } }
  | some t =>
    let u := (k.handAt .transform).made % 2
    let w1 := (g.tileBlocks t.1 t.2).foldl (fun y bk => y.putBlock g (k.i 32 1) (k.i 30 2) u bk) w
    if w1.on then { w1 with k := { (w1.k.stageTile g ((k.ran g).length - 1) t.1 t.2) with held := [] } }
    else { w1 with k := { w1.k with held := [], pieces := [] } }

/-! ## The compress stage (R247) -/

/-- The first staged tile that the coder has not had. -/
def Cmd.toCompress (k : Cmd) : Option Staged := k.staged.find? (fun t => !t.units.isEmpty)

/-- One unit of a staged tile through the coder: its place in C_BUF and its entry for the store stage, or both in place (R243, R247). -/
def W.codeStaged (w : W) (t : Staged) (i : Nat) (un : Nat × List Byte) : List (Nat × Nat × Nat) × W :=
  let k := w.k
  let slot := k.u 38 1 % 16
  let store := k.bit 28 6
  let e := if store then w.read (un.1 % 2 ^ 48) 8 else w.peek un.1 8
  if !e.2.on then ([], e.2)
  else
    let f := codeUnit slot (e.2.s.portTable w.c slot 2) un.2
    let w1 := { e.2 with s := e.2.s.countFrame w.c f.2.1 f.2.2.1 f.2.2.2 }
    let tail := entryTail f.1.length f.2.1
    if store then
      let at_ := k.slotBase k.geo (t.slot + i) + i / 2 * 8192
      ([(entryAddr e.1, at_, f.1.length), (un.1 + 6, 2 ^ 32 + ofLe tail, 2)], w1.poke at_ f.1)
    else ([], (w1.lwriteT (tileOutNo t.slot) (entryAddr e.1) (entryAddr e.1) f.1).2.poke (un.1 + 6) tail)

/-- The coder codes the next staged tile (R243, R247). -/
def W.compressTile (w : W) : W :=
  match w.k.toCompress with
  | none => w
  | some t =>
    if w.s.swapHolds w.c (w.k.u 38 1 % 16) 2 then { w with halt := .wait }
    else
      let r := ((List.range t.units.length).zip t.units).foldl (fun (z : List (Nat × Nat × Nat) × W) iu =>
        let x := z.2.codeStaged t iu.1 iu.2
        (z.1 ++ x.1, x.2)) ([], w)
      let w2 := r.2
      let done : Staged := { t with pieces := r.1 ++ t.pieces, units := [] }
      let k1 := w2.k.onHand .compress HandSt.make
      if w.k.bit 28 6 && w2.on then { w2 with k := { k1 with staged := k1.staged.map (fun y => if y = t then done else y) } }
      else { w2 with k := { (k1.onHand .transform HandSt.use) with staged := k1.staged.erase t } }

/-! ## The store stage -/

/-- The next staged tile whose transfer can be issued (R130, R134). -/
def Cmd.toStore (k : Cmd) : Option Staged := k.staged.find? (fun t => t.units.isEmpty && !t.issued)

/-- Whether the tally of the tile has reached the store stage. -/
def State.storeReady (s : State) (c : Nat) (k : Cmd) : Bool :=
  let begun := (k.handAt .transform).done + k.staged.countP (fun t => t.issued)
  k.bit 28 6 && k.toStore.isSome && s.depthRoom c k.chanq && s.carterTurn c k &&
    decide (begun < (if k.bit 28 5 then (k.handAt .compress).passed else (k.handAt .transform).passed))

/-- Whether the tally of the tile has reached the compress stage. -/
def Cmd.compressReady (k : Cmd) : Bool :=
  k.bit 28 5 && k.toCompress.isSome && decide ((k.handAt .compress).made < (k.handAt .transform).passed)

/-- A Carter takes an output tile from C_BUF. -/
def W.storeIssue (w : W) : W :=
  match w.k.toStore with
  | none => w
  | some t =>
    let u := storeUnit t.slot
    let base := w.k.slotBase w.k.geo t.slot
    let r := t.pieces.foldl (fun (z : List (Nat × List Byte) × W) p =>
      if 2 ^ 32 ≤ p.2.1 then (z.1 ++ [(p.1 % 2 ^ 48, leBytes p.2.2 (p.2.1 - 2 ^ 32))], z.2)
      else let b := z.2.lreadT (u % 2 ^ 20) base p.2.1 p.2.2; (z.1 ++ [(p.1 % 2 ^ 48, b.1)], b.2)) ([], w)
    if r.2.halt = .fault then { r.2 with k := { r.2.k with staged := r.2.k.staged.erase t } }
    else
      let k1 := { r.2.k with staged := r.2.k.staged.map (fun y => if y = t then { t with issued := true } else y) }
      { r.2 with k := k1 }.begin ⟨w.k.num, w.k.chanq, r.1, u, none⟩

end Sys2Proof.Machine
end

