-- ==== Sys2Proof/Machine/Till.lean ====
section
/-! DEFINITION. The Till: slots and their drains (R209 to R214), page adds and the order of the Till engine (R43, R215, R216, R219),
and TILL_FLUSH (R218, R219). -/

namespace Sys2Proof.Machine

/-! ## Slots -/

/-- Element e = 128 × r + c of a slot (R209). -/
def State.slotElem (s : State) (c slot e : Nat) : Acc := Tab.get (fun _ => Acc.clear) (s.cell c).till (16384 * slot + e)

/-- The window a slot latched. -/
def State.slotWs (s : State) (c slot : Nat) : Int := toSigned 16 (s.fld Fd.cellTillSlotWs c slot)

/-- SAT and NAR of a slot follow its elements (R230). -/
def State.syncSlot (s : State) (c slot : Nat) : State :=
  let es := (s.cell c).till.filter (fun e => decide (e.1 / 16384 = slot))
  (s.setFld Fd.cellTillSlotSat c slot (b2n (es.any (fun e => e.2.satd)))).setFld Fd.cellTillSlotNar c slot
    (b2n (es.any (fun e => e.2.nar)))

/-- Emptying a slot; its window stays as it was latched. -/
def State.emptySlot (s : State) (c slot : Nat) : State :=
  ((s.onCell c (fun x => { x with till := x.till.filter (fun e => decide (e.1 / 16384 ≠ slot)) })).setFld Fd.cellTillSlotValid c slot
    0).syncSlot c slot

/-- A drained element in the slot's window (R212). -/
def slotAdd (ws w : Int) (old a : Acc) : Acc :=
  let nar := old.nar || a.nar
  if old.satd then { old with nar := nar }
  else if a.satd then ⟨if a.v < 0 then accMin else accMax, true, nar⟩
  else if ws ≤ w then
    let x := a.v * 2 ^ (w - ws).toNat
    if accMax < x then ⟨accMax, true, nar⟩
    else if x < accMin then ⟨accMin, true, nar⟩
    else { old.addInt x with nar := nar }
  else { old.addInt (a.v / 2 ^ (ws - w).toNat) with nar := nar }

/-- What one element of a drain counts (R212). -/
def slotCount (old new : Acc) : Counts :=
  if new.nar then (if old.nar then Counts.none else Counts.oneNarRes) else if new.satd then Counts.oneSat else Counts.none

/-- The Till tiles of a GEMM_DW in the order of their ordinals: row and column of 128 (R211). -/
def Cmd.tillTiles (k : Cmd) (g : Geo) : List (Nat × Nat) :=
  ((k.runs g).map (fun t => if g.wide then (t.1 / 2, t.2 / 2) else t)).eraseDups

/-- The Till tile of an output tile. -/
def Geo.tillTile (g : Geo) (x : Bank) : Nat × Nat := if g.wide then (x.rt / 2, x.ct / 2) else (x.rt, x.ct)

/-- The slot a bank drains into (R211). -/
def Cmd.tillSlot (k : Cmd) (g : Geo) (x : Bank) : Nat := (k.u 33 1 / 2 % 8 + (k.tillTiles g).idxOf (g.tillTile x)) % 8

/-- Slots that a TILL_FLUSH names (R218). -/
def Cmd.slotsNamed (k : Cmd) (slot : Nat) : Bool := decide (k.u 16 1 % 8 < 2) && (k.u 17 1).testBit slot

/-- A slot is let go of: it stays busy where an ATTN_BWD holds it or another add waits for it (R213, R214, R230). -/
def State.freeSlot (s : State) (c slot : Nat) : State :=
  let x := s.cell c
  if x.tillHeld.contains slot || x.tillAdds.any (fun a => decide (a.slot = slot)) then s else s.setFld Fd.cellTillSlotBusy c slot 0

/-- A started TILL_FLUSH that names a slot and was started before command n has not handled it yet (R219). -/
def State.slotWanted (s : State) (c n slot : Nat) : Bool :=
  (s.cell c).cmds.any (fun y => decide (y.opcode = 0x0203) && decide (y.num < n) && !y.finished && y.slotsNamed slot)

/-- Whether a closed bank of a GEMM_DW may drain into its slot (R213, R214). -/
def State.slotReady (s : State) (c b : Nat) : Bool :=
  match s.bank c b with
  | none => false
  | some x =>
    match s.cmd c x.num with
    | none => false
    | some k =>
      let slot := k.tillSlot k.geo x
      x.closed && decide (k.opcode = 0x0202) && s.servesBank c b x && decide (x.ord < (k.handAt .multiply).passed) &&
        !s.flag Fd.cellTillSlotBusy c slot && !(s.cell c).tillHeld.contains slot && !s.slotWanted c x.num slot

/-- An add joins the Till engine's order: by the start of its command, behind an add that runs (R216). -/
def joinAdds (l : List TillAdd) (a : TillAdd) : List TillAdd :=
  let before := fun (y : TillAdd) => y.claimed || decide (y.num ≤ a.num)
  l.takeWhile before ++ a :: l.dropWhile before

/-- Queueing the add of a slot into a Till tile; the slot is busy until it has ended (R213). -/
def State.queueAdd (s : State) (c : Nat) (a : TillAdd) : State :=
  (s.onCell c (fun x => { x with tillAdds := joinAdds x.tillAdds a })).setFld Fd.cellTillSlotBusy c a.slot 1

/-- A bank drains into its slot (R212); with FLUSH, the last quarter of a tile calls for the page add (R213). -/
def W.slotDrain (w : W) (b : Nat) : W :=
  match w.s.bank w.c b with
  | none => w
  | some x =>
    let k := w.k
    let g := k.geo
    let slot := k.tillSlot g x
    let tile := g.tillTile x
    let valid := w.s.flag Fd.cellTillSlotValid w.c slot
    let ws := if valid then w.s.slotWs w.c slot else x.w
    let live := (k.rowsOf g x.rt).flatMap (fun i => (k.colsOf g x.ct).map (fun j => (i, j)))
    let places := live.map (fun ij => 128 * (ij.1 % 128) + ij.2 % 128)
    -- the words of the slot are read where it holds a sum, and written (R70)
    let m := if valid then w.s.tillRead w.c slot places else (false, w.s)
    let r := live.foldl (fun (z : Tab Acc × Counts) ij =>
      let key := 16384 * slot + 128 * (ij.1 % 128) + ij.2 % 128
      let old := Tab.get (fun _ => Acc.clear) z.1 key
      let new := slotAdd ws x.w old (Tab.get (fun _ => Acc.clear) x.acc (128 * (ij.1 % g.p) + ij.2 % g.p))
      (Tab.set (fun _ => Acc.clear) z.1 key new, z.2.add (slotCount old new))) ((w.s.cell w.c).till, Counts.none)
    let s1 := (m.2.setBank w.c b none).setDrain w.c b false
    let s2 := (s1.onCell w.c (fun y => { y with till := r.1 })).tillWrite w.c slot places
    let s3 := ((s2.setFld Fd.cellTillSlotValid w.c slot 1).setFld Fd.cellTillSlotWs w.c slot (ofSigned 16 ws)).syncSlot w.c slot
    let lastQuarter := ((k.runs g).drop (x.ord + 1)).all (fun t => decide (g.tillTile { x with rt := t.1, ct := t.2 } ≠ tile))
    let a : TillAdd := ⟨k.num, slot, k.addr 72, (k.u 80 4 + tile.1 * k.u 84 4 + tile.2) % 2 ^ 32, false, false⟩
    let s4 := if k.bit 33 0 && lastQuarter then s3.queueAdd w.c a else s3
    if m.1 then { w with s := s1 }.fail cMemUncorrectable
    else ({ w with s := s4, k := k.onHand .multiply HandSt.use }).count r.2

/-! ## Page adds -/

/-- Where the elements of a tile begin (R215). -/
def tileElems (region tile : Nat) : Nat := (region + 65536 + 98304 * tile) % 2 ^ 48

/-- Cutting bytes into groups of n. -/
def cutBy (n : Nat) : Nat → List Byte → List (List Byte)
  | 0, _ => []
  | f + 1, bs => bs.take n :: cutBy n f (bs.drop n)

/-- A tile of a Till region: its exponent and its elements (R215). -/
def W.readTile (w : W) (region tile : Nat) : (Int × List Int) × W :=
  let x := w.read ((region + tile) % 2 ^ 48) 1
  let e := x.2.read (tileElems region tile) 98304
  ((expByte (x.1.getD 0 0), (cutBy 6 16384 e.1).map (fun b => toSigned 48 (ofLe b))), e.2)

/-- Writing a tile. -/
def W.writeTile (w : W) (region tile : Nat) (x : Int) (es : List Int) : W :=
  (w.write (tileElems region tile) (es.flatMap (fun e => leBytes 6 (ofSigned 48 e)))).write ((region + tile) % 2 ^ 48) [BitVec.ofInt 8 x]

/-- Opening the pages of a tile for writing, so that its write does not wait half-way. -/
def W.openTile (w : W) (region tile : Nat) : W := (w.openRun (tileElems region tile) 98304).openRun (region + tile) 1

/-- Adding values a_e × 2^a, with NaR marks, into a tile (R43). -/
def W.pageAdd (w : W) (region tile : Nat) (a : Int) (add : List (Int × Bool)) : W :=
  let t := (w.openTile region tile).readTile region tile
  if !t.2.on then t.2
  else
    let ps := (t.1.2.zip add).map (fun (p : Int × Int × Bool) => TillPair.mk p.1 p.2.1 p.2.2)
    let r := tillAdd t.1.1 a ps
    let w1 := t.2.writeTile region tile r.1 r.2.1
    if w1.on then w1.count r.2.2 else w1

/-- Whether another cell's engine has claimed a tile (R216). -/
def State.tileClaimed (s : State) (c region tile : Nat) : Bool :=
  s.cells.any (fun e => decide (e.1 ≠ c) && e.2.tillAdds.any (fun a => a.claimed &&
    decide (tileElems a.region a.tile = tileElems region tile)))

/-- Changing the add that the Till engine has in hand. -/
def State.headAdd (s : State) (c : Nat) (f : TillAdd → List TillAdd) : State :=
  s.onCell c (fun x => match x.tillAdds with
    | a :: as => { x with tillAdds := f a ++ as }
    | [] => x)

/-- Commands of the Till engine that started before command n and have not ended: their adds and tiles come first (R216, R219). A
GEMM_DW without FLUSH makes no adds. Those that answer to a condition are passed over. -/
def State.addsAhead (s : State) (c n : Nat) (but : Cmd → Bool) : Bool :=
  (s.cell c).cmds.any (fun y => decide (y.num < n) && !y.finished && !but y &&
    (decide (y.opcode = 0x0302 ∨ y.opcode = 0x0203) || (decide (y.opcode = 0x0202) && y.bit 33 0)))

def State.addsBefore (s : State) (c n : Nat) : Bool := s.addsAhead c n (fun _ => false)

/-- The elements of a slot as the engine reads them for an add, and whether a word could not be read (R70). -/
def State.slotRead (s : State) (c slot : Nat) : List (Int × Bool) × Bool × State :=
  let m := s.tillRead c slot (List.range 16384)
  ((List.range 16384).map (fun e => let y := s.slotElem c slot e; (y.v, y.nar)), m)

/-- The Till engine takes the next add: it claims the tile, reads, adds and writes (R43, R216). A fault ends the command and leaves
the slot its sum (R213). -/
def State.pageStep (s : State) (c : Nat) : State × Bool :=
  match (s.cell c).tillAdds with
  | [] => (s, false)
  | a :: _ =>
    match s.cmd c a.num with
    | none => (s, false)
    | some k =>
      if s.cellDead c || a.added || s.tileClaimed c a.region a.tile || s.addsBefore c a.num then (s, false)
      else
        let v := s.slotRead c a.slot
        let w0 : W := ⟨v.2.2, c, k, .go⟩
        let w := if v.2.1 then w0.fail cMemUncorrectable else w0.pageAdd a.region a.tile (s.slotWs c a.slot - 30) v.1
        match w.halt with
        | .wait => (w.s, false)
        | .go => ((w.s.putCmd c w.k).headAdd c (fun y => [{ y with claimed := true, added := true }]), true)
        | .fault =>
          let s1 := ((w.s.putCmd c w.k).headAdd c (fun _ => [])).freeSlot c a.slot
          (((s1.withdraw c w.k).stopCmd c w.k false).1, true)

/-- An add has completed: the claim is released and the slot emptied (R213, R216). -/
def State.addDone (s : State) (c : Nat) : State × Bool :=
  match (s.cell c).tillAdds with
  | [] => (s, false)
  | a :: _ =>
    if !a.added || s.cellDead c then (s, false)
    else
      (((((s.headAdd c (fun _ => [])).freeSlot c a.slot).emptySlot c a.slot).bump Fd.cellTillAddCnt c), true)

/-- The Till engine works through its adds. -/
def State.runAdds (s : State) (c : Nat) : State :=
  State.steps (fun z => z.firstOf [fun y => y.addDone c, fun y => y.pageStep c]) (2 * (s.cell c).tillAdds.length + 1) s

/-- TILL_PAGE_ADD: the Till engine performs the read-add-write of the next add (R43, R216). -/
def execTillPageAdd (c : Fin 256) (s : State) : Res := .next (s.pageStep c.val).1

/-- Ending a Till command whose last add is done: it has ended where it was stopped (R142), or a TILL_FLUSH has no adds left. -/
def State.endAdds (s : State) (c : Nat) : State :=
  (s.onCell c (fun x => { x with cmds := x.cmds.map (fun y =>
    if y.kdone && !y.finished && decide (y.opcode = 0x0203 ∨ ((y.opcode = 0x0202 ∨ y.opcode = 0x0302) ∧ (y.fault.isSome ∨ y.cancelled))) &&
        x.tillAdds.all (fun a => decide (a.num ≠ y.num)) && x.xfers.all (fun t => decide (t.num ≠ y.num)) &&
        x.banks.all (fun b => match b.2 with
          | some z => decide (z.num ≠ y.num)
          | none => true)
    then { y with finished := true } else y) })).syncMill c

/-- TILL_ADD_DONE: the add in hand completes (R213). -/
def execTillAddDone (c : Fin 256) (s : State) : Res := .next ((s.addDone c.val).1.endAdds c.val)

/-! ## TILL_FLUSH -/

/-- Commands that hold slots or tiles before a TILL_FLUSH in the start order (R216, R219). -/
def State.tillBefore (s : State) (c n : Nat) : Bool :=
  (s.cell c).cmds.any (fun y => decide (y.num < n) && !y.finished && [0x0202, 0x0302, 0x0203].contains y.opcode)

/-- Running a mode of a started TILL_FLUSH whose turn has come. -/
def State.tillMode (s : State) (c n mode fuel : Nat) (f : W → W) : State :=
  match s.cmd c n with
  | none => s
  | some k =>
    let m := k.u 16 1 % 8
    if decide (k.opcode ≠ 0x0203) then s
    -- nothing to do: at once (R144, R218)
    else if 5 ≤ m ∨ (2 ≤ m ∧ k.u 20 4 = 0) then s.work c n [0x0203] W.finish
    else if s.tillBefore c n then s
    else if k.u 16 1 % 8 = mode then s.runCmd c n 0x0203 fuel f
    else s

/-- The slots of an ADD_SLOTS are taken into the engine's order; empty slots add nothing (R219). -/
def W.addSlots (w : W) : W :=
  if w.k.kdone then w
  else
    let slots := (List.range 8).filter (fun i => w.k.slotsNamed i && w.s.flag Fd.cellTillSlotValid w.c i)
    let s1 := slots.foldl (fun z i => z.queueAdd w.c ⟨w.k.num, i, w.k.addr 32, w.k.u (64 + 4 * i) 4, false, false⟩) w.s
    let k1 := { w.k with kdone := true }
    if slots.isEmpty then ({ w with s := s1, k := k1 }).finish else { w with s := s1, k := k1 }

/-- TILL_FLUSH, ADD_SLOTS: the Till engine adds the named slots into their tiles (R219). -/
def execTillAddSlots (c : Fin 256) (n : Nat) (s : State) : Res :=
  .next (((s.tillMode c.val n 0 1 W.addSlots).runAdds c.val).endAdds c.val)

/-- TILL_FLUSH, CLEAR_SLOTS: the named slots are emptied (R219). -/
def execTillClearSlots (c : Fin 256) (n : Nat) (s : State) : Res :=
  .next (s.tillMode c.val n 1 1 (fun w =>
    ({ w with s := ((List.range 8).filter w.k.slotsNamed).foldl (fun z i => z.emptySlot w.c i) w.s }).finish))

/-- Tiles of a command. -/
def State.tillCount (s : State) (c n : Nat) : Nat :=
  match s.cmd c n with
  | some k => k.u 20 4
  | none => 0

/-- TILL_FLUSH, CLEAR_TILES: zeros, with X = -128 (R43, R219). -/
def execTillClearTiles (c : Fin 256) (n : Nat) (s : State) : Res :=
  .next (s.tillMode c.val n 2 (s.tillCount c.val n + 1) (W.rowStep (s.tillCount c.val n) (fun w =>
    if w.s.tileClaimed w.c (w.k.addr 32) (w.k.u 24 4 + w.k.pos) then { w with halt := .wait }
    else w.writeTile (w.k.addr 32) (w.k.u 24 4 + w.k.pos) (-128) (List.replicate 16384 0))))

/-- A tile element as a value before coding. -/
def tillSVal (x e : Int) : SVal :=
  if e = till48Nar then .nar else if e = 0 then .zero else .lin (decide (e < 0)) e.natAbs 1 x

/-- A tile element as FP32: to nearest even, with its counts (R26, R44, R219). -/
def tillFp (x e : Int) : Word × Counts :=
  if e = till48Nar then (fpNaN, Counts.oneNarRes)
  else
    let r := (fpRoundInt .ne false e x).1
    (r, if r &&& 0x7FFFFFFF#32 = 0x7F800000#32 then Counts.oneSat else Counts.none)

/-- A tile as a READ writes it: data, exponents, the bytes of each tile's data and exponents, and its counts (R44, R219). -/
def tillOut (fmt : Nat) (trim x : Int) (es : List Int) : List Byte × List Byte × Nat × Nat × Counts :=
  let codes := fun (f : Fmt) =>
    let rows := (List.range 128).map (fun r => codeRow f trim (((es.drop (128 * r)).take 128).map (tillSVal x)))
    (rows.flatMap (fun r => packCodes f r.1), rows.flatMap (fun r => r.2.1), 2048 * f.bits, 16384 / f.blk,
      rows.foldl (fun a r => a.add r.2.2) Counts.none)
  match fmt with
  | 0 => codes .l8
  | 1 => codes .l16
  | 2 =>
    let ws := es.map (tillFp x)
    (ws.flatMap (fun e => leBytes 4 e.1.toNat), [], 65536, 0, ws.foldl (fun a e => a.add e.2) Counts.none)
  | _ => (es.flatMap (fun e => leBytes 6 (ofSigned 48 e)), [BitVec.ofInt 8 x], 98304, 1,
      ⟨0, 0, 0, es.countP (fun e => decide (e = till48Nar))⟩)

/-- Writing what a READ made of the tile in hand: what it writes counts even where the write is refused (R15). -/
def W.putTill (w : W) (o : List Byte × List Byte × Nat × Nat × Counts) : W :=
  let w1 := (w.count o.2.2.2.2).write ((w.k.addr 40 + w.k.pos * o.2.2.1) % 2 ^ 48) o.1
  if o.2.1.isEmpty then w1 else w1.write ((w.k.addr 48 + w.k.pos * o.2.2.2.1) % 2 ^ 48) o.2.1

/-- One tile of a READ (R219). -/
def W.readOut (w : W) : W :=
  let t := w.readTile (w.k.addr 32) (w.k.u 24 4 + w.k.pos)
  if !t.2.on then t.2 else t.2.putTill (tillOut (w.k.u 18 1 % 4) (w.k.i 19 1) t.1.1 t.1.2)

/-- TILL_FLUSH, READ: tiles as L8, L16, FP32 or TILL48 (R219). -/
def execTillRead (c : Fin 256) (n : Nat) (s : State) : Res :=
  .next (s.tillMode c.val n 3 (s.tillCount c.val n + 1) (W.rowStep (s.tillCount c.val n) W.readOut))

/-- One tile of a MERGE: the source tile is added into the destination (R43, R219). -/
def W.mergeTile (w : W) : W :=
  let k := w.k
  let j := k.pos
  if w.s.tileClaimed w.c (k.addr 32) (k.u 24 4 + j) then { w with halt := .wait }
  else
    let t := w.readTile (k.addr 40) (k.u 28 4 + j)
    let w1 := t.2.pageAdd (k.addr 32) (k.u 24 4 + j) t.1.1
      (t.1.2.map (fun e => if e = till48Nar then (0, true) else (e, false)))
    if w1.on then { w1 with s := w1.s.bump Fd.cellTillAddCnt w1.c } else w1

/-- TILL_FLUSH, MERGE: source tiles are added into destination tiles (R219). -/
def execTillMerge (c : Fin 256) (n : Nat) (s : State) : Res :=
  .next (s.tillMode c.val n 4 (s.tillCount c.val n + 1) (W.rowStep (s.tillCount c.val n) W.mergeTile))

end Sys2Proof.Machine
end

