-- ==== Sys2Proof/Machine/Chain.lean ====
section
/-! DEFINITION. The chain of a Mill command at work: which stage can go on (R51, R55, R58, R125 to R127, R134, R247), GEMM and GEMM_DW
as a whole, the single events of their stages, and die-row multicast credits (R64). -/

namespace Sys2Proof.Machine

/-! ## The end of a chain -/

/-- Whether a stage of a command still holds a tile, a transfer, or drained rows of blocks that are not coded yet. -/
def State.holds (s : State) (c : Nat) (k : Cmd) : Bool :=
  let x := s.cell c
  x.xfers.any (fun t => decide (t.num = k.num)) || !k.staged.isEmpty || (k.tiles.isSome && decide (k.held ≠ [] ∨ k.pieces ≠ [])) ||
    x.tillAdds.any (fun a => decide (a.num = k.num)) ||
    x.banks.any (fun b => match b.2 with
      | some z => decide (z.num = k.num)
      | none => false)

/-- The Coopers and the Turner let go of what they hold for a command (R127). -/
def State.clearPorts (s : State) (c n : Nat) : State :=
  s.onCell c (fun y => { y with
    coopers := y.coopers.filter (fun e => match e.2 with
      | some x => decide (x.num ≠ n)
      | none => false)
    turners := y.turners.filter (fun e => match e.2 with
      | some x => decide (x.num ≠ n)
      | none => false)
    mcast := none })

/-- The work has ended once every k-step is read, or it was stopped, or there is none (R131, R144), and no stage holds anything (R117,
R127, R142). -/
def W.millEnd (w : W) : W :=
  let k := w.k
  let ended := k.kdone || k.cancelled || k.fault.isSome || k.nothing
  if ended && !w.s.holds w.c k then { w.finish with s := w.s.clearPorts w.c k.num } else w

/-- One piece of a Mill command's work: where it faults, the command stops by R127 and withdraws by R65. -/
def State.millStep (s : State) (c n : Nat) (f : W → W) : State × Bool :=
  match s.cmd c n with
  | none => (s, false)
  | some k =>
    if k.finished || s.cellDead c then (s, false)
    else
      let w := f (W.mk s c k .go)
      match w.halt with
      | .wait => (w.s, false)
      | .go => (w.millEnd.keep, true)
      | .fault =>
        let s1 := ((w.s.putCmd c w.k).withdraw c w.k).stopCmd c w.k false
        match s1.1.cmd c n with
        | some y => ((W.mk s1.1 c y .go).millEnd.keep, true)
        | none => (s1.1, true)

/-- The same, where it can go on. -/
def State.millTry (s : State) (c n : Nat) (ready : State → Cmd → Bool) (f : W → W) : State × Bool :=
  match s.cmd c n with
  | some k => if (k.opcode = 0x0201 ∨ k.opcode = 0x0202) ∧ ready s k then s.millStep c n f else (s, false)
  | none => (s, false)

/-! ## Which stage can go on -/

/-- Whether the next resident panel can be issued (R125, R133). -/
def State.panelReady (s : State) (c : Nat) (k : Cmd) : Bool :=
  k.fetchA && k.maps.isSome && !k.nothing && k.fault.isNone && !k.cancelled && decide (k.loads < (k.groups k.geo).length) &&
    decide (k.loads ≤ (k.handAt .fetchA).returned) && s.depthRoom c k.chanq && s.carterTurn c k

/-- Whether the next streaming tile can be issued (R64, R125, R133). -/
def State.tileLoadReady (s : State) (c : Nat) (k : Cmd) : Bool :=
  let g := k.geo
  k.fetchB && k.maps.isSome && !k.nothing && k.fault.isNone && !k.cancelled && decide (k.issued < (k.runs g).length * g.streams) &&
    decide (k.issued < k.ring + (k.handAt .fetchB).returned) && s.depthRoom c k.chanq && s.carterTurn c k && s.mcLeads c k && s.mcReady c k

/-- Whether the last products of the open tile of a command have been read. -/
def State.closeReady (s : State) (c : Nat) (k : Cmd) : Bool := (s.openBank c k.num).isSome && decide (k.geo.streams ≤ k.sub)

/-- The bank of a command that can drain a row, be freed, or drain into its slot. -/
def State.bankWhere (s : State) (c n : Nat) (f : State → Nat → Nat → Bool) : Option Nat :=
  [0, 1].find? (fun b => (match s.bank c b with
    | some x => decide (x.num = n)
    | none => false) && f s c b)

/-- An outstanding transfer lands. -/
def State.landXfer (s : State) (c : Nat) (x : Xfer) : State × Bool :=
  if x ∉ (s.cell c).xfers ∨ s.xferAway c x.num x.unit then (s, false)
  else
    match s.cmd c x.num with
    | none => (s, false)
    | some k =>
      if k.opcode = 0x0101 then s.moveLand c x.num x
      else if k.opcode = 0x0402 then s.actLand c x.num x
      else if isMill k.opcode then s.millStep c x.num (fun w => w.millLand x)
      else (s, false)

/-- Passing every tally and credit of a command at once (R126). -/
def State.settleCmd (s : State) (c n : Nat) : State :=
  s.onCell c (fun x => { x with cmds := x.cmds.map (fun y => if y.num = n then y.settle else y) })

/-- The credits that the members of a lead's multicast can give (R64). -/
def State.memberCredit (s : State) (m tag : Nat) : Nat :=
  match s.mcCmd m tag with
  | some y => y.ring + (y.handAt .fetchB).returned
  | none => 0

/-- Every member gives the credits it can. -/
def State.takeCredits (s : State) (c n : Nat) : State :=
  match s.cmd c n with
  | none => s
  | some k => s.putCmd c { k with mcCredit := (k.members c).foldl (fun t m =>
      Tab.set (fun _ => 0) t m (s.memberCredit m (k.u 36 2))) k.mcCredit }

/-! ## The chain as a whole -/

/-- Whether the bitmaps are still to be read: not where there is nothing to do (R131, R144). -/
def Cmd.mapsDue (k : Cmd) : Bool := k.maps.isNone && !k.nothing

/-- One event of a command's chain, the first that can happen; hand-overs follow at once. -/
def State.chainStep (c n : Nat) (s : State) : State × Bool :=
  let tryIt := fun (ready : State → Cmd → Bool) (f : W → W) (z : State) => z.millTry c n ready f
  let onBank := fun (ready : State → Nat → Nat → Bool) (f : W → Nat → W) (z : State) => match z.bankWhere c n ready with
    | some b => z.millStep c n (fun w => f w b)
    | none => (z, false)
  let r := s.firstOf
    ([tryIt (fun _ k => k.mapsDue) W.latchMaps] ++
     (s.xfersOf c n).map (fun x z => z.landXfer c x) ++
     [onBank State.drainReady W.drainRow, onBank State.freeReady W.bankFree, onBank State.slotReady W.slotDrain,
      tryIt (fun z k => z.flushReady c k) W.flushHeld, fun z => z.addDone c, fun z => z.pageStep c,
      tryIt (fun _ k => k.compressReady) W.compressTile, tryIt (fun z k => z.storeReady c k) W.storeIssue,
      tryIt (fun z k => z.closeReady c k) (fun w => match w.s.openBank w.c w.k.num with
        | some b => w.tileClose b.1
        | none => w),
      tryIt (fun z k => z.stepsReady c k) W.millSteps, tryIt (fun z k => z.placeAReady c k) W.placeA,
      tryIt (fun z k => z.placeBReady c k) W.placeB, tryIt (fun z k => z.squareReady c 0 k) (W.readSquare 0),
      tryIt (fun z k => z.squareReady c 1 k) (W.readSquare 1),
      tryIt (fun z k => z.tileReady c k) W.tileStart, tryIt (fun z k => z.panelReady c k) W.loadPanel,
      fun z => (z.takeCredits c n).millTry c n (fun y k => y.tileLoadReady c k) W.loadTile])
  (r.1.settleCmd c n, r.2)

/-- Events that a chain can take at most. -/
def Cmd.chainFuel (k : Cmd) : Nat :=
  let g := k.geo
  (ceilDiv g.m g.p + 2) * (ceilDiv g.n g.p + 2) * (200 * g.streams + 2 * g.p + 20) + 50

/-- A GEMM or GEMM_DW runs until it ends or has to wait: for a page, another member, another command's bank or slot. -/
def State.chainRun (s : State) (c n op : Nat) : State :=
  match s.cmd c n with
  | none => s
  | some k =>
    if k.opcode ≠ op ∨ k.finished ∨ s.cellDead c then s
    else ((State.steps (State.chainStep c n) k.chainFuel s).work c n [op] W.millEnd).endAdds c

/-- GEMM: fetch, expand, multiply, output transform, compress and store (R51 to R65, R125 to R131). -/
def execGemm (c : Fin 256) (n : Nat) (s : State) : Res := .next (s.chainRun c.val n 0x0201)

/-- GEMM_DW: tiles accumulate into Till slots, with FLUSH into Till pages (R210 to R214). -/
def execGemmDw (c : Fin 256) (n : Nat) (s : State) : Res := .next (s.chainRun c.val n 0x0202)

/-! ## Single events -/

/-- CARTER_TRANSFER: a Carter queue below its depth issues the next transfer of its oldest command that has one (R133, R134). -/
def execCarterTransfer (c : Fin 256) (q : Fin 16) (s : State) : Res :=
  let c := c.val
  let mine := (s.cell c).cmds.filter (fun k => decide (k.chanq = q.val) && !k.finished)
  let one := fun (k : Cmd) (z : State) =>
    if k.opcode = 0x0101 then z.moveIssue c k.num
    else if k.opcode = 0x0402 then z.actIssue c k.num
    else
      let y := (z.millTry c k.num (fun _ k => k.mapsDue) W.latchMaps).1
      y.firstOf [fun t => t.millTry c k.num (fun u k => u.storeReady c k) W.storeIssue,
        fun t => t.millTry c k.num (fun u k => u.panelReady c k) W.loadPanel,
        fun t => t.millTry c k.num (fun u k => u.tileLoadReady c k) W.loadTile]
  .next (if s.cellDead c then s else (s.firstOf (mine.map one)).1)

/-- TRANSFER_LANDED: an outstanding transfer's last byte lands (R134). -/
def execTransferLanded (c : Fin 256) (i : Nat) (s : State) : Res :=
  .next (match (s.cell c.val).xfers[i]? with
    | some x => if s.cellDead c.val then s else (s.landXfer c.val x).1
    | none => s)

/-- STAGE_HANDOVER: a stage passes one tally on, or returns one credit (R126). -/
def execStageHandover (c : Fin 256) (n : Nat) (h : Handover) (credit : Bool) (s : State) : Res :=
  .next (s.work c.val n [0x0201, 0x0202] (fun w =>
    { w with k := w.k.onHand h (if credit then HandSt.giveBack else HandSt.pass) }))

/-- TILE_START: the next tile of a command starts in the bank that comes next, if that is free (R55). -/
def execTileStart (c : Fin 256) (n : Nat) (s : State) : Res :=
  .next (((s.millTry c.val n (fun _ k => k.mapsDue) W.latchMaps).1.millTry c.val n (fun z k => z.tileReady c.val k) W.tileStart).1)

/-- TILE_KSTEPS_DONE: the bank takes the products of the k-steps that have reached the Mill; after the last it closes (R55, R58). -/
def execTileKstepsDone (c : Fin 256) (b : Fin 2) (s : State) : Res :=
  .next (match s.bank c.val b.val with
    | some x =>
      if x.closed then s
      else
        let fuel := match s.cmd c.val x.num with
          | some k => k.geo.kk + 1
          | none => 0
        let r := State.steps (fun z => z.millTry c.val x.num (fun y k => y.stepsReady c.val k) W.millSteps) fuel s
        (r.millTry c.val x.num (fun z k => z.closeReady c.val k) (fun w => w.tileClose b.val)).1
    | none => s)

/-- A piece of work of the command that owns a bank, where it can be done. -/
def State.onBank (s : State) (c b : Nat) (ready : State → Nat → Nat → Bool) (f : W → Nat → W) : State :=
  match s.bank c b with
  | some x => if ready s c b then (s.millStep c x.num (fun w => f w b)).1 else s
  | none => s

/-- BANK_DRAIN_ROW: the output stage takes the next row of a closed bank (R55). -/
def execBankDrainRow (c : Fin 256) (b : Fin 2) (s : State) : Res := .next (s.onBank c.val b.val State.drainReady W.drainRow)


/-- TILL_SLOT_DRAIN: a closed bank of a GEMM_DW is added into its slot (R212, R213). -/
def execTillSlotDrain (c : Fin 256) (b : Fin 2) (s : State) : Res := .next (s.onBank c.val b.val State.slotReady W.slotDrain)

/-- COMPRESS_STAGE_TILE: the coder takes the next output tile of a GEMM (R247). -/
def execCompressStageTile (c : Fin 256) (n : Nat) (s : State) : Res :=
  .next (s.millTry c.val n (fun _ k => k.compressReady) W.compressTile).1

/-- MCAST_MEMBER_CREDIT: member m returns a credit to the lead c (R64). -/
def execMcastMemberCredit (c m : Fin 256) (s : State) : Res :=
  .next (match (s.cell c.val).cmds.find? (fun k => (decide (k.opcode = 0x0201) || decide (k.opcode = 0x0202)) && !k.finished &&
      decide (1 < (k.members c.val).length) && (k.members c.val).contains m.val) with
    | some k =>
      let have_ := max k.issued (Tab.get (fun _ => 0) k.mcCredit m.val)
      let most := s.memberCredit m.val (k.u 36 2)
      if s.cellDead c.val || !decide (have_ < most) then s
      else s.putCmd c.val { k with mcCredit := Tab.set (fun _ => 0) k.mcCredit m.val (have_ + 1) }
    | none => s)

/-! ## Coopers and Turners -/

/-- The first started command of a cell for which a piece of Mill work can be done. -/
def State.anyMill (s : State) (c : Nat) (ready : State → Cmd → Bool) (f : W → W) : State :=
  (s.firstOf ((s.cell c).cmds.map (fun k z => z.millTry c k.num ready f))).1

/-- BANK_FREE: a bank whose last row has left becomes free (R55); what a stopped command drained is then coded and stored (R127). -/
def execBankFree (c : Fin 256) (b : Fin 2) (s : State) : Res :=
  .next ((s.onBank c.val b.val State.freeReady W.bankFree).anyMill c.val (fun y t => y.flushReady c.val t) W.flushHeld)

/-- COOPER_PLACE_DECODE: the Cooper of a port decodes one block place (R249 to R252). -/
def execCooperPlaceDecode (c : Fin 256) (port : Fin 2) (s : State) : Res :=
  .next (if port = 0 then s.anyMill c.val (fun y t => y.placeAReady c.val t) W.placeA
    else s.anyMill c.val (fun y t => y.placeBReady c.val t) W.placeB)

/-- TURNER_SQUARE: a half of the Turner reads the next square of its operand into a free buffer (R204 to R208). The squares of an ATTN_BWD
are formed and read inside its key tiles (DEDUCED; log entry 62). -/
def execTurnerSquare (c : Fin 256) (port : Fin 2) (s : State) : Res :=
  .next (s.anyMill c.val (fun y t => y.squareReady c.val port.val t) (W.readSquare port.val))

end Sys2Proof.Machine
end

