-- ==== Sys2Proof/Machine/AttnData.lean ====
section
/-! DEFINITION. Attention: the length table and the directory (R173, R179 to R181), key/value pages (R171, R172, R174, R175), rows and
key tiles (R182, R201), and the writing of new keys and values (R177). -/

namespace Sys2Proof.Machine

/-! ## Reading and writing -/

/-- Reading that counts as bytes moved (R118). -/
def W.get (w : W) (a n : Nat) : List Byte × W :=
  let r := w.read (a % 2 ^ 48) n
  (r.1, if r.2.on then r.2.moved n else r.2)

/-- Writing that counts as bytes moved. -/
def W.putBytes (w : W) (a : Nat) (bs : List Byte) : W :=
  let r := w.write (a % 2 ^ 48) bs
  if r.on then r.moved bs.length else r

/-- Codes of packed bytes, in order (R91). -/
def unpackCodes (f : Fmt) (bs : List Byte) : List Nat :=
  match f with
  | .l4 => bs.flatMap (fun b => [b.toNat % 16, b.toNat / 16])
  | .l8 => bs.map BitVec.toNat
  | .l16 => (cutBy 2 (bs.length / 2) bs).map ofLe

/-! ## The descriptor (R183) -/

def Cmd.heads (k : Cmd) : Nat := k.u 20 1 % 16 + 1
def Cmd.qFmt (k : Cmd) : Fmt := fmtAt k 22 0
def Cmd.oFmt (k : Cmd) : Fmt := fmtAt k 22 4
def Cmd.pFmt (k : Cmd) : Fmt := if k.bit 22 3 then .l16 else .l8
def Cmd.dsFmt (k : Cmd) : Fmt := if k.bit 22 6 then .l16 else .l8
def Cmd.kvWrite (k : Cmd) : Bool := k.bit 23 0 && !k.isBwd
def Cmd.merges (k : Cmd) : Bool := k.bit 23 1 && !k.isBwd
/-- Rows of a row tile (R182). -/
def Cmd.rowTile (k : Cmd) : Nat := if k.qFmt = .l16 ∨ k.pFmt = .l16 then 64 else 128
/-- Sweeps of a row tile (R190), and the elements of the output that a sweep forms. -/
def Cmd.sweeps (k : Cmd) : Nat := if k.headDim = 256 ∧ !k.isBwd then 2 else 1
def Cmd.sweepDim (k : Cmd) : Nat := if k.isBwd then k.headDim else min 128 k.headDim

/-! ## The length table -/

/-- An entry of the length table with its directory entry (R173, R179). -/
structure AEnt where
  seq : Nat
  start : Nat
  len : Nat
  kind : Nat
  param : Nat
  pt : Nat
  firstPage : Nat
  pages : Nat
  l8 : Bool
  slices : Nat
  reserved : Bool
  deriving DecidableEq, Repr

/-- An entry from its 16 bytes and the 16 bytes of its directory entry. -/
def AEnt.decode (e d : List Byte) : AEnt :=
  let f := fieldB d 8 2
  let n := fieldB d 10 2
  let m := fieldB d 12 1
  ⟨fieldB e 0 4, fieldB e 4 4, fieldB e 8 4, fieldB e 12 1, fieldB e 13 3, fieldB d 0 8 % 2 ^ 48, f % 2 ^ 14, n % 2 ^ 15,
    m.testBit 0, fieldB d 14 2, decide (2 ^ 14 ≤ f) || decide (2 ^ 15 ≤ n) || decide (2 ≤ m) || decide (fieldB d 13 1 ≠ 0)⟩

/-- Words in which a command keeps an entry. -/
def AEnt.words (e : AEnt) : List Int :=
  [e.seq, e.start, e.len, e.kind, e.param, e.pt, e.firstPage, e.pages, b2n e.l8, e.slices]

def AEnt.ofWords (x : List Int) : AEnt :=
  let g := fun (i : Nat) => (x.getD i 0).toNat
  ⟨g 0, g 1, g 2, g 3, g 4, g 5, g 6, g 7, decide (g 8 = 1), g 9, false⟩

/-- Cutting a list into groups of n. -/
def groupBy {α : Type} (n : Nat) : Nat → List α → List (List α)
  | 0, _ => []
  | f + 1, xs => if xs.isEmpty then [] else xs.take n :: groupBy n f (xs.drop n)

/-- The entries that a command read at its start. -/
def Cmd.ents (k : Cmd) : List AEnt := (groupBy 10 k.words.length k.words).map AEnt.ofWords

/-- The first failed check of an entry (R181, R192). -/
def AEnt.check (k : Cmd) (e : AEnt) : Option Code :=
  if 4194304 < e.start + e.len then some cLengthLimit
  else if 3 < e.kind ∨ e.reserved then some cLengthTableInvalid
  else if 16384 < e.firstPage + e.pages then some cLengthLimit
  else if k.kvWrite && decide (e.len ≠ 0) && (decide (e.start / 256 < e.firstPage) ||
      decide (e.firstPage + e.pages ≤ (e.start + e.len - 1) / 256)) then some cLengthTableInvalid
  else if k.strict && k.bit 22 2 && !e.l8 then some cStrictPrecision
  else none

/-- Reading and checking the length table entry by entry (R181). -/
def W.attnChecks (w : W) : W :=
  let n := w.k.u 16 4
  let r := (List.range n).foldl (fun (z : List Int × W) i =>
    if !z.2.on then z
    else
      let e := z.2.get (z.2.k.addr 40 + 16 * i) 16
      let d := e.2.get (e.2.k.addr 48 + 16 * fieldB e.1 0 4) 16
      let x := AEnt.decode e.1 d.1
      if !d.2.on then (z.1, d.2)
      else match x.check w.k with
        | some c => (z.1, d.2.fail c)
        | none => (z.1 ++ x.words, d.2)) ([], w)
  let k1 := { r.2.k with words := r.1 }
  let sum : Nat := k1.ents.foldl (fun a e => a + e.len) 0
  if !r.2.on then r.2
  else if 65536 < n then r.2.fail cLengthTableInvalid
  else if 4194304 < sum then r.2.fail cLengthLimit
  else { r.2 with k := k1 }

/-- Whether a query at position p of an entry may attend to key k (R180). -/
def AEnt.allows (e : AEnt) (p k : Nat) : Bool :=
  match e.kind with
  | 0 => decide (k ≤ p)
  | 1 => decide (k < e.start + e.len)
  | 2 => decide (p < k + e.param) && decide (k ≤ p)
  | _ => decide (k ≤ p) || decide (k < min e.param (e.start + e.len))

/-! ## Rows and tiles -/

/-- A row of a row tile: query head, packed row, entry, position (R179, R182). -/
structure ARow where
  g : Nat
  r : Nat
  ent : AEnt
  pos : Nat
  deriving DecidableEq, Repr

/-- The packed rows in order: packed row, entry, token. -/
def packedRows (es : List AEnt) : List (Nat × AEnt × Nat) :=
  let all := es.flatMap (fun e => (List.range e.len).map (fun j => (e, j)))
  ((List.range all.length).zip all)

/-- The row tiles of a command in order (R182, R201). -/
def Cmd.rowTiles (k : Cmd) : List (List ARow) :=
  let p := k.rowTile
  let packed := packedRows k.ents
  let row := fun (g : Nat) (x : Nat × AEnt × Nat) => ARow.mk g x.1 x.2.1 (x.2.1.start + x.2.2)
  if k.opcode = 0x0303 then
    let firsts := (List.range k.ents.length).map (fun n => ((k.ents.take n).foldl (fun a e => a + e.len) 0))
    (k.ents.zip firsts).flatMap (fun ef =>
      let rows := (List.range ef.1.len).flatMap (fun j => (List.range k.heads).map (fun g => row g (ef.2 + j, ef.1, j)))
      groupBy p (rows.length + 1) rows)
  else (List.range k.heads).flatMap (fun g => groupBy p (packed.length + 1) (packed.map (row g)))

/-- The key tiles that a row tile goes over: a sequence's entry and its half-pages from the first (R182). -/
def Cmd.keyTiles (k : Cmd) (rows : List ARow) : List (AEnt × Nat) :=
  let seqs := ((k.ents.map (fun e => e.seq)).eraseDups).filter (fun q => rows.any (fun r => decide (r.ent.seq = q)))
  (seqs.filterMap (fun q => k.ents.find? (fun e => decide (e.seq = q)))).flatMap (fun e => (List.range (2 * e.pages)).map (fun i => (e, i)))

/-! ## Pages -/

/-- Elements of a page in a position (R171). -/
def Fmt.width (f : Fmt) : Nat := if f = .l8 then 128 else 256

/-- Format and width of a sequence's pages (R171). -/
def AEnt.fmt (e : AEnt) : Fmt := if e.l8 then .l8 else .l4
def AEnt.wp (e : AEnt) : Nat := e.fmt.width

/-- The page-table entry of page row i and element x of the position row (R172, R174). -/
def AEnt.entryAt (e : AEnt) (i x : Nat) : Nat := (e.pt + (i * e.slices + x / e.wp) * 32) % 2 ^ 48

/-- The page, exponents and FILL of a page-table entry (R174). -/
def pageOf (e : List Byte) : Nat := fieldB e 0 8 % 2 ^ 48 / 65536 * 65536
def keyExp (e : List Byte) (pe : Nat) : Int := expByte (e.getD (8 + pe / 32) 0)
def valExp (e : List Byte) (pe : Nat) : Int := expByte (e.getD (16 + pe / 32) 0)
def fillOf (e : List Byte) : Nat := min 256 (fieldB e 24 2 % 512)

/-- The parts of a head by page-table entry: first element of the head, place in its position row, number (R172). -/
def headParts (doff d wp : Nat) : Nat → Nat → List (Nat × Nat × Nat)
  | 0, _ => []
  | f + 1, e => if d ≤ e then [] else
    let n := min (d - e) (wp - (doff + e) % wp)
    (e, doff + e, n) :: headParts doff d wp f (e + n)

def Cmd.headParts (k : Cmd) (e : AEnt) : List (Nat × Nat × Nat) := Machine.headParts (k.u 34 2) k.headDim e.wp 8 0

/-- Columns to rows. -/
def transposeL {α : Type} (n : Nat) (xs : List (List α)) : List (List α) :=
  xs.foldr (fun x acc => (x.zip acc).map (fun p => p.1 :: p.2)) (List.replicate n [])

/-- The keys and values of a half-page, by position: d elements each; a page entry read from a narrower sequence counts once
(R171, R175, R192). -/
def W.readKeyTile (w : W) (e : AEnt) (i : Nat) : (List (List LVal) × List (List LVal)) × W :=
  let f := e.fmt
  let h := i % 2
  let part := fun (z : (List (List LVal) × List (List LVal)) × W) (p : Nat × Nat × Nat) =>
    let pe := p.2.1 % e.wp
    let n := p.2.2
    let at_ := e.entryAt (i / 2) p.2.1
    let ent := z.2.get at_ 32
    let widen := !e.l8 && w.k.bit 22 2 && !ent.2.k.idx.contains at_ && ent.2.on
    let w1 := if widen then { ent.2 with k := { ent.2.k with idx := at_ :: ent.2.k.idx } } else ent.2
    let kb := w1.get (pageOf ent.1 + h * 16384 + pe * 128 * f.bits / 8) (n * 128 * f.bits / 8)
    let keys := ((List.range n).zip (cutBy (128 * f.bits / 8) n kb.1)).map (fun x =>
      (unpackCodes f x.2).map (fun c => decodeCode f c (keyExp ent.1 (pe + x.1))))
    let lo := pe * f.bits / 8
    let nb := ceilDiv ((pe + n) * f.bits) 8 - lo
    let vals := (List.range 128).foldl (fun (y : List (List LVal) × W) pp =>
      let b := y.2.get (pageOf ent.1 + 32768 + (128 * h + pp) * 128 + lo) nb
      let cs := ((unpackCodes f b.1).drop (if f = .l4 then pe % 2 else 0)).take n
      (y.1 ++ [((List.range n).zip cs).map (fun x => decodeCode f x.2 (valExp ent.1 (pe + x.1)))], b.2)) ([], kb.2)
    ((z.1.1 ++ keys, ((z.1.2.zip vals.1).map (fun x => x.1 ++ x.2))), vals.2)
  let r := (w.k.headParts e).foldl part (([], List.replicate 128 []), w)
  ((transposeL 128 r.1.1, r.1.2), r.2)

/-! ## Rows of blocked tensors (R184) -/

/-- The exponent place of an element: byte offset of its row, element number. -/
def rowExpAt (f : Fmt) (off e : Nat) : Nat := (8 * off + e * f.bits) / (f.blk * f.bits)

/-- Elements e0 to e0 + n - 1 of a row at byte offset off: values, and the exponent of each. -/
def W.readRow (w : W) (f : Fmt) (code exp off e0 n : Nat) : (List LVal × List Int) × W :=
  let lo := e0 * f.bits / 8
  let c := w.get (code + off + lo) (ceilDiv ((e0 + n) * f.bits) 8 - lo)
  let b0 := rowExpAt f off e0
  let x := c.2.get (exp + b0) (rowExpAt f off (e0 + n - 1) + 1 - b0)
  let es := (List.range n).map (fun i => expByte (x.1.getD (rowExpAt f off (e0 + i) - b0) 0))
  ((((unpackCodes f c.1).take n).zip es |>.map (fun p => decodeCode f p.1 p.2), es), x.2)

/-! ## Writing keys and values (R177) -/

/-- A new element on its way to a page: entry address, side (0 key, 1 value), page element, position in the page, value on the
page's grid. -/
structure KvNew where
  entry : Nat
  l8 : Bool
  side : Nat
  pe : Nat
  pp : Nat
  val : SVal
  deriving DecidableEq, Repr

/-- An element as it is embedded (R93), to be rounded to the page's grid. -/
def svalOfL (v : LVal) : SVal :=
  match v with
  | .zero => .zero
  | .nar => .nar
  | .num neg l => .logv neg (64 * l)

/-- The new elements of a command in ascending order. -/
def W.newElems (w : W) : List KvNew × W :=
  let k := w.k
  let d := k.headDim
  (packedRows k.ents).foldl (fun (z : List KvNew × W) x =>
    let e := x.2.1
    let pos := e.start + x.2.2
    let off := x.1 * k.u 152 4
    let kv := z.2.readRow k.qFmt (k.addr 120) (k.addr 128) off 0 d
    let vv := kv.2.readRow k.qFmt (k.addr 136) (k.addr 144) off 0 d
    let mk := fun (side : Nat) (iv : Nat × LVal) =>
      let x := k.u 34 2 + iv.1
      KvNew.mk (e.entryAt (pos / 256 - e.firstPage) x) e.l8 side (x % e.wp) (pos % 256) (svalOfL iv.2)
    (z.1 ++ ((List.range d).zip kv.1.1).map (mk 0) ++ ((List.range d).zip vv.1.1).map (mk 1), vv.2)) ([], w)

/-- The byte and bit offset of an element in its page (R171). -/
def kvBit (f : Fmt) (side pe pp : Nat) : Nat :=
  if side = 0 then 8 * (pp / 128 * 16384) + pe * 128 * f.bits + pp % 128 * f.bits else 8 * (32768 + pp * 128) + pe * f.bits

/-- Writing one code into its page; in L4 the other half of its byte stays. -/
def W.putCode (w : W) (f : Fmt) (page bit code : Nat) : W :=
  let a := (page + bit / 8) % 2 ^ 48
  if f = .l4 then
    let o := w.read a 1
    let b := (o.1.getD 0 0).toNat
    o.2.write a [BitVec.ofNat 8 (if bit % 8 = 0 then b / 16 * 16 + code else b % 16 + 16 * code)]
  else w.write a [BitVec.ofNat 8 code]

/-- One page entry with the elements written to it: where it opens, each of its exponent blocks takes its exponent, also one that no
element is written to, and otherwise they are kept; the elements are coded and written; then its exponents and FILL (R177). -/
def W.writeEntry (w : W) (at_ : Nat) (es : List KvNew) : (Nat × Bool × List Byte × Nat × Nat) × W :=
  let e := w.get at_ 32
  let f := if es.any (fun x => x.l8) then Fmt.l8 else .l4
  let fill0 := fieldB e.1 24 2 % 512
  let fill := max fill0 (es.foldl (fun m x => max m (x.pp + 1)) 0)
  let opens := decide (fill0 = 0)
  let head : Int := if fill < 256 then w.k.u 33 1 % 16 else 0
  let expFor := fun (side b : Nat) =>
    let mine := es.filter (fun x => decide (x.side = side) && decide (x.pe / 32 = b))
    if opens && decide (b < f.width / 32) then max (-128) (min 127 (blockExpOf f 0 (mine.map (fun x => x.val)) + head))
    else expByte (e.1.getD (8 + 8 * side + b) 0)
  let exps := (List.range 16).map (fun i => BitVec.ofInt 8 (expFor (i / 8) (i % 8)))
  -- where two entries write one position the later one stands
  let w1 := es.foldl (fun (z : W) x =>
    let c := codeSVal f 0 (expByte (exps.getD (8 * x.side + x.pe / 32) 0)) x.val
    let at_ := kvBit f x.side x.pe x.pp
    if !z.on then z
    else
      let y := (z.count c.2).putCode f (pageOf e.1) at_ c.1
      if y.on then y.moved (if f = .l4 ∧ at_ % 8 ≠ 0 then 0 else 1) else y) e.2
  ((at_, opens, exps, fieldB e.1 24 2 / 512, fill), w1)

/-- KV_WRITE: every new key and value is written before any page is read (R177). -/
def W.writeKv (w : W) : W :=
  let n := w.newElems
  let ats := (n.1.map (fun x => x.entry)).eraseDups
  let nars := n.1.countP (fun x => x.val.isNar)
  let r := ats.foldl (fun (z : List (Nat × Bool × List Byte × Nat × Nat) × W) a =>
    let y := z.2.writeEntry a (n.1.filter (fun x => decide (x.entry = a)))
    (z.1 ++ [y.1], y.2)) ([], n.2.count ⟨0, 0, nars, 0⟩)
  r.1.foldl (fun z (x : Nat × Bool × List Byte × Nat × Nat) =>
    let w1 := if x.2.1 then z.putBytes (x.1 + 8) x.2.2.1 else z
    w1.putBytes (x.1 + 24) (leBytes 2 (x.2.2.2.1 * 512 + x.2.2.2.2))) r.2

end Sys2Proof.Machine
end

