-- ==== Sys2Proof/Machine/Attention.lean ====
section
/-! DEFINITION. Attention at work: the forward sweep (R161 to R163, R186 to R188, R190, R191), the backward pass (R164, R196 to R198),
and the commands ATTN_FWD, ATTN_BWD and ATTN_DECODE with their events. -/

namespace Sys2Proof.Machine

/-! ## Scores (R186) -/

/-- A sum of products in ACC64 at a window, in the order of the elements, with the products flushed. -/
def dotAcc (table8 : Bool) (w : Int) (a : Acc) (xs ys : List LVal) : Acc × Nat :=
  (xs.zip ys).foldl (fun (z : Acc × Nat) p =>
    let r := Acc.addVal table8 w z.1 (lmulVal p.1 p.2)
    (r.1, if r.2 then z.2 + 1 else z.2)) (a, 0)

/-- x × 2^e rounded to an integer, ties to even. -/
def roundScaled (x e : Int) : Int := if 0 ≤ e then x * 2 ^ e.toNat else roundHE x (2 ^ (-e).toNat)

/-- The base-2 score of a query and a key in Q15.16 (none: NaR), with its counts. -/
def Cmd.score (k : Cmd) (q key : List LVal) : Option Int × Counts :=
  let ws := k.i 28 2
  let r := dotAcc (decide (k.qFmt ≠ .l16)) ws Acc.clear q key
  let flushed : Counts := ⟨0, r.2, 0, 0⟩
  if r.1.nar then (none, flushed)
  else
    let y := roundScaled (r.1.v * k.u 24 4) (ws - 44)
    let c := (lseClamp y).1
    (some c, if r.1.satd ∨ c ≠ y then { flushed with sat := 1 } else flushed)

/-! ## Rows (R187) -/

/-- The least integer at or above a value in units of 2^-16. -/
def ceil16 (y : Int) : Int := -((-y) / 65536)

/-- The sum term c10(round10(x)) in units of 2^-88, for x in units of 2^-16: added exactly from 2^-64 on, dropped whole below. -/
def sumTerm (x : Int) : Nat :=
  let q := roundHE x 64
  let n := q / 1024
  if n < -64 then 0 else cg 10 (q % 1024).toNat * 2 ^ (n + 65).toNat

/-- An output accumulator element shifted right by d; a saturated one stays. -/
def Acc.shiftRight (a : Acc) (d : Nat) : Acc := if a.satd then a else { a with v := a.v / 2 ^ d }

/-- Raising the reference of a row to at least a value in units of 2^-16. -/
def AttnRow.raise (x : AttnRow) (acc : List Acc) (t : Int) : AttnRow × List Acc :=
  match x.ref with
  | none => ({ x with ref := some (ceil16 t), sum := 0 }, acc.map (fun _ => Acc.clear))
  | some r =>
    if r * 65536 < t then
      let d := (ceil16 t - r).toNat
      ({ x with ref := some (ceil16 t), sum := x.sum / 2 ^ d }, acc.map (fun a => a.shiftRight d))
    else (x, acc)

/-- A 32-position block of weights or gradients coded with one exponent (R35, R187). -/
def codeSquare (f : Fmt) (vs : List SVal) : List LVal × Counts :=
  let kx := blockExpOf f 0 vs
  let cs := vs.map (codeSVal f 0 kx)
  (cs.map (fun c => decodeCode f c.1 kx), cs.foldl (fun a c => a.add c.2) Counts.none)

/-- The weights of a row's unmasked positions (R187), with their counts. -/
def Cmd.weights (k : Cmd) (r : Int) (items : List (Nat × Int)) : List (Nat × LVal) × Counts :=
  (List.range 4).foldl (fun (z : List (Nat × LVal) × Counts) b =>
    let vs := (List.range 32).map (fun i => match items.find? (fun x => decide (x.1 = 32 * b + i)) with
      | some x => SVal.expv (x.2 - r * 65536) (-16)
      | none => .zero)
    let c := codeSquare k.pFmt vs
    let ws := ((List.range 32).zip c.1).filterMap (fun x =>
      if items.any (fun y => decide (y.1 = 32 * b + x.1)) then some (32 * b + x.1, x.2) else none)
    (z.1 ++ ws, z.2.add c.2)) ([], Counts.none)

/-- A key tile enters a row: reference, sum, weights, weighted sum (R187). -/
def Cmd.rowTileStep (k : Cmd) (x : AttnRow) (acc : List Acc) (items : List (Nat × Int)) (vals : List (List LVal)) :
    (AttnRow × List Acc) × Counts :=
  match maxLog (items.map (fun i => some (false, i.2))) with
  | none => ((x, acc), Counts.none)
  | some t =>
    let y := x.raise acc t
    let r := y.1.ref.getD 0
    let sum := items.foldl (fun s i => s + sumTerm (i.2 - r * 65536)) y.1.sum
    let ws := k.weights r items
    let out := ws.1.foldl (fun (z : List Acc × Nat) p =>
      let row := (z.1.zip (vals.getD p.1 [])).map (fun (e : Acc × LVal) =>
        Acc.addVal (decide (k.pFmt ≠ .l16)) (k.i 30 2) e.1 (lmulVal p.2 e.2))
      (row.map Prod.fst, z.2 + row.countP (fun e => e.2))) (y.2, 0)
    (({ y.1 with sum := sum }, out.1), { ws.2 with flush := ws.2.flush + out.2 })

/-! ## A row tile -/

/-- What a row tile keeps of an operand element, and reading it back. -/
def keepVal (t : Tab (Option (SVal × Bool))) (key : Nat) (v : LVal) : Tab (Option (SVal × Bool)) :=
  Tab.set (fun _ => none) t key (some (svalOfL v, false))
def keptVal (t : Tab (Option (SVal × Bool))) (key : Nat) : LVal :=
  match Tab.get (fun _ => none) t key with
  | some (.nar, _) => .nar
  | some (.logv neg u, _) => .num neg (u / 64)
  | _ => .zero

/-- Places in a row tile: query elements, output gradients (R197). -/
def qKey (i e : Nat) : Nat := 256 * i + e
def doKey (i e : Nat) : Nat := 2 ^ 20 + 256 * i + e

def Cmd.qRow (k : Cmd) (i : Nat) : List LVal := (List.range k.headDim).map (fun e => keptVal k.held (qKey i e))
def Cmd.doRow (k : Cmd) (i : Nat) : List LVal := (List.range k.headDim).map (fun e => keptVal k.held (doKey i e))

/-- The row tile and the sweep at a place in the order of a command; those under way (R182, R190). -/
def Cmd.tileAt (k : Cmd) (p : Nat) : List ARow := k.rowTiles.getD (p / k.sweeps) []
def Cmd.curTile (k : Cmd) : List ARow := k.tileAt k.pos
def Cmd.curSweep (k : Cmd) : Nat := k.pos % k.sweeps
def Cmd.allTiles (k : Cmd) : Nat := k.rowTiles.length * k.sweeps

/-- Byte offsets of a row of the query and of the output (R183). -/
def Cmd.qOff (k : Cmd) (x : ARow) : Nat := x.g * k.u 76 4 + x.r * k.u 72 4
def Cmd.oOff (k : Cmd) (x : ARow) : Nat := x.g * k.u 100 4 + x.r * k.u 96 4
def Cmd.lseAt (k : Cmd) (x : ARow) : Nat := (k.addr 104 + x.g * k.u 112 4 + 4 * x.r) % 2 ^ 48

/-- Keeping a row's values and the exponents of its blocks; side 1 is the output gradient. -/
def Cmd.keepRow (k : Cmd) (side i : Nat) (blk : Nat) (v : List LVal × List Int) : Cmd :=
  let h := ((List.range v.1.length).zip v.1).foldl (fun t x => keepVal t ((if side = 0 then qKey else doKey) i x.1) x.2) k.held
  let c := ((List.range v.2.length).zip v.2).foldl (fun t (x : Nat × Int) =>
    if x.1 % blk = 0 then Tab.set (fun _ => 0) t (2 ^ 20 * side + 16 * i + x.1 / blk) (x.2 + 129).toNat else t) k.codes
  { k with held := h, codes := c }

/-! ## Banks (R190) -/

/-- The bank of the score tiles, the one that comes next (R55), and the other one, for the output accumulators (log entry 64). -/
def State.scoreBank (s : State) (c : Nat) : Nat := (s.cell c).nextBank % 2
def State.outBank (s : State) (c : Nat) : Nat := 1 - s.scoreBank c

/-- A command takes a bank for its row tile; it waits until the bank is free. -/
def W.takeBank (w : W) (b ct : Nat) : W :=
  if (w.s.bank w.c b).isSome then { w with halt := .wait }
  else { w with s := w.s.setBank w.c b (some ⟨w.k.num, 0, ct, w.k.pos, 0, 0, 0, [], false, 0⟩) }

/-- The row tile takes the bank for its score tiles. -/
def W.takeScores (w : W) : W :=
  if w.k.loads ≠ 1 then w
  else
    let mine := (w.s.bank w.c (w.s.scoreBank w.c)).any (fun x => decide (x.num = w.k.num))
    let r := if mine then w else w.takeBank (w.s.scoreBank w.c) 0
    if r.on then { r with k := { r.k with loads := 2 } } else r

/-- The row tile takes the bank for its output accumulators, once the row tile before it has left it. -/
def W.takeOutput (w : W) : W :=
  match w.s.bank w.c (w.s.outBank w.c) with
  | none => w.takeBank (w.s.outBank w.c) 1
  | some x => if x.num = w.k.num ∧ !x.closed then w else { w with halt := .wait }

/-- Output accumulators of a row, in the output bank, and writing them. -/
def State.outAccs (s : State) (c i n : Nat) : List Acc :=
  match s.bank c (s.outBank c) with
  | some x => (List.range n).map (fun j => Tab.get (fun _ => Acc.clear) x.acc (128 * i + j))
  | none => List.replicate n Acc.clear

def State.setOutAccs (s : State) (c i : Nat) (es : List Acc) : State :=
  match s.bank c (s.outBank c) with
  | some x => s.setBank c (s.outBank c) (some { x with
      acc := ((List.range es.length).zip es).foldl (fun t e => Tab.set (fun _ => Acc.clear) t (128 * i + e.1) e.2) x.acc })
  | none => s

/-- k-step reads of a product of m rows and n columns over kk elements (R29, R54), which count in BUSY_CNT (R73; log entry 63). -/
def prodSteps (m n kk : Nat) (a b : Fmt) : Nat :=
  let p := if a = .l16 ∨ b = .l16 then 64 else 128
  ceilDiv m p * ceilDiv n p * ceilDiv kk (if a = .l4 ∧ b = .l4 then 2 else 1)

/-- A row tile begins: its queries are read; in a backward pass also its statistics, outputs and output gradients, and the correction
term D (R164, R186, R197). -/
def W.beginTile (w : W) : W :=
  let tile := w.k.curTile
  let k0 := { w.k with rows := [], acc := [], held := [], codes := [], sub := 0, loads := 1 }
  ((List.range tile.length).zip tile).foldl (fun z ix =>
      let i := ix.1
      let x := ix.2
      if !z.on then z
      else if !z.k.isBwd then
        let q := z.readRow z.k.qFmt (z.k.addr 56) (z.k.addr 64) (z.k.qOff x) 0 z.k.headDim
        { q.2 with k := { q.2.k.keepRow 0 i z.k.qFmt.blk q.1 with rows := q.2.k.rows ++ [AttnRow.mk none 0 false] } }
      else
        let l := z.get (z.k.lseAt x) 4
        let lv := toSigned 32 (fieldB l.1 0 4)
        if !l.2.on then l.2
        else if lv = lseEmpty then { l.2 with k := { l.2.k with rows := l.2.k.rows ++ [AttnRow.mk none 0 false] } }
        else
          let k := z.k
          let d := k.headDim
          let q := l.2.readRow k.qFmt (k.addr 56) (k.addr 64) (k.qOff x) 0 d
          let o := q.2.readRow k.oFmt (k.addr 80) (k.addr 88) (k.oOff x) 0 d
          let go := o.2.readRow k.oFmt (k.addr 120) (k.addr 128) (k.oOff x) 0 d
          let dd := dotAcc (decide (k.oFmt ≠ .l16)) (k.i 162 2) Acc.clear go.1.1 o.1.1
          let k1 := ((go.2.k.keepRow 0 i k.qFmt.blk q.1).keepRow 1 i k.oFmt.blk go.1)
          let w1 := { go.2 with k := { k1 with
            rows := k1.rows ++ [AttnRow.mk (some lv) 0 dd.1.nar], acc := Tab.set (fun _ => Acc.clear) k1.acc (256 * i) dd.1 } }
          if w1.on then (w1.count ⟨0, dd.2, 0, 0⟩).count (narCount (go.1.1 ++ o.1.1)) else w1) { w with k := k0 }

/-- Positions of a key tile that a row may use: real and allowed (R175, R180). -/
def livePos (x : ARow) (k0 real : Nat) : List Nat := (List.range real).filter (fun pp => x.ent.allows x.pos (k0 + pp))

/-- A key tile of the row tile under way: its first position, and its real positions (R175). -/
def W.tileReal (w : W) (e : AEnt) (i : Nat) : Nat × Nat × W :=
  let p := w.get (e.entryAt (i / 2) (w.k.u 34 2)) 32
  (256 * (e.firstPage + i / 2) + 128 * (i % 2), min 128 (fillOf p.1 - 128 * (i % 2)), p.2)

/-- Rows of the tile that take part in a key tile, with their positions; rows of other sequences are dead (R182), and in a backward
pass empty rows (R164). -/
def Cmd.liveRows (k : Cmd) (e : AEnt) (k0 real : Nat) : List (Nat × List Nat) :=
  let tile := k.curTile
  ((List.range tile.length).zip tile).filterMap (fun ix =>
    let ps := livePos ix.2 k0 real
    let empty := k.isBwd && (match k.rows[ix.1]? with
      | some r => r.ref.isNone
      | none => true)
    if ix.2.ent.seq ≠ e.seq ∨ ps.isEmpty ∨ empty then none else some (ix.1, ps))

/-- NaR operands of the delivered elements. -/
def nars (vs : List LVal) : Nat := vs.countP (fun v => decide (v = .nar))

/-- The page entries newly read from narrower sequences are counted once the tile is done (R192). -/
def W.countWiden (w : W) (before : Nat) : W :=
  let n := w.k.idx.length - before
  if n = 0 then w else { w with s := w.s.bump Fd.cellKvWidenCnt w.c 0 n }

/-! ## Forward (R186, R187) -/

/-- A key tile of the forward sweep: scores, and weighted sums in the output bank. -/
def W.fwdTile (w : W) (e : AEnt) (i : Nat) (live : List (Nat × List Nat)) : W :=
  let kv := w.readKeyTile e i
  let k := w.k
  let e0 := 128 * k.curSweep
  let dc := k.sweepDim
  let vals := kv.1.2.map (fun v => (v.drop e0).take dc)
  let seen := (List.range 128).filter (fun pp => live.any (fun r => r.2.contains pp))
  if !kv.2.on then kv.2
  else
    let n0 := seen.foldl (fun n pp => n + nars (kv.1.1.getD pp []) + nars (vals.getD pp [])) 0 +
      live.foldl (fun n r => n + nars (k.qRow r.1)) 0
    let steps := prodSteps k.rowTile 128 k.headDim k.qFmt e.fmt + prodSteps k.rowTile dc 128 k.pFmt e.fmt
    let w0 := { kv.2 with s := kv.2.s.bump Fd.cellBusyCnt w.c 0 steps }.count ⟨0, 0, n0, 0⟩
    live.foldl (fun (z : W) r =>
      let q := k.qRow r.1
      let sc := r.2.map (fun pp => (pp, k.score q (kv.1.1.getD pp [])))
      let counts := sc.foldl (fun a x => a.add x.2.2) Counts.none
      let nar := sc.any (fun x => x.2.1.isNone)
      let items := sc.filterMap (fun x => x.2.1.map (fun y => (x.1, y)))
      let st := z.k.rows.getD r.1 ⟨none, 0, false⟩
      let u := k.rowTileStep st (z.s.outAccs z.c r.1 dc) items vals
      -- a score element counts once, in the first sweep
      let c1 := if k.curSweep = 0 then counts else { counts with sat := 0 }
      let k1 := { z.k with rows := z.k.rows.set r.1 { u.1.1 with nar := u.1.1.nar || nar } }
      ({ z with s := z.s.setOutAccs z.c r.1 u.1.2, k := k1 }.count c1).count u.2) w0

/-! ## Finishing a row (R188, R191) -/

/-- The logarithm of an output element on grid g after the scaling of R188. -/
def scaledLog (g tr : Nat) (num : Nat) (e2 u : Int) : Int :=
  let e := floorLog2 num 1
  let m := scaleFloor num 1 (23 - e) * tr / 2 ^ 23
  let e' := e + e2 + u / 65536
  if 2 ^ 24 ≤ m then gridLog g (m / 2) (e' + 1) else gridLog g m e'

/-- An element of a partial result enters the accumulator (R191). -/
def mergeElem (w r l : Int) (a : Acc) (v : LVal) : Acc × Bool :=
  match v with
  | .zero => (a, false)
  | .nar => ({ a with nar := true }, false)
  | .num neg x =>
    let q := roundHE (64 * x + l - r * 65536) 64
    a.addMag neg (shiftMag (cg 10 (q % 1024).toNat) 23 (q / 1024) w)

/-- Merging a row's partial result (R191). -/
def W.mergeRow (w : W) (sw : Nat) (x : ARow) (st : AttnRow) (acc : List Acc) : (AttnRow × List Acc) × W :=
  let k := w.k
  let l := w.get (k.lseAt x) 4
  let lp := toSigned 32 (fieldB l.1 0 4)
  if !l.2.on ∨ lp = lseEmpty then ((st, acc), l.2)
  else if lp = lseNar then (({ st with nar := true }, acc), l.2)
  else
    let y := st.raise acc lp
    let r := y.1.ref.getD 0
    let o := l.2.readRow k.oFmt (k.addr 80) (k.addr 88) (k.oOff x) (128 * sw) k.sweepDim
    let es := (y.2.zip o.1.1).map (fun p => mergeElem (k.i 30 2) r lp p.1 p.2)
    (({ y.1 with sum := y.1.sum + sumTerm (lp - r * 65536) }, es.map Prod.fst),
      if o.2.on then o.2.count ⟨0, es.countP (fun e => e.2), nars o.1.1, 0⟩ else o.2)

/-- The results of a row: its output values with their logarithms and marks, its statistic and its count (R25, R163, R188). -/
def Cmd.rowResult (k : Cmd) (st : AttnRow) (acc : List Acc) : List (Option (Bool × Int) × Bool × Bool) × Int × Counts :=
  if st.nar then (acc.map (fun _ => (none, true, false)), lseNar, Counts.oneNarRes)
  else
    match st.ref with
    | none => (acc.map (fun _ => (none, false, false)), lseEmpty, Counts.none)
    | some r =>
      let lr := roundLog 16 st.sum 1 (-88) 0
      let l := lseClamp (r * 65536 + lr)
      let u := k.i 32 1 - (l.1 - r * 65536)
      let tr := trimFactor (u % 65536)
      (acc.map (fun a =>
        if a.nar then (none, true, false)
        else if a.v = 0 then (none, false, a.satd)
        else (some (decide (a.v < 0), scaledLog k.oFmt.g tr a.v.natAbs (k.i 30 2 - 30) u), false, a.satd)),
        l.1, if l.2 then Counts.oneSat else Counts.none)

/-- Writing a row's output, block by block, and its statistic with the last sweep (R184, R188): its elements count even where the write is
refused (R15). -/
def W.writeRowOut (w : W) (sw : Nat) (x : ARow) (vs : List (Option (Bool × Int) × Bool × Bool)) (stat : Int) (sc : Counts) : W :=
  let k := w.k
  let f := k.oFmt
  let e0 := 128 * sw
  let off := k.oOff x
  let at_ := fun (j : Nat) => rowExpAt f off (e0 + j)
  let js := List.range vs.length
  let blocks := (js.map at_).eraseDups
  let coded := blocks.map (fun b =>
    let mine := (js.zip vs).filter (fun p => decide (at_ p.1 = b))
    let kx := match maxLog (mine.map (fun p => p.2.1)) with
      | some q => blockExp f q
      | none => 0
    (b, kx, mine.map (fun p => match p.2.1 with
      | some (neg, q) => let c := codeElem f kx neg q; (c.1, if p.2.2.2 then Counts.oneSat else c.2)
      | none => if p.2.2.1 then (narCode f, Counts.oneNarRes) else (zeroCode, if p.2.2.2 then Counts.oneSat else Counts.none))))
  let codes := coded.flatMap (fun b => b.2.2.map Prod.fst)
  let counts := coded.foldl (fun a b => b.2.2.foldl (fun c y => c.add y.2) a) Counts.none
  let last := decide (sw + 1 = k.sweeps)
  let w0 := (w.count counts).count (if last then sc else Counts.none)
  let w1 := coded.foldl (fun (z : W) b => z.putBytes (k.addr 88 + b.1) [BitVec.ofInt 8 b.2.1]) w0
  let w2 := w1.putBytes (k.addr 80 + off + e0 * f.bits / 8) (packCodes f codes)
  if last then w2.putBytes (k.lseAt x) (leBytes 4 (ofSigned 32 stat)) else w2

/-- The output bank is free again once the last row of its tile has left it. -/
def W.freeOut (w : W) : W :=
  let b := w.s.outBank w.c
  { w with s := (w.s.setBank w.c b none).setDrain w.c b false, k := { w.k with out := none } }

/-- Finishing the next row of the row tile that has entered drain: a merge, the conversion, the writes (R188, R191). A store that is
refused ends the drain. -/
def W.finishRow (w : W) : W :=
  match w.k.out with
  | none => w
  | some (p, rows) =>
    let k := w.k
    let i := k.sumRows.length
    let turn := (w.s.bank w.c (w.s.outBank w.c)).all (fun x => w.s.servesBank w.c (w.s.outBank w.c) x)
    match (k.tileAt p)[i]? with
    | none => w.freeOut
    | some x =>
      if !turn then { w with halt := .wait }
      else
      let sw := p % k.sweeps
      let dc := k.sweepDim
      let f := k.oFmt
      let w0 := ((w.openRun (k.addr 80 + k.oOff x + 128 * sw * f.bits / 8) (ceilDiv (dc * f.bits) 8)).openRun
        (k.addr 88 + rowExpAt f (k.oOff x) (128 * sw)) (ceilDiv dc f.blk + 1)).openRun (k.lseAt x) 4
      let st := rows.getD i ⟨none, 0, false⟩
      let acc := w.s.outAccs w.c i dc
      let m := if k.merges then w0.mergeRow sw x st acc else ((st, acc), w0)
      let r := k.rowResult m.1.1 m.1.2
      let w1 := if m.2.on then m.2.writeRowOut sw x r.1 r.2.1 r.2.2 else m.2
      match w1.halt with
      | .wait => w1
      | .fault => w1.freeOut
      | .go =>
        let w2 := { w1 with k := { w1.k with sumRows := i :: w1.k.sumRows } }
        if (k.tileAt p).length ≤ i + 1 then w2.freeOut else w2

/-! ## Backward (R197, R198) -/

/-- LN2 × 2^128, truncated. -/
def ln2Fine : Nat := 0xB17217F7D1CF79ABC9E3B39803F2F6AF

/-- λ = log2(SCALE × 2^-30 × ln 2) rounded to 2^-16; for SCALE = 0 no value is stated: a free value (log entry 17). -/
def State.lambda (s : State) (scale : Nat) : Int × State :=
  if scale = 0 then let d := s.draw; (if d.1 % 2 = 0 then (d.1 / 2 : Nat) else -((d.1 / 2 : Nat) + 1 : Int), d.2)
  else (((Nat.log2 ((scale * ln2Fine) ^ 2 ^ 17) + 1) / 2 : Nat) - 158 * 65536, s)

/-- An operand element re-blocked along the rows (R207), with whether that flushed it: f its format, m the largest exponent of the
source blocks of its new block. -/
def reblock (f : Fmt) (m : Int) (v : LVal) : LVal × Bool :=
  match v with
  | .num _ l => if (l - 1024 * m) / 2 ^ (10 - f.g) + f.bias < 1 then (.zero, true) else (v, false)
  | _ => (v, false)

/-- The largest exponent of the source blocks of a new block: rows of the same group of block size, the block of element e. -/
def Cmd.rowsExp (k : Cmd) (f : Fmt) (side i e : Nat) : Int :=
  let rows := (List.range f.blk).map (fun j => i / f.blk * f.blk + j)
  rows.foldl (fun m j =>
    let x := Tab.get (fun _ => 0) k.codes (2 ^ 20 * side + 16 * j + e / f.blk)
    if x = 0 then m else max m ((x : Int) - 129)) (-128)

/-- A row's operand as the Turner delivers it to a gradient product: values, and what was flushed. -/
def Cmd.turned (k : Cmd) (f : Fmt) (side i : Nat) (vs : List LVal) : List (LVal × Bool) :=
  let bl := (List.range (ceilDiv vs.length f.blk)).map (fun b => k.rowsExp f side i (b * f.blk))
  ((List.range vs.length).zip vs).map (fun x => reblock f (bl.getD (x.1 / f.blk) 0) x.2)

/-- The score gradient and the weight of one pair before coding (R197). -/
def Cmd.gradPair (k : Cmd) (lam l : Int) (d dp : Acc) (y : Option Int) : SVal × SVal :=
  match y with
  | none => (.nar, if l = lseNar then .zero else .nar)
  | some y =>
    let p := if l = lseNar then SVal.zero else .expv (y - l) (-16)
    let z := dp.v - d.v
    (if dp.nar ∨ d.nar then .nar
      else if z = 0 then .zero
      else .logv (decide (z < 0)) (roundLog 16 z.natAbs 1 (k.i 162 2 - 30) 0 + (y - l) + lam), p)

/-- Coding the squares of a tile: key 128 × row + position (R197). -/
def codeSquares (f : Fmt) (cells : List (Nat × SVal)) : Tab LVal × Counts :=
  let squares := (cells.map (fun c => (c.1 / 128 / 32, c.1 % 128 / 32))).eraseDups
  squares.foldl (fun (z : Tab LVal × Counts) q =>
    let mine := cells.filter (fun c => decide ((c.1 / 128 / 32, c.1 % 128 / 32) = q))
    let r := codeSquare f (mine.map Prod.snd)
    ((mine.zip r.1).foldl (fun t x => Tab.set (fun _ => .zero) t x.1.1 x.2) z.1, z.2.add r.2)) ([], Counts.none)

/-- The columns of a list of rows, added up with a list of multipliers: element e is the sum of a_i × row_i[e]. -/
def sumRowsAcc (table8 : Bool) (w : Int) (n : Nat) (xs : List (LVal × List LVal)) : List Acc × Nat :=
  xs.foldl (fun (z : List Acc × Nat) x =>
    let r := (z.1.zip x.2).map (fun (p : Acc × LVal) => Acc.addVal table8 w p.1 (lmulVal x.1 p.2))
    (r.map Prod.fst, z.2 + r.countP (fun p => p.2))) (List.replicate n Acc.clear, 0)

/-- The Till tile of a page row's half and a dimension tile (R196). -/
def Cmd.kvTile (k : Cmd) (i u : Nat) : Nat := i * ceilDiv k.headDim 128 + u

/-- An earlier GEMM_DW whose k-steps are read and whose next tile waits for a slot that an ATTN_BWD holds (R214): its adds cannot come
before those of the ATTN_BWD (log entry 64). -/
def State.waitsHeld (s : State) (c : Nat) (y : Cmd) : Bool :=
  decide (y.opcode = 0x0202) && y.kdone && (s.cell c).banks.any (fun b => match b.2 with
    | some x => x.closed && decide (x.num = y.num) && (s.cell c).tillHeld.contains (y.tillSlot y.geo x)
    | none => false)

/-- Whether this cell's Till engine is free for an add of command n, by the start order, and its tiles are unclaimed (R216). -/
def State.engineFree (s : State) (c n : Nat) (tiles : List (Nat × Nat)) : Bool :=
  let x := s.cell c
  x.tillAdds.all (fun a => !a.claimed && decide (n ≤ a.num)) &&
    !s.addsAhead c n (s.waitsHeld c) && tiles.all (fun t => !s.tileClaimed c t.1 t.2)

/-- One page add of the command (R198), counted when it has completed. -/
def W.addPartial (w : W) (region tile : Nat) (a : Int) (es : List (Int × Bool)) : W :=
  let r := w.pageAdd region tile a es
  if r.on then { r with s := r.s.bump Fd.cellTillAddCnt r.c } else r

/-- A key tile of the backward pass. -/
def W.bwdTile (w : W) (e : AEnt) (i : Nat) (live : List (Nat × List Nat)) : W :=
  let k := w.k
  let d := k.headDim
  let us := List.range (ceilDiv d 128)
  let tiles := us.flatMap (fun u => [(k.addr 144, k.kvTile i u), (k.addr 152, k.kvTile i u)])
  if !w.s.engineFree w.c k.num tiles then { w with halt := .wait }
  else
    let kv := (tiles.foldl (fun z t => z.openTile t.1 t.2) w).readKeyTile e i
    if !kv.2.on then kv.2
    else
      let lam := kv.2.s.lambda (k.u 24 4)
      let key := fun (pp : Nat) => kv.1.1.getD pp []
      let val := fun (pp : Nat) => kv.1.2.getD pp []
      let ofmt8 := decide (k.oFmt ≠ .l16)
      let ds8 := decide (k.dsFmt ≠ .l16)
      -- scores, output-gradient products, score gradients and weights
      let pairs := live.flatMap (fun r => r.2.map (fun pp =>
        let st := k.rows.getD r.1 ⟨none, 0, false⟩
        let y := k.score (k.qRow r.1) (key pp)
        let dp := dotAcc ofmt8 (k.i 162 2) Acc.clear (k.doRow r.1) (val pp)
        let g := k.gradPair lam.1 (st.ref.getD 0) (Tab.get (fun _ => Acc.clear) k.acc (256 * r.1)) dp.1 y.1
        (128 * r.1 + pp, g, y.2.add ⟨if dp.1.satd && !dp.1.nar then 1 else 0, dp.2, 0, 0⟩)))
      let ds := codeSquares k.dsFmt (pairs.map (fun x => (x.1, x.2.1.1)))
      let ps := codeSquares k.pFmt (pairs.map (fun x => (x.1, x.2.1.2)))
      let c0 := pairs.foldl (fun a x => a.add x.2.2) (ds.2.add ps.2)
      let dsAt := fun (r pp : Nat) => Tab.get (fun _ => LVal.zero) ds.1 (128 * r + pp)
      let pAt := fun (r pp : Nat) => Tab.get (fun _ => LVal.zero) ps.1 (128 * r + pp)
      -- the query gradient
      let dq := live.map (fun r => (r.1, sumRowsAcc ds8 (k.i 160 2) d (r.2.map (fun pp => (dsAt r.1 pp, key pp)))))
      -- the key and value gradients, through the re-blocking Turner
      let qt := live.map (fun r => (r, k.turned k.qFmt 0 r.1 (k.qRow r.1)))
      let gt := live.map (fun r => (r, k.turned k.oFmt 1 r.1 (k.doRow r.1)))
      let flushed := (qt ++ gt).foldl (fun n x => n + x.2.countP (fun v => v.2)) 0
      let seen := (List.range 128).filter (fun pp => live.any (fun r => r.2.contains pp))
      let col := fun (t8 : Bool) (at_ : Nat → Nat → LVal) (xs : List ((Nat × List Nat) × List (LVal × Bool))) (pp : Nat) =>
        sumRowsAcc t8 (k.i 160 2) d ((xs.filter (fun x => x.1.2.contains pp)).map (fun x => (at_ x.1.1 pp, x.2.map Prod.fst)))
      let dk := seen.map (fun pp => (pp, col (ds8 && decide (k.qFmt ≠ .l16)) dsAt qt pp))
      let dv := seen.map (fun pp => (pp, col (decide (k.pFmt ≠ .l16) && ofmt8) pAt gt pp))
      -- counts
      let deliv := live.foldl (fun n r => n + 2 * nars (k.qRow r.1) + 2 * nars (k.doRow r.1)) 0 +
        seen.foldl (fun n pp => n + 2 * nars (key pp) + nars (val pp)) 0 +
        2 * pairs.countP (fun x => decide (Tab.get (fun _ => LVal.zero) ds.1 x.1 = .nar)) +
        pairs.countP (fun x => decide (Tab.get (fun _ => LVal.zero) ps.1 x.1 = .nar))
      let prods := (dq ++ dk ++ dv).foldl (fun n x => n + x.2.2) 0
      let satd := (dk ++ dv).foldl (fun n x => n + x.2.1.countP (fun a => a.satd && !a.nar)) 0
      -- the query gradient enters its slots (R198, R212)
      let row0 := if k.rowTile = 64 then 64 * (k.pos % k.rowTiles.length % ceilDiv (packedRows k.ents).length 64 % 2) else 0
      let valid := fun (u : Nat) => lam.2.flag Fd.cellTillSlotValid w.c (gradSlot u)
      let places := fun (u : Nat) => live.flatMap (fun r => (List.range (min 128 (d - 128 * u))).map (fun e => 128 * (row0 + r.1) + e))
      -- the words of the slot are read where it holds a sum, and written (R70)
      let m := us.foldl (fun (z : Bool × State) u =>
        if valid u then let y := z.2.tillRead w.c (gradSlot u) (places u); (z.1 || y.1, y.2) else z) (false, lam.2)
      let slotW := fun (u : Nat) => if valid u then lam.2.slotWs w.c (gradSlot u) else k.i 160 2
      let t := dq.foldl (fun (z : Tab Acc × Counts) r =>
        ((List.range d).zip r.2.1).foldl (fun (y : Tab Acc × Counts) x =>
          let u := x.1 / 128
          let at_ := 16384 * gradSlot u + 128 * (row0 + r.1) + x.1 % 128
          let old := Tab.get (fun _ => Acc.clear) y.1 at_
          let new := slotAdd (slotW u) (k.i 160 2) old x.2
          -- an element that this sweep has saturated counts once (R32)
          let n := if k.sumRows.contains r.1 && old.satd && !new.nar then Counts.none else slotCount old new
          (Tab.set (fun _ => Acc.clear) y.1 at_ new, y.2.add n)) z) ((lam.2.cell w.c).till, Counts.none)
      let s1 := m.2.onCell w.c (fun y => { y with till := t.1 })
      let s2 := us.foldl (fun (z : State) u => (((z.tillWrite w.c (gradSlot u) (places u)).setFld Fd.cellTillSlotValid w.c (gradSlot u)
        1).setFld Fd.cellTillSlotWs w.c (gradSlot u) (ofSigned 16 (slotW u))).syncSlot w.c (gradSlot u)) s1
      let s3 := if flushed = 0 then s2 else s2.bump Fd.cellReblockFlushCnt w.c 0 flushed
      let rt := k.rowTile
      let steps := prodSteps rt 128 d k.qFmt e.fmt + prodSteps rt 128 d k.oFmt e.fmt + prodSteps rt d 128 k.dsFmt e.fmt +
        prodSteps 128 d rt k.dsFmt k.qFmt + prodSteps 128 d rt k.pFmt k.oFmt
      let s4 := s3.bump Fd.cellBusyCnt w.c 0 steps
      let k1 := { kv.2.k with sumRows := k.sumRows ++ (live.map Prod.fst).filter (fun i => !k.sumRows.contains i) }
      let w1 := (({ kv.2 with s := s4, k := k1 }.count c0).count t.2).count ⟨satd, prods + flushed, deliv, 0⟩
      -- the key and value gradients enter their page tiles (R43, R198)
      let elems := fun (xs : List (Nat × List Acc × Nat)) (u : Nat) =>
        let tab := xs.foldl (fun (z : Tab (Int × Bool)) x => (((List.range 128).zip ((x.2.1.drop (128 * u)).take 128)).foldl (fun y a =>
          Tab.set (fun _ => (0, false)) y (128 * x.1 + a.1) (a.2.v, a.2.nar)) z)) []
        (List.range 16384).map (fun j => Tab.get (fun _ => (0, false)) tab j)
      let w2 := us.foldl (fun z u => z.addPartial (k.addr 144) (k.kvTile i u) (k.i 160 2 - 30) (elems dk u)) w1
      if m.1 then { kv.2 with s := m.2 }.fail cMemUncorrectable
      else us.foldl (fun z u => z.addPartial (k.addr 152) (k.kvTile i u) (k.i 160 2 - 30) (elems dv u)) w2

/-- The Till tiles of the row tile's query gradient (R196). -/
def Cmd.dqTiles (k : Cmd) : List (Nat × Nat) :=
  let rows := (packedRows k.ents).length
  let per := ceilDiv rows k.rowTile
  let g := k.pos / max 1 per
  let v := k.pos % max 1 per * k.rowTile / 128
  (List.range (ceilDiv k.headDim 128)).map (fun u => (k.addr 136, (g * ceilDiv rows 128 + v) * ceilDiv k.headDim 128 + u))

/-- At the end of a sweep each query-gradient slot is added into its tile and emptied (R198); an empty slot adds nothing. -/
def W.finishGrad (w : W) : W :=
  let k := w.k
  let tiles := k.dqTiles
  if !w.s.engineFree w.c k.num tiles then { w with halt := .wait }
  else
    let w0 := tiles.foldl (fun z t => z.openTile t.1 t.2) w
    ((List.range tiles.length).zip tiles).foldl (fun z ut =>
      let slot := gradSlot ut.1
      if !z.on ∨ !z.s.flag Fd.cellTillSlotValid z.c slot then z
      else
        let v := z.s.slotRead z.c slot
        let z1 := { z with s := v.2.2 }
        let r := if v.2.1 then z1.fail cMemUncorrectable else z1.addPartial ut.2.1 ut.2.2 (z.s.slotWs z.c slot - 30) v.1
        if r.on then { r with s := r.s.emptySlot r.c slot } else r) w0

/-! ## The commands -/

/-- Letting go of the held slots. -/
def State.freeHeld (s : State) (c : Nat) : State :=
  (s.cell c).tillHeld.foldl (fun z i => z.freeSlot c i) (s.onCell c (fun y => { y with tillHeld := [] }))

/-- Whether the slots that a command holds are its own: no add of another command waits for them, no earlier TILL_FLUSH names them
(R213, R214, R219). -/
def State.slotsMine (s : State) (c : Nat) (k : Cmd) : Bool :=
  k.gradSlots.all (fun i => (s.cell c).tillAdds.all (fun a => decide (a.slot ≠ i ∨ a.num = k.num)) && !s.slotWanted c k.num i)

/-- The start of an attention command: its checks, unless its prologue has made them (R137), and its key and value writes (R177, R181). -/
def W.attnStart (w : W) : W :=
  if w.k.u 16 4 = 0 then w.finish
  else if !w.s.slotsMine w.c w.k then { w with halt := .wait }
  else
    let w1 := if w.k.issued = 2 then w else w.attnChecks
    let w2 := if w1.on && w1.k.kvWrite then w1.writeKv else w1
    if w2.on then { w2 with k := { w2.k with issued := 1 } } else w2

/-- The command ends: its slots are free. -/
def W.attnEnd (w : W) : W := { w.finish with s := if w.k.isBwd then w.s.freeHeld w.c else w.s }

/-- The next row tile or sweep. -/
def W.nextTile (w : W) : W := { w with k := { w.k with pos := w.k.pos + 1, loads := 0, sub := 0, sumRows := [] } }

/-- Every key tile of the row tile has been read: the score bank is free, and with the last row tile every k-step is read (R115, R190). -/
def W.sweepRead (w : W) : W :=
  let b := w.s.scoreBank w.c
  let mine := match w.s.bank w.c b with
    | some x => decide (x.num = w.k.num)
    | none => false
  { w with
    s := if mine then w.s.setBank w.c b none else w.s
    k := { w.k with loads := 3, kdone := w.k.kdone || decide (w.k.allTiles ≤ w.k.pos + 1) } }

/-- A forward row tile enters drain; the next one may begin (R190). -/
def W.closeTile (w : W) : W :=
  let r := w.takeOutput
  match r.halt, r.s.bank r.c (r.s.outBank r.c) with
  | .go, some x =>
    let b := r.s.outBank r.c
    ({ r with
      s := (r.s.setBank r.c b (some { x with closed := true })).setDrain r.c b true
      k := { r.k with out := some (r.k.pos, r.k.rows) } }).nextTile
  | _, _ => r

/-- One more key tile has been read; after the last one the row tile enters drain. -/
def W.tileRead (w : W) : W :=
  let r := { w with k := { w.k with sub := w.k.sub + 1 } }
  if r.k.sub < (r.k.keyTiles r.k.curTile).length then r
  else
    let z := r.sweepRead
    if z.k.isBwd then z else let y := z.closeTile; if y.on then y else z

/-- The next key tile of the row tile: a tile with no allowed pair is skipped and counted (R182). -/
def W.keyTile (w : W) : W :=
  let k := w.k
  match (k.keyTiles k.curTile)[k.sub]? with
  | none => w
  | some (e, i) =>
    let t := w.tileReal e i
    let live := k.liveRows e t.1 t.2.1
    let r :=
      if !t.2.2.on then t.2.2
      else if live.isEmpty then { t.2.2 with s := t.2.2.s.bump Fd.cellMaskSkipCnt w.c }
      else
        let w1 := t.2.2.takeScores
        let w2 := if k.isBwd || !w1.on then w1 else w1.takeOutput
        if !w2.on then w2
        else (if k.isBwd then w2.bwdTile e i live else w2.fwdTile e i live).countWiden k.idx.length
    if r.on then r.tileRead else r

/-- The query gradient of a backward row tile is added into its tiles; the next row tile follows (R198). -/
def W.gradStep (w : W) : W :=
  let r := w.finishGrad
  if r.on then r.nextTile else r

/-- Whether a command was stopped. -/
def Cmd.stopped (k : Cmd) : Bool := k.cancelled || k.fault.isSome

/-- The next event of the row tiles of an attention command. -/
def W.attnStep (w : W) : W :=
  let k := w.k
  if k.issued ≠ 1 then w.attnStart
  else if k.allTiles ≤ k.pos then { w with halt := .wait }
  else if k.loads = 0 then w.beginTile
  else if k.loads = 3 then (if k.isBwd then w.gradStep else w.closeTile)
  else if k.sub < (k.keyTiles k.curTile).length then w.keyTile
  else w.sweepRead

/-- A command whose last row tile has been stored has ended; a stopped one, once nothing of it is left in drain (R127, R142). -/
def W.attnSettle (w : W) : W :=
  if w.k.out.isNone && (w.k.stopped || (decide (w.k.issued = 1) && decide (w.k.allTiles ≤ w.k.pos))) && !w.k.finished then w.attnEnd else w

/-- An event of a started attention command; a fault stops it: rows that still accumulate are abandoned, those in drain are stored
(R127). -/
def State.attnTry (s : State) (c n : Nat) (ready : Cmd → Bool) (f : W → W) : State × Bool :=
  match s.cmd c n with
  | none => (s, false)
  | some k =>
    if k.finished || s.cellDead c || !([0x0301, 0x0302, 0x0303].contains k.opcode) || !ready k then (s, false)
    else
      let w := f (W.mk s c k .go)
      match w.halt with
      | .wait => (w.s, false)
      | .go => (w.attnSettle.keep, true)
      | .fault => ((((w.s.putCmd c w.k).stopCmd c w.k false).1.syncMill c), true)

/-- What an attention command can do next: finish a row in drain, else go on with its row tiles, unless it was stopped. -/
def State.attnEvent (s : State) (c n : Nat) : State × Bool :=
  s.firstOf [fun z => z.attnTry c n (fun k => k.out.isSome) W.finishRow, fun z => z.attnTry c n (fun k => !k.stopped) W.attnStep]

/-- Events that an attention command can take at most. -/
def Cmd.attnFuel (k : Cmd) : Nat :=
  (k.rowTiles.foldl (fun n t => n + ((k.keyTiles t).length + t.length + 4)) 0) * k.sweeps + 2

/-- An attention command runs until it ends or has to wait. -/
def State.attnRun (s : State) (c n op : Nat) : State :=
  match s.cmd c n with
  | none => s
  | some k =>
    if k.opcode ≠ op then s
    else
      let s1 := if k.issued = 1 then s else (s.attnTry c n (fun y => !y.stopped) W.attnStart).1
      match s1.cmd c n with
      | none => s1
      | some y => State.steps (fun z => z.attnEvent c n) (if y.issued = 1 then y.attnFuel else 1) s1

/-- ATTN_FWD (R177, R181, R182, R186 to R188, R190, R191). -/
def execAttnFwd (c : Fin 256) (n : Nat) (s : State) : Res := .next (s.attnRun c.val n 0x0301)

/-- ATTN_BWD (R196 to R198, R214). -/
def execAttnBwd (c : Fin 256) (n : Nat) (s : State) : Res := .next (s.attnRun c.val n 0x0302)

/-- ATTN_DECODE (R201). -/
def execAttnDecode (c : Fin 256) (n : Nat) (s : State) : Res := .next (s.attnRun c.val n 0x0303)

/-- KEY_TILE_DRAIN: the next key tile of the row tile drains (R187); a command that has not come so far begins its row tile first. -/
def execKeyTileDrain (c : Fin 256) (n : Nat) (s : State) : Res :=
  let c := c.val
  let early := fun (k : Cmd) => !k.stopped && (decide (k.issued ≠ 1) || (decide (k.loads = 0) && decide (k.pos < k.allTiles)))
  let before := fun (z : State) => (z.attnTry c n early W.attnStep).1
  let there := fun (k : Cmd) => !k.stopped && decide (k.issued = 1) && decide (k.loads = 1 ∨ k.loads = 2) && decide (k.pos < k.allTiles)
  .next ((before (before s)).attnTry c n there (fun w => if w.k.sub < (w.k.keyTiles w.k.curTile).length then w.keyTile else w.sweepRead)).1

/-- ATTN_ROW_FINISH: the next row whose last key tile has drained is finished (R188, R191); a backward row tile adds its query gradient. -/
def execAttnRowFinish (c : Fin 256) (n : Nat) (s : State) : Res :=
  let close := fun (k : Cmd) => !k.stopped && decide (k.issued = 1) && decide (k.loads = 3) && decide (k.pos < k.allTiles) && k.out.isNone
  let s1 := (s.attnTry c.val n close (fun w => if w.k.isBwd then w.gradStep else w.closeTile)).1
  .next (s1.attnTry c.val n (fun k => k.out.isSome) W.finishRow).1

end Sys2Proof.Machine
end

