-- ==== Sys2Proof/Machine/Fabric.lean ====
section
/-! DEFINITION. Scecy: flits and their recovery (R309 to R314), ports (R313, R328), packets and routing (R315 to R320), remote
accesses and their responses (R316, R321, R322). -/

namespace Sys2Proof.Machine

/-! ## Weaver instances (R331, R333)

Their packets meet the router, so that a packet without a port can end one (R320). -/

/-- Whether two instances are the same. -/
def Inst.same (a b : Inst) : Bool := decide (a.t = b.t) && decide (a.ch = b.ch) && decide (a.num = b.num)

/-- The instance of a command. -/
def State.instAt (s : State) (c n : Nat) : Option Inst := s.weav.insts.find? (fun i => decide (i.cell = c) && decide (i.cmd = n))

/-- MODULE.ID of a member. -/
def Inst.module (i : Inst) (j : Nat) : Nat := (i.group.getD j (0, 0)).1

/-- Members other than this one. -/
def Inst.peers (i : Inst) : List Nat := (List.range i.group.length).filter (fun j => decide (j ≠ i.me))

/-- Sending an abort to every other member (R333). -/
def State.sendAborts (s : State) (i : Inst) (code : Code) (cancel : Bool) : State :=
  i.peers.foldl (fun z j => z.sendMsg (i.module j) (.ctl (.abort i.t i.ch i.num code cancel)) none none) s

/-- An instance ends with a fault of its own (R333). -/
def State.failInst (s : State) (i : Inst) (code : Code) : State :=
  let s1 := if code = cEpochMismatch then s.bump Fd.weaverEpochMismatchCnt else s
  (s1.sendAborts i code false).endInsts (fun x => x.same i) (some code) false

/-- The pool of a channel and class (R314). -/
def poolOf (vc dcls : Nat) : Nat := 2 * vc + (if vc = 1 ∨ vc = 3 then dcls else 0)

/-! ## Ports -/

/-- Cycles of a port. -/
def State.portNow (s : State) (p : Nat) : Nat := s.fld (Fd.cycles .scecy) p

/-- Changing a port. -/
def State.onPort (s : State) (p : Nat) (f : PortSt → PortSt) : State := s.setPort p (f (s.port p))

/-- An ACK covers the flits of a channel up to its SEQ (R312). -/
def PortSt.acked (x : PortSt) (vc ack : Nat) : PortSt :=
  let l := x.sentAt vc
  if l.any (fun f => decide (f.seq = ack)) then
    { x with replay := Tab.set (fun _ => []) x.replay vc ((l.dropWhile (fun f => decide (f.seq ≠ ack))).drop 1) }
  else x

/-- Returned credits of a pool; a sender never counts more than the buffer holds (R330). -/
def PortSt.credit (x : PortSt) (pool n : Nat) : PortSt :=
  { x with credits := Tab.set creditInit x.credits pool (min (creditInit pool) (x.creditAt pool + n)) }

/-- A NAK: every unacknowledged flit after its ACK is sent again (R312). -/
def State.nak (s : State) (p vc ack : Nat) : State :=
  if s.healthy p then ((s.onPort p (fun x => x.acked vc ack)).replayFrom p vc 0).pump p else s

/-- Corrected and uncorrectable codewords (R309), and the retrain that 16 of the latter call for (R313). -/
def State.countFec (s : State) (p corrected uncorrectable : Nat) : State :=
  let s1 := (s.bump Fd.scecyFecCeCnt p 0 corrected).bump Fd.scecyFecUeCnt p 0 uncorrectable
  if uncorrectable = 0 then s1
  else
    let now := s1.portNow p
    let x := s1.port p
    let all := x.ues ++ List.replicate (min uncorrectable 16) now
    let l := all.drop (all.length - 16)
    let hot := decide (l.length = 16) && decide (now ≤ l.headD 0 + 2 ^ 20)
    s1.setPort p { x with ues := l, due := x.due || hot }

/-- A flit that is not the next of its channel is discarded; one NAK is sent for a gap, and again after REPLAY_TIMEOUT (R312). -/
def State.gap (s : State) (p vc : Nat) : State :=
  let x := s.port p
  let now := s.portNow p
  let at_ := Tab.get (fun _ => 0) x.nakAt vc
  if at_ ≠ 0 ∧ now < at_ - 1 + max 1 (s.fld Fd.scecyCtrlReplayTimeout p) then s
  else (s.setPort p { x with nakAt := Tab.set (fun _ => 0) x.nakAt vc (now + 1) }).emitFlit p vc ⟨0, 5, 0, [], 0, 0⟩

/-- The packet whose flits are arriving in a pool of a port. -/
def State.arriving (s : State) (p pool : Nat) : Option Transit :=
  s.fab.transit.find? (fun t => decide (t.port = some p) && decide (t.pool = pool) && !t.whole)

/-- A packet for this module is whole. Collective, multicast and CONTROL packets arrive as commands of their own (log entry 30). -/
def State.deliver (s : State) (t : Transit) : State :=
  let p := Packet.ofBytes t.got.flatten
  let s1 := s.dropPacket t.id
  if p.op < 4 then { s1 with fab := { s1.fab with arrived := s1.fab.arrived ++ [p] } } else s1

/-- A packet is dropped: its buffers are free, and what is still to come of it is discarded. -/
def State.dropTransit (s : State) (t : Transit) : State :=
  let s1 := s.owe t.port t.pool t.bodies.length
  let s2 := if t.whole then s1.dropPacket t.id else s1.putPacket { t with drop := true, bodies := [], out := none }
  match t.port with
  | some p => s2.sendOwed p
  | none => s2

/-- The next flit of a packet that is arriving: it moves on where the packet has its port; where the packet is for this module or is
dropped, its buffer is free at once. -/
def State.joinFlit (s : State) (t : Transit) (kind : Nat) (body : List Byte) : State :=
  let ends := decide (kind = 3)
  if t.here then
    let u := { t with got := t.got ++ [body], whole := ends }
    let s1 := s.owe t.port t.pool 1
    if ends then s1.deliver u else s1.putPacket u
  else if t.drop then
    let s1 := s.owe t.port t.pool 1
    if ends then s1.dropPacket t.id else s1
  else
    let s1 := s.putPacket { t with bodies := t.bodies ++ [(kind, body)], whole := ends }
    match t.out with
    | some o => s1.pump o.1
    | none => s1

/-- The first flit of a packet, with its header, enters the router (R315). A packet before it in its pool that has had no last flit is
dropped (log entry 67). -/
def State.firstFlit (s : State) (p vc dcls kind : Nat) (body : List Byte) : State :=
  let pool := poolOf vc dcls
  let s1 := match s.arriving p pool with
    | some t => (s.owe t.port t.pool t.bodies.length).dropPacket t.id
    | none => s
  let t : Transit := {
    id := s1.fab.nextId, pkt := { Packet.ofBytes body with data := [] }, port := some p, vc, dcls, pool, bodies := [(kind, body)]
    whole := decide (kind = 4), moved := false, entry := none, esc := false, out := none, here := false, got := [], drop := false
    via := none, cmd := none }
  { s1 with fab := { s1.fab with transit := s1.fab.transit ++ [t], nextId := s1.fab.nextId + 1 } }

/-- An accepted flit (R312): it begins a packet or joins the one that is arriving; without one it is discarded. -/
def State.acceptFlit (s : State) (p vc dcls seq kind : Nat) (body : List Byte) : State :=
  let pool := poolOf vc dcls
  let x := s.port p
  let y := { x with
    lastSeq := Tab.set (fun _ => 4095) x.lastSeq vc seq
    nakAt := Tab.set (fun _ => 0) x.nakAt vc 0 }
  let s1 := (s.setPort p y).bump Fd.scecyRxFlits p
  let s2 := if kind = 1 ∨ kind = 4 then s1.firstFlit p vc dcls kind body
    else match s1.arriving p pool with
      | some t => s1.joinFlit t kind body
      | none => s1.owe (some p) pool 1
  s2.sendIdle p vc

/-- A flit that arrives on a port that is UP (R309 to R312): one with a byte in a codeword that could not be corrected is
discarded; the codewords that end with it are counted. -/
def State.takeFlit (s : State) (p : Nat) (bytes : List Byte) (corrected : Nat) (uncorrectable : FecLoss) : State :=
  let s1 := s.countFec p corrected uncorrectable.words
  let h := fieldB bytes 0 6
  let kind := bitsOf h 30 28
  let crcOk := decide (bytes.length = 256) && decide (crc16 (sliceB bytes 0 254) = ofBe (sliceB bytes 254 2))
  if uncorrectable.here || !crcOk || decide (6 ≤ kind) then s1.bump Fd.scecyCrcErrCnt p
  else
    let vc := bitsOf h 25 24
    let dcls := if vc = 1 ∨ vc = 3 then bitsOf h 41 41 else 0
    let ackVc := bitsOf h 27 26
    let ack := bitsOf h 23 12
    let crVc := bitsOf h 32 31
    let s2 := (s1.onPort p (fun x => (x.acked ackVc ack).credit (poolOf crVc (bitsOf h 41 41)) (bitsOf h 40 33))).pump p
    if kind = 0 then s2
    else if kind = 5 then s2.nak p ackVc ack
    else
      let seq := bitsOf h 11 0
      if seq = ((s2.port p).lastAt vc + 1) % 4096 then s2.acceptFlit p vc dcls seq kind (sliceB bytes 6 248) else s2.gap p vc

/-- FLIT_RECEIVE: a port receives a flit (R309 to R314). -/
def execFlitReceive (p : Fin 24) (bytes : List (BitVec 8)) (corrected : Nat) (uncorrectable : FecLoss) (s : State) : Res :=
  .next (if s.healthy p.val then s.takeFlit p.val bytes corrected uncorrectable else s)

/-- NAK_RECEIVE: a NAK with its ACK on a channel (R312). -/
def execNakReceive (p : Fin 24) (vc : Fin 4) (ack : BitVec 12) (s : State) : Res := .next (s.nak p.val vc.val ack.toNat)

/-- REPLAY_TIMEOUT: the oldest unacknowledged flit has waited REPLAY_TIMEOUT port cycles (R312). -/
def execReplayTimeout (p : Fin 24) (vc : Fin 4) (s : State) : Res :=
  .next (if s.healthy p.val && !((s.port p.val).sentAt vc.val).isEmpty then s.replayFrom p.val vc.val 0 else s)

/-- PORT_RETRAIN: a retrain that is called for begins (R313). -/
def execPortRetrain (p : Fin 24) (s : State) : Res :=
  .next (if (s.port p.val).due && s.healthy p.val then
    ((s.onPort p.val (fun x => { x with due := false, retraining := true, ues := [] })).bump Fd.scecyRetrainCnt p.val).setLink p.val 1
  else s)

/-- A retrain that succeeded: the port is UP and replays what is not acknowledged (R313). -/
def State.retrained (s : State) (p : Nat) : State :=
  let s1 := (s.onPort p (fun x => { x with retraining := false, fails := 0 })).setLink p 2
  let s2 := (List.range 4).foldl (fun z vc => z.replayFrom p vc 0) s1
  (s2.onPort p (fun x => { x with due := false, replay := x.replay.map (fun e => (e.1, e.2.map (fun f => { f with tries := 0 }))) })).pump p

/-- RETRAIN_DONE: a retrain ends; after RETRAIN_LIMIT failures in a row the port goes DOWN, else the next retrain follows
(R313). -/
def execRetrainDone (p : Fin 24) (ok : Bool) (s : State) : Res :=
  .next (if !(s.port p.val).retraining then s
    else if ok then s.retrained p.val
    else
      let n := (s.port p.val).fails + 1
      if max 1 (s.fld Fd.scecyCtrlRetrainLimit p.val) ≤ n then s.dropPort p.val 0
      else (s.onPort p.val (fun x => { x with fails := n })).bump Fd.scecyRetrainCnt p.val)

/-- PORT_DOWN: a port loses a lane (R313). -/
def execPortDown (p : Fin 24) (s : State) : Res :=
  .next (if s.link p.val = 1 ∨ s.link p.val = 2 then s.dropPort p.val 0 else s)

/-- PORT_TRAINED: training ends, the partner is known and the port is UP (R328). -/
def execPortTrained (p : Fin 24) (partnerMod : BitVec 16) (partnerPort : BitVec 5) (s : State) : Res :=
  .next (if s.link p.val = 1 && !(s.port p.val).retraining && !s.inReset .scecy p.val then
    ((s.setLink p.val 2).setFld Fd.scecyStatePartnerMod p.val 0 partnerMod.toNat).setFld Fd.scecyStatePartnerPort p.val 0 partnerPort.toNat
  else s)

/-! ## Responses -/

/-- Changing the transfer that a remote access serves. -/
def State.onXfer (s : State) (c n u : Nat) (f : Xfer → Xfer) : State :=
  s.onCell c (fun x => { x with xfers := x.xfers.map (fun y => if y.num = n ∧ y.unit = u then f y else y) })

/-- Replacing one piece of a transfer. -/
def Xfer.setPiece (x : Xfer) (p : Nat) (bs : List Byte) : Xfer :=
  { x with pieces := x.pieces.set p ((x.pieces.getD p (0, [])).1, bs) }

/-- What came back for a read: a refused piece ends the transfer there (R144, R316). -/
def Xfer.answered (x : Xfer) (p : Nat) (bs : List Byte) (fault : Option Code) : Xfer :=
  let y := x.setPiece p bs
  match fault with
  | none => y
  | some f => { y with pieces := y.pieces.take (p + 1), fault := x.fault <|> some f }

/-- The end of a remote access: data or acknowledged bytes, and a fault (R144, R316, R322). -/
def State.endRemote (s : State) (a : RemAcc) (bs : Option (List Byte)) (len : Nat) (fault : Option Code) : State :=
  let s1 := { s with fab := { s.fab with outstanding := s.fab.outstanding.erase a } }
  match a.kind with
  | .fetch c n u p =>
    -- data for a transfer that was stopped is discarded (R118, R142)
    if (s1.cell c).xfers.any (fun x => decide (x.num = n) && decide (x.unit = u)) then s1.onXfer c n u (fun x => x.answered p (bs.getD []) fault)
    else s1.dropBytes c n (bs.getD []).length
  | .store c n u p =>
    match fault with
    | none => s1
    | some f =>
      let s2 := s1.onXfer c n u (fun x => x.setPiece p ((x.pieces.getD p (0, [])).2.take len))
      (match s2.cmd c n with
        | some k => s2.putCmd c (k.report f)
        | none => s2)

/-- The outstanding access with a tag. -/
def State.byTag (s : State) (tag : Nat) : Option RemAcc := s.fab.outstanding.find? (fun a => decide (a.tag = tag))

/-- A packet injected here finds no usable port: its command ends with ROUTE_UNREACHABLE (R320). -/
def State.unreachable (s : State) (t : Transit) : State :=
  if t.pkt.op = 0 ∨ t.pkt.op = 1 then
    match s.byTag t.pkt.tag with
    | some a => s.endRemote a none 0 (some cRouteUnreachable)
    | none => s
  else
    match t.cmd with
    | some cn => (match s.instAt cn.1 cn.2 with
      | some i => s.failInst i cRouteUnreachable
      | none => s)
    | none => s

/-! ## Routing -/

/-- The table entry of a packet (R317). -/
def State.routeEntry (s : State) (dst : Nat) : BitVec 64 :=
  let id := s.moduleId
  BitVec.ofNat 64 (if dst / 256 ≠ id / 256 then s.fld Fd.fabGroupTbl 0 (dst / 256) + 2 ^ 63 * s.fld Fd.fabGroupTblValid 0 (dst / 256)
    else s.fld Fd.fabMemberTbl 0 (dst % 256) + 2 ^ 63 * s.fld Fd.fabMemberTblValid 0 (dst % 256))

/-- Placing a packet on a port (R312, R314). -/
def State.putOn (s : State) (t : Transit) (p vc dcls : Nat) : State :=
  let pool := poolOf vc dcls
  ((s.putPacket { t with out := some (p, vc, dcls) }).onPort p (fun x =>
    { x with waiting := Tab.set (fun _ => []) x.waiting pool (x.placedAt pool ++ [t.id]) })).pump p

/-- A packet with no usable port is dropped and counted (R320). -/
def State.noRoute (s : State) (t : Transit) : State :=
  let s1 := (s.dropTransit t).bump Fd.fabNorouteCnt
  if t.port.isNone then s1.unreachable t else s1

/-- Healthy ports among some (R320). -/
def State.healthyOf (s : State) (ps : List Nat) : List Nat := ps.filter s.healthy

/-- The port with the most credits in a pool, the lower winning a tie (R318). -/
def State.mostCredits (s : State) (pool : Nat) (ps : List Nat) : Option Nat :=
  ps.foldl (fun (b : Option Nat) p =>
    if (s.port p).creditAt pool = 0 then b
    else
      match b with
      | none => some p
      | some q => if (s.port q).creditAt pool < (s.port p).creditAt pool then some p else b) none

/-- Dimension order (R318): the next hop of a packet on the escape or the response channel. -/
def State.routeOrdered (s : State) (t : Transit) (e vc : Nat) (wasOrdered : Bool) : State :=
  let dir := bitsOf e 26 24
  let ports := s.healthyOf ((List.range 4).map (fun j => 4 * dir + j))
  if 6 ≤ dir ∨ ports = [] then s.noRoute t
  else
    -- a packet that does not turn keeps its class
    let straight := wasOrdered && (match t.port with
      | some q => decide (q / 4 % 3 = dir % 3)
      | none => false)
    let dcls := if e.testBit 27 then 1 else if straight then t.dcls else 0
    match ports.find? (fun p => decide (0 < (s.port p).creditAt (poolOf vc dcls))) with
    | some p => s.putOn t p vc dcls
    | none => s

/-- A packet moves on by its entry (R318): with expired, no ADAPT port has had a credit for ESCAPE_WAIT. Once it has left the adaptive
channels it does not return to them. -/
def State.routeBy (s : State) (t : Transit) (e : Nat) (expired : Bool) : State :=
  if !e.testBit 63 then s.noRoute t
  else if t.vc = 1 ∨ t.vc = 3 then s.routeOrdered t e t.vc true
  else
    let ports := s.healthyOf ((List.range 24).filter (fun p => e.testBit p))
    match t.esc, s.mostCredits (2 * t.vc) ports with
    | false, some p => s.putOn t p t.vc 0
    | false, none =>
      if expired || ports.isEmpty then
        let u := { t with esc := true }
        (s.putPacket u).routeOrdered u e 3 false
      else s
    | true, _ => s.routeOrdered t e 3 false

/-- A packet in the router that has no port yet: delivered here, dropped, or moved on; its entry is read once (R315, R317 to R319). A
relay to a direct neighbour goes by its port (R429). -/
def State.routePacket (s : State) (i : Nat) (expired : Bool) : State :=
  match s.fab.transit[i]? with
  | none => s
  | some t =>
    let p := t.pkt
    if t.out.isSome || t.here || t.drop then s
    else if 8 ≤ p.op then (s.dropTransit t).bump Fd.fabAgeDropCnt
    else if p.dst = s.moduleId then
      let u := { t with here := true, got := t.bodies.map Prod.snd, bodies := [] }
      let s1 := s.owe t.port t.pool t.bodies.length
      let s2 := if t.whole then s1.deliver u else s1.putPacket u
      (match t.port with
        | some q => s2.sendOwed q
        | none => s2)
    else if t.port.isSome && decide (255 ≤ p.hops) then (s.dropTransit t).bump Fd.fabAgeDropCnt
    else
      match t.via with
      | some q => if s.healthy q then s.putOn t q t.vc 0 else s.noRoute t
      | none =>
        let e := t.entry.getD (s.routeEntry p.dst)
        let u := { t with entry := some e }
        (s.putPacket u).routeBy u e.toNat expired

/-- PACKET_ROUTE: a packet is routed (R317 to R320). -/
def execPacketRoute (i : Nat) (s : State) : Res := .next (s.routePacket i false)

/-- ESCAPE_WAIT_EXPIRY: a packet on an adaptive channel found no credit for ESCAPE_WAIT cycles (R318). -/
def execEscapeWaitExpiry (i : Nat) (s : State) : Res := .next (s.routePacket i true)

/-! ## Remote accesses -/

/-- Taking a packet that was delivered here, of one OP. -/
def State.takeArrived (s : State) (i op : Nat) (f : State → Packet → State) : State :=
  match s.fab.arrived[i]? with
  | none => s
  | some p =>
    if p.op ≠ op then s else f { s with fab := { s.fab with arrived := s.fab.arrived.eraseIdx i } } p

/-- What a remote access carries at its target (R281, R316). -/
def Packet.ctx (p : Packet) : Ctx := ⟨.tenant ⟨p.tenant % 16, Nat.mod_lt _ (by decide)⟩, none, none, none, none⟩

/-- Answering a request: the fault of a refused access stands in ADDR (log entry 18). -/
def State.answer (s : State) (p : Packet) (op len : Nat) (data : List Byte) (fault : Option Code) : State :=
  s.inject 1 ⟨p.src, s.moduleId, p.tenant, op, 0, p.tag, (fault.getD 0).toNat, len, data⟩ none none

/-- Answering a request once it has been performed; one that has to wait at its target stays (R361, R367). -/
def State.serve (s : State) (g : Got) (p : Packet) (op : Nat) (data : List Byte) : State :=
  if g.wait then { g.st with fab := { g.st.fab with arrived := s.fab.arrived } } else g.st.answer p op g.bytes.length data g.fault

/-- READ_REQ: a read is checked and served at its target (R281, R316). -/
def execReadReq (i : Nat) (s : State) : Res :=
  .next (s.takeArrived i 0 (fun z p =>
    let g := (z.slicesBefore p.addr p.len).globalRead p.ctx p.addr p.len
    s.serve g p 2 g.bytes))

/-- WRITE: a write is checked and performed at its target (R281, R316). -/
def execWrite (i : Nat) (s : State) : Res :=
  .next (s.takeArrived i 1 (fun z p =>
    let g := (z.slicesBefore p.addr p.data.length).globalWrite p.ctx p.addr p.data
    s.serve g p 3 []))

/-- The fault that a response carries. -/
def Packet.fault (p : Packet) : Option Code := if p.addr % 2 ^ 16 = 0 then none else some (BitVec.ofNat 16 p.addr)

/-- READ_RESP: data returns to its requester; a response without a request is dropped (R316, R322). -/
def execReadResp (i : Nat) (s : State) : Res :=
  .next (s.takeArrived i 2 (fun z p => match z.byTag p.tag with
    | some a => (match a.kind with
      | .fetch _ _ _ _ => z.endRemote a (some p.data) p.len p.fault
      | .store _ _ _ _ => z)
    | none => z))

/-- WRITE_ACK: a write is acknowledged to its requester (R316, R322). -/
def execWriteAck (i : Nat) (s : State) : Res :=
  .next (s.takeArrived i 3 (fun z p => match z.byTag p.tag with
    | some a => (match a.kind with
      | .store _ _ _ _ => z.endRemote a none p.len p.fault
      | .fetch _ _ _ _ => z)
    | none => z))

/-- RESP_TIMEOUT: a remote access without a response ends its command with LINK_DOWN (R322). -/
def execRespTimeout (tag : BitVec 16) (s : State) : Res :=
  .next (match s.byTag tag.toNat with
    | some a => (s.endRemote a none 0 (some cLinkDown)).bump Fd.fabTimeoutCnt
    | none => s)

end Sys2Proof.Machine
end

