-- ==== Sys2Proof/Machine/Weaver.lean ====
section
/-! DEFINITION. The Weaver: groups and the order of combination (R334, R335), instances, grants and aborts (R331 to R333, R336),
REDUCE (R337 to R345), VOTE (R346), GATHER (R347 to R349), PERMUTE (R350 to R352), MCAST (R323, R324, R353, R354). -/

namespace Sys2Proof.Machine

/-! ## The order of combination (R335) -/

/-- Trays of a group: first index and members, in table order. -/
def traysOf (g : List (Nat × Nat)) : List (Nat × Nat) :=
  (((List.range g.length).zip g).foldl (fun (acc : List (Nat × Nat × Nat)) (x : Nat × Nat × Nat) =>
    match acc with
    | (start, n, tray) :: rest => if tray = x.2.2 ∧ n < 8 then (start, n + 1, tray) :: rest else (x.1, 1, x.2.2) :: acc
    | [] => [(x.1, 1, x.2.2)]) []).reverse.map (fun y => (y.1, y.2.1))

/-- The position that holds the partial of the positions from b on, 2^k of them, on its way to position p of a tray of m. -/
def holder (m p : Nat) : Nat → Nat → Nat
  | 0, b => b
  | k + 1, b =>
    if b + 2 ^ k < m ∧ p / 2 ^ k % 2 = 1 then holder m p k (b + 2 ^ k) else holder m p k b

/-- The hops inside a tray of m members from an index on, towards position p: stage, sender, receiver. -/
def trayEdges (start m p : Nat) : List (Nat × Nat × Nat) :=
  [1, 2, 3].flatMap (fun k =>
    let h := 2 ^ (k - 1)
    (List.range (8 / (2 * h))).filterMap (fun i =>
      let b := 2 * h * i
      if b + h < m then
        let x := holder m p (k - 1) b
        let y := holder m p (k - 1) (b + h)
        some (if p / h % 2 = 0 then (k, start + y, start + x) else (k, start + x, start + y))
      else none))

/-- The tray that holds an index. -/
def trayOf (ts : List (Nat × Nat)) (j : Nat) : Nat :=
  ts.findIdx (fun x => decide (x.1 ≤ j) && decide (j < x.1 + x.2))

/-- Where the partial of shard j ends in a tray. -/
def trayEnd (x : Nat × Nat) (j : Nat) : Nat := x.1 + j % max 1 x.2

/-- Every hop of the combination for shard j: stage, sender, receiver. -/
def hops (g : List (Nat × Nat)) (j : Nat) : List (Nat × Nat × Nat) :=
  let ts := traysOf g
  let n := ts.length
  let own := trayOf ts j
  let at_ := fun (i : Nat) => trayEnd (ts.getD (i % max 1 n) (0, 1)) j
  ts.flatMap (fun x => trayEdges x.1 x.2 (j % max 1 x.2)) ++
    (List.range (n - 1)).map (fun h => (4 + h, at_ (own + 1 + h), at_ (own + 2 + h))) ++
    (if at_ own = j then [] else [(4 + (n - 1), at_ own, j)])

/-- The hop by which a member passes its partial on. -/
def outHop (es : List (Nat × Nat × Nat)) (x : Nat) : Option (Nat × Nat × Nat) := es.find? (fun e => decide (e.2.1 = x))

/-- The hops whose partials a member adds to its own: those of a stage before it passes its own on. -/
def inHops (es : List (Nat × Nat × Nat)) (x : Nat) : List (Nat × Nat × Nat) :=
  es.filter (fun e => decide (e.2.2 = x) && (match outHop es x with
    | some o => decide (e.1 < o.1)
    | none => true))

/-- The hop that delivers a finished shard to its member, where there is one. -/
def deliveryHop (g : List (Nat × Nat)) (j : Nat) : Option (Nat × Nat × Nat) :=
  (hops g j).find? (fun e => decide (e.1 = 4 + ((traysOf g).length - 1)) && decide (e.2.2 = j))

/-! ## Instances -/

/-- The instance with a number on a channel. -/
def State.instOf (s : State) (t ch : Fin 16) (num : Nat) : Option Inst :=
  s.weav.insts.find? (fun i => decide (i.t = t) && decide (i.ch = ch) && decide (i.num = num))

/-- Replacing an instance. -/
def State.putInst (s : State) (i : Inst) : State :=
  { s with weav := { s.weav with insts := s.weav.insts.map (fun x => if x.same i then i else x) } }

/-- The layout epoch of a tenant (R336). -/
def State.layoutEpoch (s : State) (t : Fin 16) : Nat := s.fld Fd.weaverLayoutEpoch 0 t.val

/-- An instance that is done: its command has ended. -/
def State.endInst (s : State) (i : Inst) : State := s.endInsts (fun x => x.same i) none false

/-- Sending to a member: held until its grant has come (R332). -/
def State.sendTo (s : State) (i : Inst) (dst : Nat) (m : Msg) : State × Inst :=
  if i.grants.contains dst then (s.sendMsg (i.module dst) m none (some (i.cell, i.cmd)), i) else (s, { i with held := i.held ++ [(dst, m)] })

/-- What a step of an instance works on: its command at work, and the instance. -/
structure WI where
  w : W
  i : Inst
  deriving DecidableEq, Repr

/-- Sending from inside a step. -/
def WI.send (x : WI) (dst stage : Nat) (b : CollPart) : WI :=
  let m : CollMsg := ⟨x.i.me, x.i.t, x.i.ch, x.i.num, BitVec.ofNat 32 x.i.epoch, stage, b⟩
  let r := x.w.s.sendTo x.i dst (.coll m)
  ⟨{ x.w with s := r.1 }, r.2⟩

/-- Going to a phase. -/
def WI.phase (x : WI) (n : Nat) : WI := { x with i := { x.i with phase := n } }

/-- The ends of a step: waiting, a fault that ends the instance, or on. A step that can wait sends nothing before it goes on. -/
def WI.commit (x : WI) (i : Inst) : State × Bool :=
  match x.w.halt with
  | .wait => (x.w.s, false)
  | .fault => (((x.w.s.putCmd x.w.c x.w.k).failInst i (x.w.k.fault.getD cLinkDown)), true)
  | .go => ((x.w.s.putCmd x.w.c x.w.k).putInst x.i, true)

/-- The end of the whole instance from inside a step. -/
def WI.done (x : WI) (i : Inst) : State × Bool :=
  match x.w.halt with
  | .go => ((x.w.s.putCmd x.w.c x.w.k).endInst x.i, true)
  | _ => x.commit i

/-! ## Beginning (R334, R336, R342) -/

/-- Whether a REDUCE is thinned out (R342). -/
def Cmd.thinned (k : Cmd) : Bool := decide (k.opcode = 0x0601) && decide ((k.u 28 4 + 1) % 2 ^ 32 % (k.u 50 1 + 1) ≠ 0)

/-- Commands whose length or count is zero: nothing is exchanged (R144, R357). -/
def Cmd.weavesNothing (k : Cmd) : Bool :=
  match k.opcode with
  | 0x0601 => decide (k.u 32 5 = 0 ∨ k.u 40 5 = 0)
  | 0x0602 => decide (k.u 32 5 = 0)
  | 0x0604 => decide (k.u 32 5 = 0)
  | 0x0605 => decide (k.u 32 4 = 0)
  | _ => false

/-- A PERMUTE that only sets the epoch (R351). -/
def Cmd.movesNone (k : Cmd) : Bool := decide (k.opcode = 0x0603) && decide (k.u 32 4 = 0)

/-- The group table of a command (R334). -/
def W.readGroup (w : W) : List (Nat × Nat) × W :=
  let h := w.read (w.k.addr 16) 8
  let n := min 65536 (fieldB h.1 0 4)
  let r := h.2.read ((w.k.addr 16 + 8) % 2 ^ 48) (8 * n)
  ((List.range n).map (fun j => (fieldB r.1 (8 * j) 2, fieldB r.1 (8 * j + 2) 2)), r.2)

/-- Granting credits to every other member (R332). -/
def State.sendGrants (s : State) (i : Inst) : State :=
  i.peers.foldl (fun z j => z.sendMsg (i.module j) (.grant i.t i.ch i.num i.me (BitVec.ofNat 16 i.opcode)) none (some (i.cell, i.cmd))) s

/-- A grant that names the instance: dropped and counted where its opcode differs (R332). -/
def WI.takeGrant (x : WI) (member : Nat) (opcode : BitVec 16) : WI :=
  if opcode.toNat ≠ x.i.opcode then { x with w := { x.w with s := x.w.s.bump Fd.weaverSeqMismatchCnt } }
  else
    let out := x.i.held.filter (fun h => decide (h.1 = member))
    ⟨{ x.w with s := out.foldl (fun z h => z.sendMsg (x.i.module member) h.2 none (some (x.i.cell, x.i.cmd))) x.w.s },
      { x.i with grants := member :: x.i.grants.filter (fun m => decide (m ≠ member)), held := x.i.held.filter (fun h => decide (h.1 ≠ member)) }⟩

/-- Grants that came before the instance was there. -/
def WI.takeEarly (x : WI) : WI :=
  let mine := fun (e : Fin 16 × Fin 16 × Nat × Nat × BitVec 16) => decide (e.1 = x.i.t) && decide (e.2.1 = x.i.ch) && decide (e.2.2.1 = x.i.num)
  let s := x.w.s
  let s1 := { s with weav := { s.weav with early := s.weav.early.filter (fun e => !mine e) } }
  (s.weav.early.filter mine).foldl (fun z e => z.takeGrant e.2.2.2.1 e.2.2.2.2) { x with w := { x.w with s := s1 } }

/-- An instance begins: its group is read and checked, its epoch is checked, credits are granted (R332, R334, R336). -/
def WI.begin (x : WI) : State × Bool :=
  let g := x.w.readGroup
  if !g.2.on then (⟨g.2, x.i⟩ : WI).commit x.i
  else
    let id := g.2.s.moduleId
    let i := { x.i with group := g.1, me := g.1.findIdx (fun e => decide (e.1 = id)), phase := 1 }
    if g.1 = [] then (⟨g.2, i⟩ : WI).done x.i
    else if g.1.all (fun e => decide (e.1 ≠ id)) then (⟨g.2.fail cRouteUnreachable, i⟩ : WI).commit i
    else if i.epoch ≠ g.2.s.layoutEpoch i.t then (⟨g.2.fail cEpochMismatch, i⟩ : WI).commit i
    else if g.2.k.thinned || g.2.k.weavesNothing then (⟨g.2, i⟩ : WI).done x.i
    else if g.2.k.movesNone then (⟨g.2, i⟩ : WI).commit i
    else
      ((⟨{ g.2 with s := g.2.s.sendGrants i }, i⟩ : WI).takeEarly).commit i

/-! ## Votes along the tree of shard 0 -/

/-- Children and parent of this member on the way of shard 0: stage and member. -/
def Inst.below (i : Inst) : List (Nat × Nat) := (inHops (hops i.group 0) i.me).map (fun e => (e.1, e.2.1))
def Inst.above (i : Inst) : Option (Nat × Nat) := (outHop (hops i.group 0) i.me).map (fun e => (e.1, e.2.2))

/-- The key of a vote's arrival. -/
def voteShard : Nat := 2 ^ 32

/-- Whether every vote from below has come. -/
def Inst.votesIn (i : Inst) : Bool := i.below.all (fun e => i.got.contains (e.1, voteShard, e.2))

/-- Noting a vote from below. -/
def Inst.noteVote (i : Inst) (m : CollMsg) : Inst := { i with got := i.got ++ [(m.stage, voteShard, m.sender)] }

/-- Sending the result back along the paths on which the values came (R335). -/
def WI.sendBelow (x : WI) (b : CollPart) : WI := x.i.below.foldl (fun z e => z.send e.2 e.1 b) x

/-- In phase 2: passing the combined value up, or, at the end of the way, making it the result. -/
def WI.passVote (x : WI) (up down : CollPart) : WI :=
  if !x.i.votesIn then x
  else
    match x.i.above with
    | some e => (x.send e.2 e.1 up).phase 3
    | none => (x.sendBelow down).phase 4

/-- Combining two lists element by element. -/
def zipMax (a b : List Int) : List Int := (a.zip b).map (fun p => max p.1 p.2)

/-- The operations of a VOTE (R346). -/
def voteOp (op : Nat) (a b : BitVec 64) : BitVec 64 :=
  match op with
  | 0 => a &&& b
  | 1 => a ||| b
  | 2 => if a.toInt < b.toInt then b else a
  | _ => if a.toInt < b.toInt then a else b

/-- Combining readiness by AND and causes by OR (R366). -/
def combineVotes (a b : List Bool) : List Bool :=
  [a.getD 0 false && b.getD 0 false, a.getD 1 false || b.getD 1 false, a.getD 2 false || b.getD 2 false]

/-! ## REDUCE (R337 to R345) -/

/-- Elements, shard size, and blocks of a REDUCE. -/
def Cmd.redCount (k : Cmd) : Nat := k.u 32 5
def Cmd.redShard (k : Cmd) : Nat := k.u 40 5
def Cmd.redBlocks (k : Cmd) : Nat := ceilDiv k.redCount 4096

/-- A source element: sign, magnitude and exponent of two; none: NaR. -/
def srcTill (x e : Int) : Option (Bool × Nat × Int) := if e = till48Nar then none else some (decide (e < 0), e.natAbs, x)
def srcFp (w : Word) : Option (Bool × Nat × Int) :=
  match fpDecode w with
  | .fin neg mag => some (neg, mag, -149)
  | _ => none

/-- The elements of block b of local source j (R338). -/
def W.redRead (w : W) (j b : Nat) : List (Option (Bool × Nat × Int)) × W :=
  let k := w.k
  let base := (k.addr 56 + j * k.u 52 4) % 2 ^ 48
  let n := min 4096 (k.redCount - 4096 * b)
  if (k.u 48 1).testBit 0 then
    let r := w.read ((base + 16384 * b) % 2 ^ 48) (4 * n)
    ((cutBy 4 n r.1).map (fun x => srcFp (BitVec.ofNat 32 (ofLe x))), r.2)
  else
    let x := w.read ((base + b / 4) % 2 ^ 48) 1
    let r := x.2.read ((tileElems base (b / 4) + 6 * (4096 * (b % 4))) % 2 ^ 48) (6 * n)
    ((cutBy 6 n r.1).map (fun y => srcTill (expByte (x.1.getD 0 0)) (toSigned 48 (ofLe y))), r.2)

/-- Local sources. -/
def Cmd.redSources (k : Cmd) : Nat := k.u 51 1 % 8 + 1

/-- The elements of a block in every local source. -/
def W.redBlock (w : W) (b : Nat) : List (List (Option (Bool × Nat × Int))) × W :=
  (List.range w.k.redSources).foldl (fun (acc : List (List (Option (Bool × Nat × Int))) × W) j =>
    let r := acc.2.redRead j b
    (acc.1 ++ [r.1], r.2)) ([], w)

/-- The proposal of one element (R339). -/
def elemProposal : Option (Bool × Nat × Int) → Int
  | some (_, m, e) => if m = 0 then -32768 else (Nat.log2 m : Int) + e + 1
  | none => -32768

/-- The proposal of a block, and whether a source element is NaR or too large for a given exponent (R339). -/
def blockProposal (given : Option Int) (xs : List (Option (Bool × Nat × Int))) : Int × Bool :=
  (xs.foldl (fun m x => max m (elemProposal x)) (-32768),
    xs.any (fun x => match x with
      | none => true
      | some (neg, m, e) => (match given with
        | some s => (quant24 neg m e s).2
        | none => false)))

/-- Phase 1 of a REDUCE at this member: its proposals and its flag (R339). -/
def WI.redOwn (x : WI) : WI :=
  let given := x.w.k.bit 48 1
  let n := x.w.k.redBlocks
  let e := if given then x.w.read (x.w.k.addr 64) (2 * n) else ([], x.w)
  let exps := (List.range n).map (fun b => toSigned 16 (fieldB e.1 (2 * b) 2))
  let r := (List.range n).foldl (fun (acc : List Int × Bool × W) b =>
    let y := acc.2.2.redBlock b
    let p := blockProposal (if given then some (exps.getD b 0) else none) y.1.flatten
    (acc.1 ++ [p.1], acc.2.1 || p.2, y.2)) ([], false, e.2)
  if r.2.2.on then ⟨r.2.2, { x.i with exps := if given then exps else r.1, flag := r.2.1, phase := 2 }⟩ else ⟨r.2.2, x.i⟩

/-- First and last element of shard j inside block b. -/
def Cmd.redRange (k : Cmd) (j b : Nat) : Nat × Nat :=
  (max (j * k.redShard) (4096 * b), min (min ((j + 1) * k.redShard) k.redCount) (4096 * (b + 1)))

/-- The blocks of shard j. -/
def Cmd.redShardBlocks (k : Cmd) (j : Nat) : List Nat :=
  (List.range k.redBlocks).filter (fun b => decide ((k.redRange j b).1 < (k.redRange j b).2))

def partKey (j b : Nat) : Nat := 2 ^ 32 * j + b

/-- Checksum of the part of block b that begins at an element (R344). -/
def partCsum (b lo : Nat) (xs : List Int) : Nat := blockCsum b (List.replicate (lo - 4096 * b) 0 ++ xs)

/-- Saturation at INT40, with its count (R340). -/
def sat40 (x : Int) : Int × Nat := if x < -2 ^ 39 then (-2 ^ 39, 1) else if 2 ^ 39 - 1 < x then (2 ^ 39 - 1, 1) else (x, 0)

/-- Adding values and a carried sum to the partial of a shard and block: a partial is INT40, the final sum of a shard, which the last
addition at its member forms, INT64 (R340). -/
def WI.addPart (x : WI) (j b : Nat) (xs : List Int) (csum : Nat) (last : Bool) : WI :=
  let old := Tab.get (fun _ => ([], 0)) x.i.part (partKey j b)
  let sums := if old.1 = [] then xs else (old.1.zip xs).map (fun p => p.1 + p.2)
  let cut := sums.map (fun v => if last then (v, 0) else sat40 v)
  ⟨x.w.count ⟨(cut.map (fun c => c.2)).foldl (· + ·) 0, 0, 0, 0⟩,
    { x.i with part := Tab.set (fun _ => ([], 0)) x.i.part (partKey j b) (cut.map (fun c => c.1), (old.2 + csum) % csumP) }⟩

/-- Whether this member is where the partial of shard j ends. -/
def Inst.ends (i : Inst) (j : Nat) : Bool := (outHop (hops i.group j) i.me).isNone

/-- The contribution of this member to block b: every source quantised and summed in source order (R340). -/
def WI.redQuant (x : WI) (b : Nat) : List Int × WI :=
  let s := x.i.exps.getD b 0
  let y := x.w.redBlock b
  let one := fun (e : Option (Bool × Nat × Int)) => match e with
    | none => ((0 : Int), Counts.oneNarOp)
    | some (neg, m, ex) => let q := quant24 neg m ex s; (q.1, if q.2 then Counts.oneSat else Counts.none)
  let qs := y.1.map (fun l => l.map one)
  let n := (qs.flatten.map (fun q => q.2)).foldl Counts.add Counts.none
  let zero := List.replicate (min 4096 (x.w.k.redCount - 4096 * b)) (0 : Int)
  (qs.foldl (fun a l => (a.zip l).map (fun p => p.1 + p.2.1)) zero, { x with w := if y.2.on then y.2.count n else y.2 })

/-- Phase 2 of a REDUCE begins: the voted exponents are written, and this member's contributions join the partials (R339,
R340). -/
def WI.redContribute (x : WI) : WI :=
  let k := x.w.k
  let bs := x.i.exps.flatMap (fun e => leBytes 2 (ofSigned 16 e))
  let w1 := if k.bit 48 1 then x.w else x.w.write (k.addr 64) bs
  (((List.range k.redBlocks).foldl (fun (z : WI) b =>
    if !z.w.on then z
    else
      let q := z.redQuant b
      (List.range x.i.group.length).foldl (fun (y : WI) j =>
        let r := k.redRange j b
        if r.1 < r.2 then
          let xs := ((q.1.drop (r.1 - 4096 * b)).take (r.2 - r.1))
          y.addPart j b xs (partCsum b r.1 xs) false
        else y) q.2) { x with w := w1 }).phase 5)

/-- Whether the partials that a member adds for shard j and block b have come. -/
def Inst.partsIn (i : Inst) (j b : Nat) : Bool := (inHops (hops i.group j) i.me).all (fun e => i.got.contains (e.1, j, b))

/-- Sending the partials that are complete and pass on. -/
def WI.redSend (x : WI) : WI :=
  (List.range x.i.group.length).foldl (fun (z : WI) j =>
    match outHop (hops z.i.group j) z.i.me with
    | none => z
    | some e => (x.w.k.redShardBlocks j).foldl (fun (y : WI) b =>
        if y.i.partsIn j b && !y.i.passed.contains (partKey j b) then
          let p := Tab.get (fun _ => ([], 0)) y.i.part (partKey j b)
          let y1 := y.send e.2.2 e.1 (.block j b p.1 p.2)
          { y1 with i := { y1.i with passed := y1.i.passed ++ [partKey j b] } }
        else y) z) x

/-- Whether this member's shard is whole: it ends here, or it has been delivered. -/
def Inst.shardIn (i : Inst) (k : Cmd) : Bool :=
  (k.redShardBlocks i.me).all (fun b => match deliveryHop i.group i.me with
    | some e => i.got.contains (e.1, i.me, b)
    | none => i.partsIn i.me b)

/-- Whether every partial of the other shards has been passed on. -/
def Inst.allPassed (i : Inst) (k : Cmd) : Bool :=
  (List.range i.group.length).all (fun j => i.ends j || (k.redShardBlocks j).all (fun b => i.passed.contains (partKey j b))) &&
    i.held.isEmpty

/-- An element of the reduced shard (R341). -/
def redValue (v s : Int) : SVal := if v = 0 then .zero else .lin (decide (v < 0)) v.natAbs 1 (s - 23)

/-- The prediction of a REDUCE's history record (R39, R341); without one, of a record without entries. -/
def W.redPredict (w : W) (f : Fmt) : Int × W :=
  match w.k.histOff with
  | none => (predictExp f none 0 0, w)
  | some o =>
    if !w.s.ownsSlice (w.k.ctx w.c).who (sliceOf (recordOffset o)) then (0, { w with s := w.s.bump Fd.poolOwnerFaultCnt }.fail cPageOwner)
    else
      let r := w.s.histPredict o f
      match r.1 with
      | some k => (k, { w with s := r.2 })
      | none => (0, { w with s := r.2 }.fail cMemUncorrectable)

/-- Recording a failed checksum (R345). -/
def State.csumFailed (s : State) (sender stage blk : Nat) : State :=
  ((((s.bump Fd.weaverCsumFailCnt).setFld Fd.weaverCsumFailAtSender 0 0 sender).setFld Fd.weaverCsumFailAtStage 0 0 stage).setFld
    Fd.weaverCsumFailAtBlock 0 0 blk).setFld Fd.weaverCsumFailAtValid 0 0 1

/-- The shard of this member is checked and written at DST (R341, R345). -/
def WI.redStore (x : WI) : WI :=
  let k := x.w.k
  let blocks := k.redShardBlocks x.i.me
  let parts := blocks.map (fun b => (b, Tab.get (fun _ => ([], 0)) x.i.part (partKey x.i.me b)))
  match parts.find? (fun p => decide (partCsum p.1 (k.redRange x.i.me p.1).1 p.2.1 ≠ p.2.2)) with
  | some p => { x with w := { x.w with s := x.w.s.csumFailed (x.i.module x.i.me) 0xFFFF p.1 }.fail cReduceChecksum }
  | none =>
    let es := parts.flatMap (fun p => p.2.1.map (fun v => (v, x.i.exps.getD p.1 0)))
    let dst := k.addr 72
    let plain := fun (bs : List Byte) (n : Counts) => let w1 := (x.w.count n).write dst bs; if w1.on then w1.moved bs.length else w1
    let coded := fun (f : Fmt) =>
      let p := x.w.redPredict f
      let t := k.i 100 1
      let vs := es.map (fun e => redValue e.1 e.2)
      let cs := vs.map (codeSVal f t p.1)
      let bs := packCodes f (cs.map (fun c => c.1))
      let n := (cs.map (fun c => c.2)).foldl Counts.add Counts.none
      let xs := List.replicate (ceilDiv vs.length f.blk) (BitVec.ofInt 8 p.1)
      let w0 := if p.2.on then (p.2.count n).gather (histMaxOf t vs) else p.2
      let w1 := (w0.write dst bs).write (k.addr 80) xs
      if w1.on then w1.moved (bs.length + xs.length) else w1
    let w1 := match k.u 49 1 % 4 with
      | 0 => plain (es.flatMap (fun e => leBytes 8 (ofSigned 64 e.1))) Counts.none
      | 1 =>
        let fs := es.map (fun e => (e.1, (fpRoundInt .ne false e.1 (e.2 - 23)).1))
        plain (fs.flatMap (fun f => leBytes 4 f.2.toNat)) ⟨fs.countP (fun f => decide (f.2 &&& 0x7FFFFFFF#32 = 0x7F800000#32)),
          fs.countP (fun f => decide (f.1 ≠ 0) && decide (f.2 &&& 0x7FFFFFFF#32 = 0#32)), 0, 0⟩
      | 2 => coded .l16
      | _ => coded .l8
    { x with w := w1 }.phase 6

/-- A REDUCE at its end: the flag is written (R339). -/
def WI.redEnd (x : WI) : WI :=
  let w1 := x.w.write (x.w.k.addr 88) (leBytes 4 (b2n x.i.flag))
  { x with w := if w1.on && x.i.flag then { w1 with s := w1.s.bump Fd.weaverNonfiniteCnt } else w1 }

/-- One step of a REDUCE. -/
def WI.redStep (x : WI) : State × Bool :=
  let i := x.i
  match i.phase with
  | 1 => x.redOwn.commit i
  | 2 =>
    let y := x.passVote (.proposals i.exps i.flag) (.exponents i.exps i.flag)
    if y.i.phase = 2 then (x.w.s, false) else y.commit i
  | 4 => x.redContribute.commit i
  | 5 =>
    let y := x.redSend
    if y.i.passed ≠ i.passed then y.commit i
    else if i.shardIn x.w.k then x.redStore.commit i else (x.w.s, false)
  | 6 =>
    let y := x.redSend
    if y.i.passed ≠ i.passed then y.commit i
    else if i.allPassed x.w.k then x.redEnd.done i else (x.w.s, false)
  | _ => (x.w.s, false)

/-- A partial that arrives (R345). -/
def WI.redArrive (x : WI) (m : CollMsg) (j b : Nat) (xs : List Int) (csum : Nat) : WI :=
  let lo := (x.w.k.redRange j b).1
  if partCsum b lo xs ≠ csum % 2 ^ 64 then
    { x with w := { x.w with s := x.w.s.csumFailed (x.i.module m.sender) m.stage b }.fail cReduceChecksum }
  else
    let y := { x with i := { x.i with got := x.i.got ++ [(m.stage, j, b)] } }
    let delivered := decide (j = x.i.me) && (match deliveryHop x.i.group j with
      | some e => decide (e.1 = m.stage)
      | none => false)
    if delivered then { y with i := { y.i with part := Tab.set (fun _ => ([], 0)) y.i.part (partKey j b) (xs, csum) } }
    else y.addPart j b xs csum (y.i.ends j && y.i.partsIn j b)

/-! ## VOTE (R346) -/

/-- One step of a VOTE. -/
def WI.voteStep (x : WI) : State × Bool :=
  let i := x.i
  let k := x.w.k
  match i.phase with
  | 1 =>
    let n := k.u 32 4
    let r := x.w.read (k.addr 40) (8 * n)
    (⟨r.2, { i with words := (cutBy 8 n r.1).map (fun b => BitVec.ofNat 64 (ofLe b)), phase := 2 }⟩ : WI).commit i
  | 2 =>
    let y := x.passVote (.words i.words) (.result i.words)
    if y.i.phase = 2 then (x.w.s, false) else y.commit i
  | 4 =>
    if !i.held.isEmpty then (x.w.s, false)
    else
      let bs := i.words.flatMap (fun w => leBytes 8 w.toNat)
      let w1 := x.w.write (k.addr 48) bs
      (⟨if w1.on then w1.moved bs.length else w1, i⟩ : WI).done i
  | _ => (x.w.s, false)

/-! ## GATHER (R347 to R349) -/

/-- Checksum of the bytes of a shard, by blocks of 4,096 (R348): each block with its own base, added up. -/
def bytesCsum (bs : List Byte) : Nat :=
  ((List.range (ceilDiv bs.length 4096)).map (fun b =>
    blockCsum b (((bs.drop (4096 * b)).take 4096).map (fun x => (x.toNat : Int))))).foldl (fun a c => (a + c) % csumP) 0

/-- A shard lands at its place (R347); its tag waits to be handled (R349). -/
def WI.shardLand (x : WI) (j : Nat) (bs : List Byte) (tag : Nat × Nat × Nat) : WI :=
  let w1 := x.w.write ((x.w.k.addr 48 + j * x.w.k.u 32 5) % 2 ^ 48) bs
  ⟨if w1.on then w1.moved bs.length else w1, { x.i with tags := x.i.tags ++ [(j, tag)] }⟩

/-- This member's shard with its version tag, read now (R348). -/
def WI.ownShard (x : WI) : List Byte × (Nat × Nat × Nat) × WI :=
  let h := x.w.read (x.w.k.addr 56) 4
  let r := h.2.read (x.w.k.addr 40) (x.w.k.u 32 5)
  (r.1, (x.w.s.layoutEpoch x.i.t, fieldB h.1 0 4, bytesCsum r.1), { x with w := r.2 })

/-- This member's own shard lands here (R347). -/
def WI.gatherOwn (x : WI) : WI :=
  let r := x.ownShard
  (r.2.2.shardLand x.i.me r.1 r.2.1).phase 2

/-- This member's shard leaves for a member whose grant has come: it is read as it is sent (R347, R348). -/
def WI.gatherSend (x : WI) (j : Nat) : WI :=
  let r := x.ownShard
  let y := r.2.2
  if y.w.on then
    let z := y.send j 0 (.shard x.i.me r.1 (BitVec.ofNat 32 r.2.1.1) (BitVec.ofNat 32 r.2.1.2.1) (BitVec.ofNat 64 r.2.1.2.2))
    { z with i := { z.i with passed := z.i.passed ++ [j] } }
  else y

/-- The next member that the shard can be sent to. -/
def Inst.nextPeer (i : Inst) : Option Nat := i.peers.find? (fun j => i.grants.contains j && !i.passed.contains j)

/-- One step of a GATHER: it ends once its shard has left for every member and every shard's tag has been handled. -/
def WI.gatherStep (x : WI) : State × Bool :=
  match x.i.phase with
  | 1 => x.gatherOwn.commit x.i
  | 2 =>
    match x.i.nextPeer with
    | some j => (x.gatherSend j).commit x.i
    | none => if x.i.landed.length = x.i.group.length && x.i.passed.length = x.i.peers.length then x.done x.i else (x.w.s, false)
  | _ => (x.w.s, false)

/-- SHARD_DRIFT, which the command carries when every shard has landed; nothing is aborted (R349). -/
def W.drifted (w : W) : W := { w with k := { w.k with soft := w.k.soft <|> some cShardDrift } }

/-- Handling the tag of shard j by LOGMODE (R349). -/
def WI.handleTag (x : WI) (j : Nat) (tag : Nat × Nat × Nat) : WI :=
  let k := x.w.k
  let a := (k.addr 64 + 16 * j) % 2 ^ 48
  let bs := leBytes 4 tag.1 ++ leBytes 4 tag.2.1 ++ leBytes 8 tag.2.2
  let w1 := match k.u 72 1 % 4 with
    | 1 => x.w.write a bs
    | 2 =>
      let r := x.w.read a 16
      if !r.2.on || decide (r.1 = bs) then r.2
      else ({ r.2 with s := (r.2.s.bump Fd.weaverDriftCnt).setFld Fd.weaverLastDrift 0 0 j }).drifted
    | _ => x.w
  ⟨w1, { x.i with landed := x.i.landed ++ [j], tags := x.i.tags.filter (fun t => decide (t.1 ≠ j)) }⟩

/-! ## PERMUTE (R350 to R352) -/

/-- The move table held by the instance: four words an entry. -/
def Inst.moves (i : Inst) : List (Nat × Nat × Nat × Nat × Nat) :=
  (List.range (i.words.length / 4)).map (fun e =>
    let w := fun n => (i.words.getD (4 * e + n) 0).toNat
    (w 0 % 2 ^ 32, w 0 / 2 ^ 32, w 1 % 2 ^ 40, w 2 % 2 ^ 48, w 3 % 2 ^ 48))

/-- The staging offset of an inbound move: the bytes of the earlier inbound moves of the member (R351). -/
def Inst.stageOff (i : Inst) (e : Nat) : Nat :=
  ((i.moves.take e).map (fun m => if m.2.1 = i.me then m.2.2.1 else 0)).foldl (· + ·) 0

/-- Inbound moves of the member, by entry. -/
def Inst.inbound (i : Inst) : List Nat := (List.range i.moves.length).filter (fun e => decide ((i.moves.getD e (0, 0, 0, 0, 0)).2.1 = i.me))

/-- A move lands in STAGE (R351). -/
def WI.stage (x : WI) (e : Nat) (bs : List Byte) : WI :=
  let w1 := x.w.write ((x.w.k.addr 48 + x.i.stageOff e) % 2 ^ 48) bs
  ⟨if w1.on then w1.moved bs.length else w1, { x.i with landed := x.i.landed ++ [e] }⟩

/-- Phase 1 of a PERMUTE begins: the table is read (R351). -/
def WI.permuteTable (x : WI) : WI :=
  let n := x.w.k.u 32 4
  let r := x.w.read (x.w.k.addr 40) (32 * n)
  { w := r.2, i := { x.i with words := (cutBy 8 (4 * n) r.1).map (fun b => BitVec.ofNat 64 (ofLe b)), phase := 2 } }

/-- The moves that this member sends, by entry. -/
def Inst.outbound (i : Inst) : List Nat :=
  (List.range i.moves.length).filter (fun e =>
    let m := i.moves.getD e (0, 0, 0, 0, 0)
    decide (m.1 = i.me) && decide (m.2.1 < i.group.length))

/-- Whether a move's receiver has granted credits; a local one needs none. -/
def Inst.granted (i : Inst) (e : Nat) : Bool :=
  let m := i.moves.getD e (0, 0, 0, 0, 0)
  decide (m.2.1 = i.me) || i.grants.contains m.2.1

/-- A move of this member: read, and sent or staged here (R351). -/
def WI.permuteMove (x : WI) (e : Nat) : WI :=
  let m := x.i.moves.getD e (0, 0, 0, 0, 0)
  let d := x.w.read m.2.2.2.1 m.2.2.1
  let y := { x with w := d.2 }
  if !d.2.on then y
  else
    let z := if m.2.1 = x.i.me then y.stage e d.1 else y.send m.2.1 0 (.moveData e d.1)
    { z with i := { z.i with passed := z.i.passed ++ [e] } }

/-- The end of a PERMUTE: staged moves are copied in table order, the layout epoch changes (R351). -/
def WI.permuteEnd (x : WI) : WI :=
  let k := x.w.k
  let w1 := x.i.inbound.foldl (fun (w : W) e =>
    let m := x.i.moves.getD e (0, 0, 0, 0, 0)
    let d := w.read ((k.addr 48 + x.i.stageOff e) % 2 ^ 48) m.2.2.1
    d.2.write m.2.2.2.2 d.1) x.w
  { x with w := if w1.on then { w1 with s := w1.s.setFld Fd.weaverLayoutEpoch 0 x.i.t.val (k.u 36 4) } else w1 }

/-- One step of a PERMUTE: it stops after the landing vote, where its second phase follows. -/
def WI.permuteStep (x : WI) : State × Bool :=
  match x.i.phase with
  | 1 => if x.w.k.movesNone then x.permuteEnd.done x.i else x.permuteTable.commit x.i
  | 2 =>
    let open_ := x.i.outbound.filter (fun e => !x.i.passed.contains e)
    match open_.find? x.i.granted with
    | some e => (x.permuteMove e).commit x.i
    | none =>
      if open_.isEmpty && x.i.inbound.all (fun e => x.i.landed.contains e) then
        let y := x.passVote (.landed true) (.landed true)
        if y.i.phase = 2 then (x.w.s, false) else y.commit x.i
      else (x.w.s, false)
  | _ => (x.w.s, false)

/-! ## MCAST (R323, R324, R353, R354) -/

/-- Children of a member under a FANOUT (R353). -/
def Inst.children (i : Inst) (fanout j : Nat) : List Nat :=
  ((List.range (fanout + 1)).map (fun x => (fanout + 1) * j + x + 1)).filter (fun x => decide (x < i.group.length))

def Cmd.mcFanout (k : Cmd) : Nat := k.u 48 1 % 8

/-- Landing space in bytes (R323). -/
def Cmd.mcSlack (k : Cmd) : Nat := 2 ^ 20 * max 1 (min 64 (k.u 49 1))

/-- Receivers still attached. -/
def Inst.attached (i : Inst) : List Nat :=
  (List.range i.group.length).filter (fun j => decide (j ≠ 0) && !(i.detached.any (fun d => decide (d.1 = j))))

def Inst.creditOf (i : Inst) (j : Nat) : Nat := Tab.get (fun _ => 0) i.credits j

/-- The least count of the attached receivers (R323); without receivers nothing holds the stream back. -/
def Inst.leastCredit (i : Inst) (all : Nat) : Nat := (i.attached.map i.creditOf).foldl min all

/-- Sending a packet of the stream to some members. -/
def WI.mcSend (x : WI) (fanout off : Nat) (bs : List Byte) (dsts : List Nat) : WI :=
  let m : McastMsg := ⟨x.i.t, x.i.ch, x.i.num, BitVec.ofNat 32 x.i.epoch, fanout, off, bs⟩
  dsts.foldl (fun (z : WI) j =>
    let r := z.w.s.sendTo z.i j (.mcast m)
    ⟨{ z.w with s := r.1 }, r.2⟩) x

/-- The detach list (R354). -/
def Inst.detachList (i : Inst) : List Byte :=
  leBytes 8 i.detached.length ++ i.detached.flatMap (fun d => leBytes 2 (i.module d.1) ++ leBytes 6 d.2)

/-- One step of the source: the next packet, or the end. -/
def WI.mcSource (x : WI) : State × Bool :=
  let k := x.w.k
  let n := k.u 32 5
  let dsts := (x.i.children k.mcFanout 0).filter (fun j => x.i.attached.contains j)
  let least := x.i.leastCredit n
  if x.i.sent < n then
    let lim := min n (least + k.mcSlack)
    if x.i.attached = [] then { x with i := { x.i with sent := n } }.commit x.i
    else if lim ≤ x.i.sent then (x.w.s, false)
    else
      let len := min packetMax (lim - x.i.sent)
      let d := x.w.read ((k.addr 40 + x.i.sent) % 2 ^ 48) len
      let y : WI := { x with w := d.2 }
      if !d.2.on then y.commit x.i
      else
        let z := ({ y with w := d.2.moved len } : WI).mcSend k.mcFanout x.i.sent d.1 dsts
        { z with i := { z.i with sent := x.i.sent + len } }.commit x.i
  else if n ≤ least ∧ x.i.held = [] then ({ x with w := x.w.write (k.addr 56) x.i.detachList } : WI).done x.i
  else (x.w.s, false)

/-- The contiguous count of the ranges written, from the start (R323). -/
def contiguous (rs : List (Nat × Nat)) : Nat → Nat → Nat
  | 0, n => n
  | f + 1, n =>
    let m := rs.foldl (fun a r => if r.1 ≤ a then max a r.2 else a) n
    if m = n then n else contiguous rs f m

/-- The bytes that a receiver has written contiguously from the start. -/
def Inst.streamed (i : Inst) : Nat := contiguous i.ranges (i.ranges.length + 1) 0

/-- A receiver takes a packet: it lands, then it is passed to the children and its credit goes to the source (R323, R353). -/
def WI.mcLand (x : WI) (m : McastMsg) : State × Bool :=
  if m.epoch.toNat ≠ x.w.s.layoutEpoch x.i.t then ({ x with w := x.w.fail cEpochMismatch } : WI).commit x.i
  else
    let w1 := x.w.write ((x.w.k.addr 40 + m.off) % 2 ^ 48) m.bytes
    let i1 := { x.i with ranges := x.i.ranges ++ [(m.off, m.off + m.bytes.length)], mbox := x.i.mbox.drop 1 }
    if !w1.on then (⟨w1, x.i⟩ : WI).commit x.i
    else
      let got := i1.streamed
      let y := (⟨{ w1 with k := { w1.k with bytes := got } }, i1⟩ : WI).mcSend m.fanout m.off m.bytes (i1.children m.fanout i1.me)
      let s1 := y.w.s.sendMsg (x.i.module 0) (.credit ⟨x.i.t, x.i.ch, x.i.num, x.i.me, got⟩) none (some (x.i.cell, x.i.cmd))
      ({ y with w := { y.w with s := s1 } } : WI).commit x.i

/-- One step of an MCAST: a receiver ends when its stream is here and has left for its children. -/
def WI.mcastStep (x : WI) : State × Bool :=
  if x.i.me = 0 then x.mcSource
  else
    match x.i.mbox with
    | m :: _ => x.mcLand m
    | [] => if x.w.k.u 32 5 ≤ x.i.streamed ∧ x.i.held = [] then x.done x.i else (x.w.s, false)

/-! ## Packets that arrive -/

/-- A voting commit learns the outcome (R366). -/
def WI.learn (x : WI) : WI := { x with w := { x.w with k := { x.w.k with outcome := some x.i.votes } } }

/-- Taking up a packet (R345, R352): one under another epoch than the member's own ends the instance. -/
def WI.arrive (x : WI) (m : CollMsg) : WI :=
  let y := { x with i := { x.i with inbox := x.i.inbox.erase m } }
  if m.epoch.toNat ≠ x.w.s.layoutEpoch x.i.t then { y with w := y.w.fail cEpochMismatch }
  else
    let fromAbove := decide (x.i.above.map (fun e => e.2) = some m.sender)
    match m.body with
    | .proposals es f => { y with i := { (y.i.noteVote m) with exps := if y.w.k.bit 48 1 then y.i.exps else zipMax y.i.exps es, flag := y.i.flag || f } }
    | .exponents es f => (({ y with i := { y.i with exps := if y.w.k.bit 48 1 then y.i.exps else es, flag := f } }).sendBelow (.exponents es f)).phase 4
    | .block j b xs csum => y.redArrive m j b xs csum
    | .words ws => { y with i := { (y.i.noteVote m) with words := (y.i.words.zip ws).map (fun p => voteOp (y.w.k.u 36 1 % 4) p.1 p.2) } }
    | .result ws => (({ y with i := { y.i with words := ws } }).sendBelow (.result ws)).phase 4
    | .shard j bs e st cs => y.shardLand j bs (e.toNat, st.toNat, cs.toNat)
    | .moveData e bs => y.stage e bs
    | .landed ok => if fromAbove then (y.sendBelow (.landed ok)).phase 4 else { y with i := y.i.noteVote m }
    | .ready ok d nf => { y with i := { (y.i.noteVote m) with votes := combineVotes y.i.votes [ok, d, nf] } }
    | .outcome ok d nf => ((({ y with i := { y.i with votes := [ok, d, nf] } }).sendBelow (.outcome ok d nf)).phase 4).learn

/-- Whether a packet can be taken up now: values to combine wait for the member's own, and partials for those of the stages before
theirs (R335). -/
def Inst.readyFor (i : Inst) (m : CollMsg) : Bool :=
  match m.body with
  | .proposals _ _ => decide (2 ≤ i.phase)
  | .words _ => decide (2 ≤ i.phase)
  | .ready _ _ _ => decide (2 ≤ i.phase)
  | .moveData _ _ => decide (2 ≤ i.phase)
  | .landed _ => decide (2 ≤ i.phase)
  | .block j b _ _ => decide (5 ≤ i.phase) &&
      (inHops (hops i.group j) i.me).all (fun e => decide (m.stage ≤ e.1) || i.got.contains (e.1, j, b))
  | _ => true

/-- One step of a voting commit's instance: readiness goes up; with the outcome known, the instance leaves the channel and the
commit goes on (R366). -/
def WI.commitStep (x : WI) : State × Bool :=
  let b := fun n => x.i.votes.getD n false
  match x.i.phase with
  | 2 =>
    let y := x.passVote (.ready (b 0) (b 1) (b 2)) (.outcome (b 0) (b 1) (b 2))
    if y.i.phase = 2 then (x.w.s, false) else (if y.i.phase = 4 then y.learn else y).commit x.i
  | 4 =>
    if !x.i.held.isEmpty then (x.w.s, false)
    else
      let s1 := x.w.s
      let idx := 16 * x.i.t.val + x.i.ch.val
      ({ s1 with weav := { s1.weav with insts := s1.weav.insts.filter (fun y => !y.same x.i) } }.setFld Fd.weaverChanInflight 0 idx
        (s1.fld Fd.weaverChanInflight 0 idx - 1), true)
  | _ => (x.w.s, false)

/-- The own work of an instance's command. -/
def WI.own (x : WI) : State × Bool :=
  match x.i.opcode with
  | 0x0601 => x.redStep
  | 0x0602 => x.gatherStep
  | 0x0603 => x.permuteStep
  | 0x0604 => x.mcastStep
  | 0x0605 => x.voteStep
  | 0x0702 => x.commitStep
  | _ => (x.w.s, false)

/-- A stopped command's instance ends and sends the abort with a cancel mark (R333); one that has not begun reads its group for that. -/
def WI.stopped (x : WI) : State × Bool :=
  let g := if x.i.phase = 0 then x.w.readGroup else (x.i.group, x.w)
  let i := { x.i with group := g.1, me := g.1.findIdx (fun e => decide (e.1 = g.2.s.moduleId)) }
  match g.2.halt with
  | .wait => (g.2.s, false)
  | .fault => (g.2.s.endInsts (fun y => y.same x.i) none true, true)
  | .go => ((g.2.s.sendAborts i 0 true).endInsts (fun y => y.same x.i) none true, true)

/-- One step of an instance: beginning, its packets, its command's own work. A command that CANCEL has stopped ends with the
cancel mark, but for a PERMUTE past its vote (R333). -/
def State.weaveStep (t ch : Fin 16) (num : Nat) (s : State) : State × Bool :=
  match s.instOf t ch num with
  | none => (s, false)
  | some i =>
    match s.cmd i.cell i.cmd with
    | none => (s, false)
    | some k =>
      let x : WI := ⟨⟨s, i.cell, k, .go⟩, i⟩
      if k.cancelled && !(decide (i.opcode = 0x0603) && decide (i.phase = 4)) then x.stopped
      else if i.phase = 0 then x.begin
      else
        match i.inbox.find? i.readyFor with
        | some m => (x.arrive m).commit i
        | none => x.own

/-- An instance goes on as far as it can. -/
def State.weave (s : State) (i : Inst) : State :=
  let more := match s.cmd i.cell i.cmd with
    | some k => if i.opcode = 0x0604 then k.u 32 5 / packetMax + 2 else if i.opcode = 0x0603 then k.u 32 4 else i.group.length
    | none => 0
  State.steps (State.weaveStep i.t i.ch i.num) (i.inbox.length + i.mbox.length + more + 16) s

/-- The work of a started Weaver command. -/
def State.weaveCmd (s : State) (c n op : Nat) : State :=
  match s.instAt c n with
  | some i => if i.opcode = op ∧ !s.cellDead c then s.weave i else s
  | none => s

/-- REDUCE: a started REDUCE goes on (R337 to R345). -/
def execReduce (c : Fin 256) (n : Nat) (s : State) : Res := .next (s.weaveCmd c.val n 0x0601)

/-- GATHER: a started GATHER goes on (R347, R348). -/
def execGather (c : Fin 256) (n : Nat) (s : State) : Res := .next (s.weaveCmd c.val n 0x0602)

/-- PERMUTE: a started PERMUTE goes on to its landing vote (R351). -/
def execPermute (c : Fin 256) (n : Nat) (s : State) : Res := .next (s.weaveCmd c.val n 0x0603)

/-- MCAST: a started MCAST goes on (R353). -/
def execMcast (c : Fin 256) (n : Nat) (s : State) : Res := .next (s.weaveCmd c.val n 0x0604)

/-- VOTE: a started VOTE goes on (R346). -/
def execVote (c : Fin 256) (n : Nat) (s : State) : Res := .next (s.weaveCmd c.val n 0x0605)

/-- Changing an instance and going on with it. -/
def State.onInst (s : State) (t ch : Fin 16) (num : Nat) (f : Inst → Inst) : State :=
  match s.instOf t ch num with
  | some i => (s.putInst (f i)).weave (f i)
  | none => s

/-- COLLECTIVE: a packet of an instance arrives (R345, R352); a half in reset drops it (R438). -/
def execCollective (msg : CollMsg) (s : State) : Res :=
  .next (if s.inReset .weaver 0 (msg.ch.val / 8) then s.bump Fd.moduleRstDropCnt else s.onInst msg.t msg.ch msg.num (fun i => { i with inbox := i.inbox ++ [msg] }))

/-- WEAVER_CREDIT_GRANT: a peer grants credits (R332); a grant for an instance that is still to come is kept. A
half in reset drops it (R438). -/
def execWeaverCreditGrant (t ch : Fin 16) (num member : Nat) (opcode : BitVec 16) (s : State) : Res :=
  .next (if s.inReset .weaver 0 (ch.val / 8) then s.bump Fd.moduleRstDropCnt else match s.instOf t ch num with
    | some i =>
      (match s.cmd i.cell i.cmd with
        | some k =>
          let x := (⟨⟨s, i.cell, k, .go⟩, i⟩ : WI).takeGrant member opcode
          (x.w.s.putInst x.i).weave x.i
        | none => s)
    | none =>
      let d := (num + 2 ^ 32 - s.fld Fd.weaverChanSeq 0 (16 * t.val + ch.val)) % 2 ^ 32
      if d < 2 ^ 31 then { s with weav := { s.weav with early := s.weav.early ++ [(t, ch, num, member, opcode)] } } else s)

/-- SHARD_LANDED: the tag of a shard that has landed is handled (R349). -/
def execShardLanded (t ch : Fin 16) (num : Nat) (j : Nat) (s : State) : Res :=
  .next (match s.instOf t ch num with
    | some i =>
      (match s.cmd i.cell i.cmd, i.tags.find? (fun x => decide (x.1 = j)) with
        | some k, some tag =>
          if i.opcode = 0x0602 then
            let r := ((⟨⟨s, i.cell, k, .go⟩, i⟩ : WI).handleTag j tag.2).commit i
            (match r.1.instOf t ch num with
              | some y => r.1.weave y
              | none => r.1)
          else s
        | _, _ => s)
    | none => s)

/-- Whether an instance waits for a packet from a peer (R333): a grant, a value of its combination, a result, data, or credits. -/
def Inst.waitsPeer (i : Inst) (k : Cmd) : Bool :=
  let vote := (decide (i.phase = 2) && !i.votesIn) || decide (i.phase = 3)
  !i.held.isEmpty || (match i.opcode with
    | 0x0601 => vote || (decide (i.phase = 5) && !i.shardIn k) || (decide (5 ≤ i.phase) && !i.allPassed k)
    | 0x0602 => decide (i.phase = 2) && (i.peers.any (fun j => !i.grants.contains j) ||
        (List.range i.group.length).any (fun j => !i.landed.contains j && i.tags.all (fun t => decide (t.1 ≠ j))))
    | 0x0603 => vote || (decide (i.phase = 2) && (i.outbound.any (fun e => !i.granted e) || i.inbound.any (fun e => !i.landed.contains e)))
    | 0x0604 =>
      let n := k.u 32 5
      if i.me = 0 then decide (i.leastCredit n < n) && decide (min n (i.leastCredit n + k.mcSlack) ≤ i.sent)
      else decide (i.streamed < n) && i.mbox.isEmpty
    | 0x0605 => vote
    | 0x0702 => vote
    | _ => false)

/-- COLL_TIMEOUT: an instance that has waited for a peer ends with LINK_DOWN (R333). -/
def execCollTimeout (t ch : Fin 16) (num : Nat) (s : State) : Res :=
  .next (match s.instOf t ch num with
    | some i =>
      (match s.cmd i.cell i.cmd with
        | some k => if i.waitsPeer k then s.failInst i cLinkDown else s
        | none => s)
    | none => s)

/-- PERMUTE_PHASE2: after the landing vote the staged moves are copied and the layout epoch changes (R351). -/
def execPermutePhase2 (t ch : Fin 16) (num : Nat) (s : State) : Res :=
  .next (match s.instOf t ch num with
    | some i =>
      (match s.cmd i.cell i.cmd with
        | some k =>
          if i.opcode = 0x0603 ∧ i.phase = 4 ∧ i.held.isEmpty then ((⟨⟨s, i.cell, k, .go⟩, i⟩ : WI).permuteEnd.done i).1 else s
        | none => s)
    | none => s)

/-! ## Multicast over the fabric -/

/-- MCAST_DATA: a packet of a stream arrives (R323, R353); without its instance it is discarded and counted (R324). -/
def execMcastData (msg : McastMsg) (s : State) : Res :=
  .next (match s.instOf msg.t msg.ch msg.num with
    | some i => if i.opcode = 0x0604 then s.onInst msg.t msg.ch msg.num (fun i => { i with mbox := i.mbox ++ [msg] }) else s
    | none => s.bump Fd.fabMcastDiscardCnt)

/-- MCAST_CREDIT: a receiver's count arrives at the source (R323); that of a detached receiver no longer counts (R324). -/
def execMcastCredit (msg : McastCreditMsg) (s : State) : Res :=
  .next (s.onInst msg.t msg.ch msg.num (fun i =>
    if i.attached.contains msg.member then
      { i with credits := Tab.set (fun _ => 0) i.credits msg.member (max (i.creditOf msg.member) msg.count) }
    else i))

/-- Whether a member lies below another in the tree (R353). -/
def isBelow (fanout top : Nat) : Nat → Nat → Bool
  | 0, _ => false
  | f + 1, j => decide (j = top) || (decide (j ≠ 0) && isBelow fanout top f ((j - 1) / (fanout + 1)))

/-- Whether a receiver holds the stream back (R324). -/
def Inst.holdsBack (i : Inst) (k : Cmd) (j : Nat) : Bool :=
  let n := k.u 32 5
  i.attached.contains j && decide (i.creditOf j = i.leastCredit n) && decide (i.creditOf j < n) &&
    decide (min n (i.leastCredit n + k.mcSlack) ≤ i.sent)

/-- DETACH_TIMEOUT: a receiver that holds the stream back is detached with all below it (R324, R354). -/
def execDetachTimeout (t ch : Fin 16) (num : Nat) (member : Nat) (s : State) : Res :=
  .next (match s.instOf t ch num with
    | some i =>
      (match s.cmd i.cell i.cmd with
        | some k =>
          if i.opcode = 0x0604 ∧ i.me = 0 ∧ i.holdsBack k member then
            let out := i.attached.filter (fun j => isBelow k.mcFanout member (i.group.length + 1) j)
            let i1 := { i with
              detached := i.detached ++ out.map (fun j => (j, i.creditOf j)), held := i.held.filter (fun h => !out.contains h.1) }
            let s1 := out.foldl (fun z j => (z.bump Fd.fabDetachCnt).sendMsg (i.module j) (.ctl (.detach t ch num)) none (some (i.cell, i.cmd))) s
            (s1.putInst i1).weave i1
          else s
        | none => s)
    | none => s)

/-- A detached receiver ends its MCAST; its BYTES is its contiguous count (R324). -/
def State.detachHere (s : State) (t ch : Fin 16) (num : Nat) : State :=
  match s.instOf t ch num with
  | some i => if i.opcode = 0x0604 then s.endInsts (fun x => x.same i) (some cReceiverDetached) false else s
  | none => s

/-- An abort arrives (R333): a running instance ends with the same code, or with the mark of CANCEL. A PERMUTE in its second phase and a
voting commit are not stopped by a CANCEL. -/
def State.abortHere (s : State) (t ch : Fin 16) (num : Nat) (code : Code) (cancel : Bool) : State :=
  match s.instOf t ch num with
  | some i =>
    if cancel && (decide (i.opcode = 0x0702) || (decide (i.opcode = 0x0603) && decide (i.phase = 4))) then s
    else (s.endInsts (fun x => x.same i) (if cancel then none else some code) cancel).bump Fd.weaverAbortCnt
  | none => s

end Sys2Proof.Machine
end

