-- ==== Sys2Proof/Machine/Events.lean ====
section
/-! DEFINITION. Events (R380, R414), the health monitor (R378, R379), partners (R381 to R383). -/

namespace Sys2Proof.Machine

/-! ## Events -/

/-- What the module's own accesses for a tenant carry. -/
def tenantCtx (t : Fin 16) : Ctx := ⟨.tenant t, none, none, none, none⟩

/-- The open queue pair of a tenant with a number. -/
def State.qpOf (s : State) (t : Fin 16) (n : Nat) : Option Qp :=
  s.eth.qps.find? (fun q => decide (q.t = t) && decide (q.qpn = n) && !q.err)

/-- Replacing a queue pair. -/
def State.putQp (s : State) (q : Qp) : State :=
  { s with eth := { s.eth with qps := s.eth.qps.map (fun x => if x.qpn = q.qpn then q else x) } }

/-! ## Ethernet packets (R395 to R397, R408) -/

/-- The encapsulation header (R396): KIND, SACK, PROT, CONN, SEQ. -/
def encapHeader (kind : Nat) (sack prot : Bool) (conn seq : Nat) : List Byte :=
  [BitVec.ofNat 8 (1 + 16 * kind), BitVec.ofNat 8 (b2n sack + 2 * b2n prot)] ++ beBytes 3 conn ++ List.replicate 3 0 ++ beBytes 8 seq

/-- What follows the header, sealed under a key and a SEQ: ciphertext and tag (R397). -/
def Keys.sealed (k : Keys) (seq : Nat) (hdr plain : List Byte) : List Byte × List Byte :=
  let nonce := k.salt ++ beBytes 8 seq
  (Config.gcmSeal k.key nonce hdr plain, Config.gcmTag k.key nonce hdr plain)

/-- Sending a packet on its port (R419). -/
def State.sendEth (s : State) (p : EthPacket) : State := (s.bump Fd.ethTxFrames p.port).send (.eth p)

/-- The ECN codepoint ECT(0) (R408). -/
def ect0 : Nat := 2

/-- Segments of a message: at most 4,096 bytes each, the first 8 of them MSG, SEG, NSEG, a reserved byte and the length (R400). -/
def segments (n : Nat) : Nat := max 1 (ceilDiv n 4088)

/-- The bytes of a segment. -/
def segmentBytes (msg : Nat) (bs : List Byte) (i : Nat) : List Byte :=
  beBytes 1 msg ++ beBytes 1 i ++ beBytes 1 (segments bs.length) ++ [0] ++ beBytes 4 bs.length ++ sliceB bs (4088 * i) (min 4088 (bs.length - 4088 * i))

/-- Sending a message in segments to a host, its packets counted from a SEQ (R396, R400): sealed where there are keys. -/
def State.sendSegments (s : State) (port : Nat) (ip : BitVec 128) (udp : BitVec 16) (kind : Nat) (keys : Option Keys) (seq msg : Nat)
    (bs : List Byte) : State :=
  (List.range (segments bs.length)).foldl (fun z i =>
    let seg := segmentBytes msg bs i
    let hdr := encapHeader kind false keys.isSome 0 (seq + i)
    let body := match keys with
      | some k => k.sealed (seq + i) hdr seg
      | none => (seg, [])
    z.sendEth ⟨port, ip, udp, ect0, hdr, .segment seg, body.1, body.2⟩) s

/-- Whether a message carries a SACK block (R407). -/
def EthMsg.isAck : EthMsg → Bool
  | .ack _ _ _ _ => true
  | _ => false

/-- Sending on a queue pair, a packet each (R397): one whose SEQ would pass 2^48 puts the queue pair into the error state. -/
def State.qpSend (s : State) (q : Qp) : List EthMsg → State
  | [] => s.putQp q
  | m :: ms =>
    if 2 ^ 48 < q.txSeq then (s.putQp q).errQps (fun x => decide (x.qpn = q.qpn))
    else
      let hdr := encapHeader 0 (q.sack && m.isAck) false q.hostQpn q.txSeq
      let body := q.keyOut.sealed q.txSeq hdr (Config.roceBytes q.hostQpn m)
      State.qpSend (s.sendEth ⟨q.port, q.hostIp, q.hostUdp, ect0, hdr, m, body.1, body.2⟩) { q with txSeq := q.txSeq + 1 } ms

/-- The notice of an event to the host (R414). -/
def State.notice (s : State) (t : Fin 16) (seq : Nat) (record : List Byte) : State :=
  if !s.flag Fd.ethNotifyEnable 0 t.val then s
  else
    match s.qpOf t (s.fld Fd.ethNotifyQpn 0 t.val) with
    | none => s.bump Fd.ethNotifyDropCnt
    | some q =>
      let va := (s.fld Fd.ethNotifyVa 0 t.val + 16 * (seq % 2 ^ s.fld Fd.moduleEvtRingLog2 0 t.val)) % 2 ^ 64
      let r : TxReq := ⟨q.nextPsn, 0, va, s.fld Fd.ethNotifyRkey 0 t.val, seq, record⟩
      s.qpSend { q with nextPsn := (q.nextPsn + 1) % 2 ^ 24, unacked := q.unacked ++ [r] } [.notice r.psn va r.rkey seq record]

/-- The record of an event (R380). -/
def State.eventRecord (s : State) (code : Code) (level seq : Nat) : List Byte :=
  leBytes 2 code.toNat ++ leBytes 1 level ++ leBytes 1 0 ++ leBytes 4 seq ++ leBytes 8 (s.fld (Fd.cycles .clerk))

/-- Where the record of an event goes (R380, R394). -/
def State.eventPlace (s : State) (t : Fin 16) : Nat :=
  (s.fld Fd.moduleEvtRingBase 0 t.val / 16 * 16 + 16 * (s.fld Fd.moduleEvtRingHead 0 t.val % 2 ^ s.fld Fd.moduleEvtRingLog2 0 t.val)) % scacheSize

/-- Delivering an event to a tenant whose ring is enabled (R380): the record, HEAD, the tally word, the notice. -/
def State.raiseEvent (s : State) (t : Fin 16) (code : Code) (level : Nat) : State :=
  if !s.flag Fd.moduleEvtTallyEnable 0 t.val then s
  else
    let seq := s.fld Fd.moduleEvtRingHead 0 t.val
    let rec_ := s.eventRecord code level seq
    let s1 := (s.scacheAccess (tenantCtx t) (s.eventPlace t) (some rec_) 16).st
    let s2 := s1.inc Fd.moduleEvtRingHead 0 t.val
    let o := s2.fld Fd.moduleEvtTallyOffset 0 t.val / 4 * 4 % scacheSize
    let s3 := if s2.ownsSlice (.tenant t) (sliceOf o) then (s2.addWord o 1).2 else s2.bump Fd.poolOwnerFaultCnt
    s3.notice t seq rec_

/-! ## The health monitor -/

/-- min(15, floor(log₂(n + 1))). -/
def logScore (n : Nat) : Nat := min 15 (Nat.log2 (n + 1))

/-- Adding up a counter over the blocks of its kind. -/
def State.sumOver (s : State) (f : Field) (n : Nat) : Nat := (List.range n).foldl (fun a b => a + s.fld f b) 0

/-- The counters that the monitor follows: stacks, SRAM, retrains, uncorrectable codewords. -/
def State.riskCounts (s : State) : List Nat :=
  [s.sumOver Fd.stackOuterCeCnt 12 + s.sumOver Fd.stackErasureCnt 12, s.sumOver Fd.cellSramCeCnt 256 + s.fld Fd.scacheSramCeCnt,
    s.sumOver Fd.scecyRetrainCnt 24, s.sumOver Fd.scecyFecUeCnt 24]

/-- Lost pins of a stack in regions in service. -/
def State.pinsLost (s : State) (m : Nat) : Nat :=
  (List.range 128).foldl (fun a c => if s.bitOf Fd.stackStateInService m 0 (c / 16) then a + (s.lostPins m c).length else a) 0

/-- RETIRING regions of a stack. -/
def State.retiringCount (s : State) (m : Nat) : Nat := (List.range 8).countP (fun r => s.bitOf Fd.stackStateRetiring m 0 r)

/-- The score of a sensor. -/
def State.tempScore (s : State) (i : Nat) : Nat :=
  let cur := s.fld Fd.moduleTempCur 0 i
  let warn := s.fld Fd.moduleTempWarn 0 i
  let trip := s.fld Fd.moduleTempTrip 0 i
  if cur ≤ warn then 0 else if trip ≤ warn then 15 else min 15 (15 * (cur - warn) / (trip - warn))

/-- The score of the hold-up bank. -/
def State.holdScore (s : State) : Nat :=
  let c := s.fld Fd.moduleHoldupCharge
  if s.flag Fd.moduleHoldupFailed || decide (c < 80) then 15 else if 100 ≤ c then 0 else 8

/-- The seven scores (R378), from the rises of the counters. -/
def State.scores (s : State) (rise : Nat → Nat) : List Nat :=
  [logScore (rise 0),
    min 15 ((List.range 12).foldl (fun a m => a + 4 * s.pinsLost m + 8 * s.retiringCount m) 0),
    if s.clk.sramUe then 15 else logScore (rise 1),
    min 15 (4 * rise 2 + Nat.log2 (rise 3 + 1)),
    (List.range 39).foldl (fun a i => max a (s.tempScore i)) 0,
    s.holdScore,
    if s.flag Fd.moduleFeedAlarm then 15 else 0]

/-- The weighted level of seven scores under the weights of RISK_WEIGHT (R378). -/
def riskLevel (w : Nat) (scores : List Nat) : Nat :=
  min 15 (((List.range scores.length).zip scores).foldl (fun a x => a + bitsOf w (4 * x.1 + 3) (4 * x.1) * x.2) 0 / 8)

/-- The seven scores packed into SCORES. -/
def packScores (scores : List Nat) : Nat := ((List.range scores.length).zip scores).foldl (fun a x => a + x.2 % 16 * 2 ^ (4 * x.1)) 0

/-- RISK_EVENT and ARMED (R379). -/
def State.riskCross (s : State) (level : Nat) : State :=
  let th := s.fld Fd.moduleRiskThresh
  if th ≤ level ∧ s.flag Fd.moduleRiskArmed then
    (List.finRange 16).foldl (fun z t => z.raiseEvent t cRiskEvent level) (s.setFld Fd.moduleRiskArmed 0 0 0)
  else if level + s.fld Fd.moduleRiskHyst < th then s.setFld Fd.moduleRiskArmed 0 0 1
  else s

/-- RISK_PERIOD: the health monitor scores its inputs and forms the risk level (R378, R379). -/
def execRiskPeriod (s : State) : Res :=
  let now := s.riskCounts
  let sc := s.scores (fun i => now.getD i 0 - s.clk.risk.getD i 0)
  let level := riskLevel (s.fld Fd.moduleRiskWeight) sc
  let s1 := { s with clk := { s.clk with risk := now, sramUe := false } }
  let s2 := ((s1.setFld Fd.moduleRiskLevel 0 0 level).setFld Fd.moduleRiskScores 0 0 (packScores sc)).inc Fd.moduleRiskPeriods
  .next (s2.riskCross level)

/-! ## Partners -/

/-- The partner's answer (R382). -/
def State.paired (s : State) (t : Fin 16) (feed : Nat) : State :=
  if !s.clk.pairing.contains t then s
  else
    let own := s.fld Fd.moduleFeedFeedId
    let co := decide (own = feed) || decide (own = 0) || decide (feed = 0)
    let s1 := { s with clk := { s.clk with pairing := s.clk.pairing.filter (fun x => decide (x ≠ t)) } }
    let s2 := ((s1.setFld Fd.modulePartnerPaired 0 t.val 1).setFld Fd.modulePartnerPartnerFeed 0 t.val feed).setFld
      Fd.modulePartnerCoFed 0 t.val (b2n co)
    if co then s2.raiseEvent t cCoFedPartner 0 else s2

/-- PAIR_ANSWER: the partner's answer arrives (R382). -/
def execPairAnswer (t : Fin 16) (feed : BitVec 16) (s : State) : Res := .next (s.paired t feed.toNat)

/-- PAIR_TIMEOUT: no answer came within RESP_TIMEOUT (R382). -/
def execPairTimeout (t : Fin 16) (s : State) : Res :=
  .next (if s.clk.pairing.contains t then
    { s.setFld Fd.modulePartnerPairFail 0 t.val 1 with
      clk := { s.clk with pairing := s.clk.pairing.filter (fun x => decide (x ≠ t)) } }
  else s)

end Sys2Proof.Machine
end

