-- ==== Sys2Proof/Machine/Ethernet.lean ====
section
/-! DEFINITION. The Ethernet ports (R395 to R398, R404, R437), sessions and attestation (R399 to R403). -/

namespace Sys2Proof.Machine

/-! ## Ports -/

/-- A port that is UP. -/
def State.ethUp (s : State) (e : Nat) : Bool := decide (s.fld Fd.ethState e = 2) && !s.inReset .eth e

/-- The session of a tenant. -/
def State.session (s : State) (t : Fin 16) : Session := Tab.get (fun _ => Session.init) s.eth.sessions t.val

def State.setSession (s : State) (t : Fin 16) (x : Session) : State :=
  { s with eth := { s.eth with sessions := Tab.set (fun _ => Session.init) s.eth.sessions t.val x } }

/-- SESSION.STATE: 0 none, 1 handshake, 2 open. -/
def State.sessState (s : State) (t : Fin 16) : Nat := s.fld Fd.ethSessionState 0 t.val

/-- Whether a tenant has an open session: one stays open while another handshake runs (R400). -/
def State.sessOpen (s : State) (t : Fin 16) : Bool :=
  decide (s.sessState t = 2) || (decide (s.sessState t = 1) && (s.session t).hs.any (fun h => decide (h.prev = 2)))

/-- LAST_FAULT and LAST_QPN (R420). -/
def State.lastFault (s : State) (t : Fin 16) (code : Code) (qpn : Nat) : State :=
  (s.setFld Fd.ethSessionLastFault 0 t.val code.toNat).setFld Fd.ethSessionLastQpn 0 t.val qpn

/-- Clerk cycles. -/
def State.clerkNow (s : State) : Nat := s.fld (Fd.cycles .clerk)

/-- The window of R398, step 6: whether a SEQ is new. -/
def SeqWin.fresh (w : SeqWin) (seq : Nat) : Bool := decide (w.high < seq + 1024) && !w.seen.contains seq

/-- A SEQ is accepted. -/
def SeqWin.take (w : SeqWin) (seq : Nat) : SeqWin :=
  let h := max w.high seq
  ⟨h, (seq :: w.seen).filter (fun x => decide (h < x + 1024))⟩

/-- Decrypting a protected packet (R397). -/
def Keys.opened (k : Keys) (seq : Nat) (f : EthFrame) : Option (List Byte) :=
  Config.gcmOpen k.key (k.salt ++ beBytes 8 seq) f.hdr f.body f.tag

/-- What passed the checks of a port, for the connection that takes it (R398, step 7). -/
def State.pass (s : State) (conn msg : Nat) (bs : List Byte) : State := { s with eth := { s.eth with passed := s.eth.passed ++ [⟨conn, msg, bs⟩] } }

/-- The first of those for a connection and, at connection 0, a message is taken up. -/
def State.takePassed (s : State) (conn msg : Nat) : State :=
  match s.eth.passed.find? (fun p => decide (p.conn = conn) && (decide (conn ≠ 0) || decide (p.msg = msg))) with
  | some p => { s with eth := { s.eth with passed := s.eth.passed.erase p } }
  | none => s

/-- Numbers of the messages in the order of R400, which gives none (log entry 68). -/
def msgHello : Nat := 0
def msgReport : Nat := 1
def msgFinish : Nat := 2
def msgQpOpen : Nat := 3
def msgQpOpened : Nat := 4
def msgQpClose : Nat := 5
def msgClose : Nat := 6

/-- MSG of an owner command (R427). -/
def msgOwner : Nat := 0x10

/-- The messages that a host sends, and whether they are protected (R400). -/
def msgFits (msg : Nat) (prot : Bool) : Bool :=
  if prot then decide (msg = msgQpOpen ∨ msg = msgQpClose ∨ msg = msgClose) else decide (msg = msgHello ∨ msg = msgFinish)

/-- A segment joins its message (R400): duplicates are taken once; the message, where it is whole now. -/
def State.joinSegment (s : State) (e : Nat) (f : EthFrame) (prot : Bool) (body : List Byte) : Option (List Byte) × State :=
  let seg := fieldB body 1 1
  let x : HsJoin := ⟨e, f.srcIp, f.srcPort, prot, fieldB body 0 1, fieldB body 2 1, ofBe (sliceB body 4 4), []⟩
  if x.nseg ≤ seg then (none, s)
  else
    let have_ := ((s.eth.joins.find? (fun j => decide ({ j with segs := [] } = x))).map (fun j => j.segs)).getD []
    let rest := s.eth.joins.filter (fun j => decide ({ j with segs := [] } ≠ x))
    let segs := if have_.any (fun y => decide (y.1 = seg)) then have_ else have_ ++ [(seg, body.drop 8)]
    if segs.length < x.nseg then (none, { s with eth := { s.eth with joins := rest ++ [{ x with segs }] } })
    else
      (some (((List.range x.nseg).flatMap (fun i => ((segs.find? (fun y => decide (y.1 = i))).map (fun y => y.2)).getD [])).take x.len),
        { s with eth := { s.eth with joins := rest } })

/-- A segment of a handshake message (R400): a message that is whole waits for the Clerk, once, in a queue of 32; a HELLO that finds it
full is counted (R423). One whose PROT is not that of its MSG is dropped. -/
def State.takeHandshake (s : State) (e : Nat) (f : EthFrame) (prot : Bool) (body : List Byte) : State :=
  let msg := fieldB body 0 1
  if !msgFits msg prot then s
  else
    match s.joinSegment e f prot body with
    | (some bs, s1) =>
      if s1.eth.passed.contains ⟨0, msg, bs⟩ then s1
      else if s1.eth.passed.countP (fun p => decide (p.conn = 0)) < 32 then s1.pass 0 msg bs
      else if msg = msgHello then s1.bump Fd.ethHelloDropCnt e else s1
    | (none, s1) => s1

/-- A tag failure (R398, step 5). -/
def State.integrityFail (s : State) (e : Nat) (t : Fin 16) (qpn : Nat) : State :=
  (s.bump Fd.ethIntegrityFailCnt e).lastFault t cIntegrityFail qpn

/-- The bytes of a HELLO (R400). -/
def helloBytes (m : HelloMsg) : List Byte :=
  [m.tenant, (if m.sack then 1 else 0)] ++ sliceB m.nonce 0 32 ++ sliceB m.point 0 97 ++ sliceB m.kemKey 0 1568

/-- The key and SALT of a direction of a queue pair, or of the session for QPN 0 (R403). -/
def deriveKeys (prk : List Byte) (dir qpn : Nat) : Keys :=
  let okm := Config.hkdfExpand prk (beBytes 1 dir ++ beBytes 3 qpn) 36
  ⟨sliceB okm 0 32, sliceB okm 32 4⟩

/-- The key material of a handshake whose REPORT is signed (R403). -/
def Handshake.prk (h : Handshake) : List Byte :=
  Config.hkdfExtract (Config.sha384 (helloBytes h.hello ++ h.report))
    (Config.ecdhSecret h.draw h.hello.point ++ Config.mlkemSecret h.draw h.hello.kemKey)

/-- Whether a session's, or a handshake's, source is that of a frame at a port (R398, step 4). -/
def Session.from (x : Session) (e : Nat) (f : EthFrame) : Bool :=
  decide (x.port = e) && decide (x.ip = f.srcIp) && decide (x.udp = f.srcPort)
def Handshake.from (h : Handshake) (e : Nat) (f : EthFrame) : Bool :=
  decide (h.port = e) && decide (h.hello.srcIp = f.srcIp) && decide (h.hello.srcPort = f.srcPort)

/-- The session of a port that a protected handshake message belongs to (R398, step 4). -/
def State.sessionFrom (s : State) (e : Nat) (f : EthFrame) : Option (Fin 16) :=
  (List.finRange 16).find? (fun t =>
    let x := s.session t
    (s.sessOpen t && x.from e f) || (decide (s.sessState t = 1) && x.hs.any (fun h => h.from e f)))

/-- The key of the session that opens a protected message, and its window: that of the open session it comes from, else that of the
handshake, which has one once its REPORT is signed (R403). -/
def State.protKey (s : State) (t : Fin 16) (e : Nat) (f : EthFrame) : Option (Keys × SeqWin) :=
  let x := s.session t
  if s.sessOpen t && x.from e f then some (x.keyIn, x.win)
  else
    match x.hs with
    | some h => if h.signed then some (deriveKeys h.prk 0 0, h.win) else none
    | none => none

/-- The window after a message has been accepted. -/
def State.putWin (s : State) (t : Fin 16) (e : Nat) (f : EthFrame) (w : SeqWin) : State :=
  let x := s.session t
  if s.sessOpen t && x.from e f then s.setSession t { x with win := w }
  else s.setSession t { x with hs := x.hs.map (fun h => { h with win := w }) }

/-- A protected handshake message (R398, steps 4 to 7). -/
def State.takeProt (s : State) (e : Nat) (f : EthFrame) (seq : Nat) : State :=
  match s.sessionFrom e f with
  | none => s.bump Fd.ethStrangerCnt e
  | some t =>
    match s.protKey t e f with
    | none => s.integrityFail e t 0
    | some (k, w) =>
      match k.opened seq f with
      | none => s.integrityFail e t 0
      | some bs =>
        if !w.fresh seq then s.bump Fd.ethReplayDropCnt e
        else (s.putWin t e f (w.take seq)).takeHandshake e f true bs

/-- A CNP for a packet marked CE: at most one per queue pair in 50 µs, 40,000 Clerk cycles (R408). -/
def State.congested (s : State) (q : Qp) : State :=
  let now := s.clerkNow
  if q.cnpAt.any (fun c => decide (now < c + 40000)) then s
  else (s.bump Fd.ethCnpTxCnt q.port).qpSend { q with cnpAt := some now } [.cnp]

/-- The bitmap of a SACK block (R407). -/
def Qp.bitmap (q : Qp) : List Bool :=
  (List.range 256).map (fun i =>
    let p := (q.expPsn + i + 1) % 2 ^ 24
    q.beyond.contains p || q.held.any (fun h => decide (h.1 = p)))

/-- An open queue pair by its number. -/
def State.qp (s : State) (n : Nat) : Option Qp := s.eth.qps.find? (fun q => decide (q.qpn = n) && !q.err)

/-- An ACK or NAK of a queue pair, with its SACK block where the extension is used. -/
def State.ackQp (s : State) (qpn psn kind : Nat) : State :=
  match s.qp qpn with
  | none => s
  | some q => s.qpSend q [.ack psn kind (if q.sack then q.expPsn else 0) (if q.sack then q.bitmap else [])]

/-- The BTH opcodes of the operations that get NAK Invalid Request (R395): SEND, WRITE with immediate, SEND with invalidate, which memory
windows use; the numbers are those of RoCE v2 (log entry 69). -/
def opRefused (op : Nat) : Bool := decide (op ∈ [0x00, 0x01, 0x02, 0x03, 0x04, 0x05, 0x09, 0x0B, 0x16, 0x17])

/-- A DATA frame (R398, steps 4 to 7, R408). -/
def State.takeData (s : State) (e : Nat) (f : EthFrame) (conn seq : Nat) : State :=
  match s.eth.qps.find? (fun q => decide (q.qpn = conn) && !q.err && decide (q.port = e) && decide (q.hostIp = f.srcIp) && decide (q.hostUdp = f.srcPort)) with
  | none => s.bump Fd.ethStrangerCnt e
  | some q =>
    match q.keyIn.opened seq f with
    | none => s.integrityFail e q.t conn
    | some bs =>
      if !q.win.fresh seq then s.bump Fd.ethReplayDropCnt e
      else
        let q1 := { q with win := q.win.take seq }
        let s1 := s.putQp q1
        let s2 := if f.ce then s1.congested q1 else s1
        let op := fieldB bs 0 1
        if opRefused op then (s2.ackQp conn (ofBe (sliceB bs 9 3)) 3).errQps (fun x => decide (x.qpn = conn)) else s2.pass conn op bs

/-- An OWNER frame's segment of a command (R400, R427): a command that is whole enters the queue of 8 (R423). -/
def State.takeSegment (s : State) (e : Nat) (f : EthFrame) : State :=
  if fieldB f.body 0 1 ≠ msgOwner then s
  else
    match s.joinSegment e f false f.body with
    | (none, s1) => s1
    | (some bs, s1) =>
      if 8 ≤ s1.clk.ownerQ.length then s1.bump Fd.moduleOwnerDropCnt
      else { s1 with clk := { s1.clk with ownerQ := s1.clk.ownerQ ++ [(.eth e f.srcIp f.srcPort, bs)] } }

/-- Whether the Clerk takes owner commands in its phase (R400, R448). -/
def State.ownerTaken (s : State) : Bool := s.clk.phase ∈ [Phase.running, .hold, .recovery]

/-- A frame past the first two steps of R398. -/
def State.ethFrame (s : State) (e : Nat) (f : EthFrame) : State :=
  let b0 := fieldB f.hdr 0 1
  let kind := b0 / 16
  let prot := (fieldB f.hdr 1 1).testBit 1
  let conn := ofBe (sliceB f.hdr 2 3)
  let seq := ofBe (sliceB f.hdr 8 8)
  let locked := s.flag Fd.resetLockBootLock
  if b0 % 16 ≠ 1 ∨ 3 ≤ kind then s.bump Fd.ethStrangerCnt e
  else if kind = 2 then (if s.ownerTaken then s.takeSegment e f else s.bump Fd.moduleOwnerDropCnt)
  else if kind = 1 then (if prot then s.takeProt e f seq else s.takeHandshake e f false f.body)
  else if !locked then s.bump Fd.ethStrangerCnt e
  else s.takeData e f conn seq

/-- Whether a frame fits the port's MAC layer (R395): its length, and the port's 802.1Q tag or none. -/
def State.tagFits (s : State) (e : Nat) (f : EthFrame) : Bool :=
  decide (f.len ≤ 9216) && decide (f.vlan = if s.flag Fd.ethVlanTagged e then some (BitVec.ofNat 12 (s.fld Fd.ethVlanVid e)) else none)

/-- The port's IPv6 address. -/
def State.ethIpv6 (s : State) (e : Nat) : Nat := s.fld Fd.ethIpv6Lo e + 2 ^ 64 * s.fld Fd.ethIpv6Hi e

/-- Whether a frame asks for the port's address (R398, step 1). -/
def State.asks (s : State) (e : Nat) (f : EthFrame) : Bool :=
  s.tagFits e f && (match f.net with
    | .arp request target => request && decide (target.toNat = s.fld Fd.ethIpv4 e)
    | .neighbour solicit target => solicit && decide (target.toNat = s.ethIpv6 e)
    | _ => false)

/-- Whether a frame is addressed to the port and supported (R395; R398, step 2). -/
def State.takes (s : State) (e : Nat) (f : EthFrame) : Bool :=
  let encap := fun (u : Option (BitVec 16)) => decide (u.map (fun x => x.toNat) = some (s.fld Fd.ethEncapPort))
  s.tagFits e f && decide (f.mac.toNat = s.fld Fd.ethMac e) && (match f.net with
    | .ip4 dst plain udp => plain && encap udp && decide (dst.toNat = s.fld Fd.ethIpv4 e)
    | .ip6 dst plain udp => plain && encap udp && decide (dst.toNat = s.ethIpv6 e)
    | _ => false)

/-- ETH_FRAME_RECEIVE: the checks of R398, in their order. -/
def execEthFrameReceive (e : Fin 4) (f : EthFrame) (s : State) : Res :=
  .next (if !s.ethUp e.val then s
    else
      let s0 := s.bump Fd.ethRxFrames e.val
      let s1 := if f.ce then s0.bump Fd.ethCeRxCnt e.val else s0
      if s1.asks e.val f then (s1.bump Fd.ethTxFrames e.val).send (.arp e.val)
      else if !s1.takes e.val f then s1.bump Fd.ethNonroceCnt e.val
      else s1.ethFrame e.val f)

/-- ETH_PORT_DOWN: a port goes DOWN, and its queue pairs go to the error state (R404). -/
def execEthPortDown (e : Fin 4) (s : State) : Res :=
  .next (if s.fld Fd.ethState e.val = 2 then (s.setFld Fd.ethState e.val 0 0).errQps (fun q => decide (q.port = e.val)) else s)

/-- ETH_PORT_TRAINED: link training ends (R419, R437). -/
def execEthPortTrained (e : Fin 4) (s : State) : Res :=
  .next (if s.inReset .eth e.val then s else s.setFld Fd.ethState e.val 0 2)

/-! ## HELLO and REPORT -/

/-- HELLOs of a port in the last second, 800,000,000 Clerk cycles. -/
def State.recentHellos (s : State) (e : Nat) : List Nat :=
  (Tab.get (fun _ => []) s.eth.hellos e).filter (fun c => decide (s.clerkNow < c + 800000000))

/-- HELLO: a handshake begins where the HELLO is accepted (R400). -/
def execHello (e : Fin 4) (m : HelloMsg) (s0 : State) : Res :=
  let s := s0.takePassed 0 msgHello
  .next (if !s.ethUp e.val then s
    else
      let recent := s.recentHellos e.val
      let drop := s.bump Fd.ethHelloDropCnt e.val
      if h : m.tenant.toNat < 16 then
        let t : Fin 16 := ⟨m.tenant.toNat, h⟩
        let x := s.session t
        if !s.flag Fd.resetLockBootLock || !s.admitted t || decide (16 ≤ recent.length) || x.hs.any (fun y => !y.signed) then drop
        else
          let prev := match x.hs with
            | some y => y.prev
            | none => s.sessState t
          let hs : Handshake := ⟨m, e.val, s.freeCtr, false, [], prev, 0, SeqWin.init, 1⟩
          let s1 := (s.setSession t { x with hs := some hs }).setFld Fd.ethSessionState 0 t.val 1
          { s1 with
            eth := { s1.eth with hellos := Tab.set (fun _ => []) s1.eth.hellos e.val (recent ++ [s.clerkNow]) }
            freeCtr := s1.freeCtr + 1 }
      else drop)

/-- The 768 bytes of the attestation report (R401). -/
def State.attestation (s : State) (t : Fin 16) (h : Handshake) (transcript : List Byte) : List Byte :=
  beBytes 4 1 ++ beBytes 4 768 ++ beBytes 8 Config.fuseSerial ++ beBytes 2 s.moduleId ++ beBytes 1 0xB1 ++
    beBytes 1 (s.fld Fd.moduleBootWindow) ++ beBytes 4 (s.fld Fd.moduleFwVersionActive) ++ beBytes 2 s.clk.arb ++ beBytes 1 t.val ++
    beBytes 1 (s.fld Fd.ethAdmitManager 0 t.val + 2 * s.fld Fd.resetLockOwnerLock) ++ beBytes 2 (s.fld Fd.ethAdmitCgMask 0 t.val) ++
    beBytes 2 0 ++ sliceB (Config.sha384 s.flash.active.image) 0 48 ++
    sliceB (Config.sha384 ((s.flash.cfg.map Config.cfgImage).getD [])) 0 48 ++ sliceB h.hello.nonce 0 32 ++ sliceB transcript 0 48 ++
    sliceB Config.identityKeys 0 436 ++ List.replicate 124 0

/-- Sending a message of a handshake to where its HELLO came from (R398, R400): sealed with the key that the handshake has made. -/
def State.sendHandshake (s : State) (h : Handshake) (prot : Bool) (msg : Nat) (bs : List Byte) : State :=
  s.sendSegments h.port h.hello.srcIp h.hello.srcPort 1 (if prot then some (deriveKeys h.prk 1 0) else none) h.txSeq msg bs

/-- Sending a protected message in an open session (R400). -/
def State.sendSession (s : State) (t : Fin 16) (msg : Nat) (bs : List Byte) : State :=
  let x := s.session t
  (s.setSession t { x with txSeq := x.txSeq + segments bs.length }).sendSegments x.port x.ip x.udp 1 (some x.keyOut) x.txSeq msg bs

/-- The REPORT message (R400 to R402). -/
def State.reportBytes (s : State) (t : Fin 16) (h : Handshake) : List Byte :=
  let point := sliceB (Config.ecdhPoint h.draw) 0 97
  let cipher := sliceB (Config.mlkemCipher h.draw h.hello.kemKey) 0 1568
  let rep := s.attestation t h (Config.sha384 (helloBytes h.hello ++ point ++ cipher))
  point ++ cipher ++ [if h.hello.sack then 1 else 0] ++ rep ++ sliceB (Config.rsaSign rep) 0 384 ++ sliceB (Config.slhSign rep) 0 16224 ++
    sliceB Config.endorsement 0 17044

/-- REPORT: signing ends and the report is sent (R400 to R402). -/
def execReport (t : Fin 16) (s : State) : Res :=
  let x := s.session t
  .next (match x.hs with
    | none => s
    | some h =>
      if h.signed then s
      else
        let bs := s.reportBytes t h
        (s.setSession t { x with hs := some { h with signed := true, report := bs, tries := 1, txSeq := h.txSeq + segments bs.length } }).sendHandshake
          h false msgReport bs)

/-- HANDSHAKE_TIMEOUT: a REPORT without an answer is sent again, or the handshake is abandoned after RETRY attempts (R400). -/
def execHandshakeTimeout (t : Fin 16) (s : State) : Res :=
  let x := s.session t
  .next (match x.hs with
    | none => s
    | some h =>
      if !h.signed then s
      else if max 1 (s.fld Fd.ethRetransRetry) ≤ h.tries then
        ((s.setSession t { x with hs := none }).setFld Fd.ethSessionState 0 t.val h.prev).lastFault t cLinkDown 0
      else
        let n := segments h.report.length
        ((s.setSession t { x with hs := some { h with tries := h.tries + 1, txSeq := h.txSeq + n } }).bump Fd.ethRetxCnt h.port 0 n).sendHandshake
          h false msgReport h.report)

/-! ## FINISH -/

/-- Each session open sets region 0 to the whole control space (R410). -/
def State.openRegion0 (s : State) (t : Fin 16) : State :=
  let i := 64 * t.val
  ((((s.setFld Fd.ethRegionKind 0 i 2).setFld Fd.ethRegionPerm 0 i 3).setFld Fd.ethRegionLength 0 i (2 ^ 28 / 64)).setFld
    Fd.ethRegionBase 0 i 0x400000000000).inc Fd.ethRegionGen 0 i

/-- A session opens (R402, R403): it replaces the one before, whose queue pairs go to the error state. -/
def State.openSession (s : State) (t : Fin 16) (h : Handshake) : State :=
  let prk := h.prk
  let s1 := s.errQps (fun q => decide (q.t = t))
  let x : Session := { s1.session t with
    hs := none, port := h.port, ip := h.hello.srcIp, udp := h.hello.srcPort, prk := prk, keyIn := deriveKeys prk 0 0
    keyOut := deriveKeys prk 1 0, win := h.win, txSeq := h.txSeq, sack := h.hello.sack }
  ((((s1.setSession t x).setFld Fd.ethSessionState 0 t.val 2).setFld Fd.ethSessionSack 0 t.val (b2n h.hello.sack)).openRegion0 t)

/-- FINISH: the host's keys and signatures are checked; the session opens, or is refused with CLOSE (R402). -/
def execFinish (t : Fin 16) (rsaKey slhKey rsaSig slhSig : List (BitVec 8)) (s0 : State) : Res :=
  let s := s0.takePassed 0 msgFinish
  let x := s.session t
  .next (match x.hs with
    | none => s
    | some h =>
      if !h.signed then s
      else
        let t2 := Config.sha384 (helloBytes h.hello ++ h.report)
        if decide (Config.sha384 (rsaKey ++ slhKey) = x.hostKey) && Config.rsaVerify rsaKey t2 rsaSig && Config.slhVerify slhKey t2 slhSig then
          s.openSession t h
        else
          (((s.setSession t { x with hs := none }).setFld Fd.ethSessionState 0 t.val h.prev).bump Fd.ethAuthFailCnt).lastFault t cConnUnauth 0
            |>.sendHandshake h true msgClose [])

/-! ## Queue pairs -/

/-- Open queue pairs. -/
def State.openQps (s : State) (f : Qp → Bool) : Nat := s.eth.qps.countP (fun q => f q && !q.err)

/-- The port of an entry (R404): for PORT 15, of the ports that are UP, the one with the fewest open queue pairs of the tenant. -/
def State.qpPort (s : State) (t : Fin 16) (port : Nat) : Option Nat :=
  if port = 15 then
    ((List.range 4).filter s.ethUp).foldl (fun (b : Option Nat) e =>
      match b with
      | none => some e
      | some d => if s.openQps (fun q => decide (q.t = t) && decide (q.port = e)) < s.openQps (fun q => decide (q.t = t) && decide (q.port = d)) then some e
          else some d) none
  else if port < 4 && s.ethUp port then some port
  else none

/-- Path MTU by its code (R400); another code leaves it open. -/
def pmtuOf (code free : Nat) : Nat :=
  if code = 0 then 1024 else if code = 1 then 2048 else if code = 2 then 4096 else [1024, 2048, 4096].getD (free % 3) 1024

/-- The numbers that no open queue pair holds (R395). -/
def State.freeQpns (s : State) : List Nat :=
  ((List.range 4096).map (· + 1)).filter (fun n => s.eth.qps.all (fun q => q.err || decide (q.qpn ≠ n)))

/-- The answer to an entry (R400): QPN, port, start PSN, fault. -/
def openedEntry (qpn port psn : Nat) (code : Code) : List Byte := beBytes 3 qpn ++ beBytes 1 port ++ beBytes 3 psn ++ beBytes 2 code.toNat

/-- A queue pair opens: its number, its start PSN and a path MTU whose code R400 does not list are free values (log entry 22). -/
def State.addQp (s : State) (t : Fin 16) (m : QpEntry) (port : Nat) : List Byte × State :=
  let x := s.session t
  let a := s.draw
  let b := a.2.draw
  let c := b.2.draw
  let qpn := (s.freeQpns).getD (a.1 % max 1 (s.freeQpns).length) 1
  let psn := b.1 % 2 ^ 24
  let q : Qp := ⟨qpn, t, port, false, m.hostQpn.toNat, m.hostIp, m.hostPort, pmtuOf m.pmtu.toNat c.1, deriveKeys x.prk 0 qpn,
    deriveKeys x.prk 1 qpn, SeqWin.init, 1, x.sack, m.startPsn.toNat, [], [], [], psn, [], 400000000, none, none⟩
  let s1 := c.2
  let s2 := { s1 with eth := { s1.eth with qps := s1.eth.qps.filter (fun (y : Qp) => decide (y.qpn ≠ qpn)) ++ [q] } }
  (openedEntry qpn port psn cOK, s2.setFld Fd.ethSessionQps 0 t.val (s2.fld Fd.ethSessionQps 0 t.val + 1))

/-- One entry of QP_OPEN (R404). -/
def State.openEntry (s : State) (t : Fin 16) (m : QpEntry) : List Byte × State :=
  if s.fld Fd.ethAdmitMaxQp 0 t.val ≤ s.openQps (fun q => decide (q.t = t)) ∨ 4096 ≤ s.openQps (fun _ => true) then
    (openedEntry 0 m.port.toNat 0 cConnUnauth, s)
  else
    match s.qpPort t m.port.toNat with
    | none => (openedEntry 0 m.port.toNat 0 cLinkDown, s)
    | some e => s.addQp t m e

/-- The rkey of a region (R410). -/
def State.rkeyOf (s : State) (t : Fin 16) (r : Nat) : Nat := t.val * 2 ^ 28 + r * 2 ^ 22 + s.fld Fd.ethRegionGen 0 (64 * t.val + r)

/-- QP_OPEN: its entries are handled in order and answered with QP_OPENED (R400, R404). -/
def execQpOpen (t : Fin 16) (entries : List QpEntry) (s0 : State) : Res :=
  let s := s0.takePassed 0 msgQpOpen
  .next (if !s.sessOpen t then s
    else
      let r := (entries.take 256).foldl (fun (x : List Byte × State) m => let y := x.2.openEntry t m; (x.1 ++ y.1, y.2)) ([], s)
      r.2.sendSession t msgQpOpened (r.1 ++ beBytes 4 (r.2.rkeyOf t 0)))

/-- QP_CLOSE: the named queue pairs of the tenant go to the error state (R400). -/
def execQpClose (t : Fin 16) (qpns : List (BitVec 24)) (s0 : State) : Res :=
  let s := s0.takePassed 0 msgQpClose
  .next (if !s.sessOpen t then s else s.errQps (fun q => decide (q.t = t) && qpns.any (fun n => decide (n.toNat = q.qpn))))

/-- The session of a tenant ends with its queue pairs (R400, R418). -/
def State.closeSession (s : State) (t : Fin 16) : State :=
  let s1 := s.errQps (fun q => decide (q.t = t))
  let x := s1.session t
  match x.hs with
  | some h => s1.setSession t { Session.init with hostKey := x.hostKey, hs := some { h with prev := 0 } }
  | none => (s1.setSession t { Session.init with hostKey := x.hostKey }).setFld Fd.ethSessionState 0 t.val 0

/-- CLOSE: the session and every queue pair in it end (R400). -/
def execClose (t : Fin 16) (s0 : State) : Res :=
  let s := s0.takePassed 0 msgClose
  .next (if s.sessOpen t then s.closeSession t else s)

end Sys2Proof.Machine
end

