-- ==== Sys2Proof/Machine/Pool.lean ====
section
/-! DEFINITION. The pool: PAGE_MAP (R284, R285), PAGE_FREE (R286), PAGE_COW (R287), TIER_MOVE (R288), the order of page
operations (R289), deferred release (R291), ageing and eviction (R293, R294), evacuation (R298), retirement of regions (R266,
R267) and scrubbing (R271). -/

namespace Sys2Proof.Machine

/-! ## Page operations -/

/-- Whether an earlier operation on a page of a tenant runs, of another command than number n of cell c (R289): a flash operation
that names it, a PAGE_COW that is copying to or from it, or an operation that waits for a frame. -/
def State.pageBusy (s : State) (c n : Nat) (t : Fin 16) (tpn : Nat) : Bool :=
  let cows := fun (x : Nat × CellSt) (k : Cmd) => decide (k.opcode = 0x0802) && !k.finished && decide (k.tenant = some t) &&
    decide (k.u 16 4 = tpn ∨ k.u 20 4 = tpn) && decide (x.1 ≠ c ∨ k.num ≠ n)
  s.flash.ops.any (fun o => decide (o.t = t) && decide (o.tpn = tpn) && decide (o.cmd ≠ some (c, n))) ||
    s.cells.any (fun x => x.2.cmds.any (fun k => cows x k && (decide (k.issued = 1) ||
      s.pool.waiters.any (fun y => decide (y.cmd = some (x.1, k.num)))))) ||
    s.pool.waiters.any (fun y => decide (y.t = t) && decide (y.tpn = tpn) && decide (y.cmd ≠ some (c, n)) && s.stillWaits y)

/-- What the accesses of a page command carry: it takes no part in a transaction (R364). -/
def Cmd.pageCtx (k : Cmd) (c : Nat) : Ctx := { k.ctx c with txn := none }

/-- Writing an 8-byte result at a global address (R285, R287, R307). -/
def W.putResult (w : W) (a v : Nat) : W :=
  if !w.on then w else w.took (w.s.globalWrite (w.k.pageCtx w.c) (a % 2 ^ 48) (leBytes 8 v))

/-- Taking up what reading a frame gave. -/
def W.frameGot (w : W) (g : FrameGot) : W :=
  let w1 := { w with s := g.st }
  let w2 := match g.warn with
    | some x => w1.note x
    | none => w1
  match g.fault with
  | some x => w2.fail x
  | none => w2

/-- The frame that holds a page for a command of the pool (R361, R367). -/
def W.frameOf (w : W) (p : Pte) : Nat :=
  let f := p.frame / 65536
  match w.s.pool.shadows.find? (fun h => decide (h.frame = f)) with
  | some h => h.readBy (w.k.pageCtx w.c)
  | none => f

/-- Reading a page in its frame by the pool controller (R260 to R268). -/
def W.pageRead (w : W) (p : Pte) : List Byte × W :=
  if !w.on then ([], w)
  else
    let f := w.frameOf p
    let g := w.s.frameRead f
    ((Mem.flip g.st.bulk (f * 65536) g.left).bytes (f * 65536) 65536, w.frameGot g)

/-- Filling a frame with bytes. -/
def State.fillFrame (s : State) (f : Nat) (bs : List Byte) : State :=
  let m0 := s.bulk.clearRange (f * 65536) 65536
  let m := ((List.range bs.length).zip bs).foldl
    (fun m (x : Nat × Byte) => if x.2 = 0 then m else Mem.set m (f * 65536 + x.1) x.2) m0
  ({ s with bulk := m }.clearBursts f).refFrame f

/-- Pinning a page (R296). -/
def State.pinPage (s : State) (t : Fin 16) (tpn : Nat) : State :=
  let p := s.pte t.val tpn
  if p.pin then s else (s.setPte t.val tpn { p with pin := true }).addPinned t 1

/-- Unpinning a page (R285); one that waits in a retiring region is then free to move (R298). -/
def State.unpinPage (s : State) (t : Fin 16) (tpn : Nat) : State :=
  let p := s.pte t.val tpn
  if !p.pin then s
  else
    let s1 := (s.setPte t.val tpn { p with pin := false }).addPinned t (-1)
    if p.evac then s1.syncPool else s1

/-- Releasing a logical page of the flash (R291). -/
def State.freeFlash (s : State) (lpn : Nat) : State :=
  { s with flash := { s.flash with
      map := Tab.set (fun _ => none) s.flash.map lpn none
      data := s.flash.data.clearRange (lpn * 65536) 65536 } }.setFld Fd.flashInUse 0 0 (s.fld Fd.flashInUse - 1)

/-- A transaction's slot closes with its last shadow once its pages have flipped (R358, R367). -/
def State.closeSlot (s : State) (t : Fin 16) (k : Nat) : State :=
  if s.txnState t k = 4 ∧ s.pool.shadows.all (fun x => decide (x.t ≠ t ∨ x.slot ≠ k)) then
    (s.setTxnState t k 0).setFld Fd.poolTxnSlotShadows 0 (8 * t.val + k) 0
  else s

/-- A shadow goes: its frame enters deferred release and no longer counts against the pin limit (R291, R296, R364, R368, R370). -/
def State.dropShadow (s : State) (x : Shadow) (keep : Bool) : State :=
  let s1 := { s with pool := { s.pool with shadows := s.pool.shadows.filter (fun y => decide (y ≠ x)) } }
  let i := 8 * x.t.val + x.slot
  let s2 := (s1.stampFrame x.t x.shadow keep).addPinned x.t (-1)
  (s2.setFld Fd.poolTxnSlotShadows 0 i (s2.fld Fd.poolTxnSlotShadows 0 i - 1)).closeSlot x.t x.slot

/-- The last reference of a page goes (R286, R291, R364). -/
def State.dropPage (s : State) (t : Fin 16) (tpn : Nat) (keep : Bool) : State :=
  let p := s.pte t.val tpn
  let s1 := s.setPte t.val tpn Pte.invalid
  let s2 := if p.pin then s1.addPinned t (-1) else s1
  let s3 := if p.res = 1 then s2.freeFlash p.frame else s2.stampFrame t (p.frame / 65536) keep
  let s4 := (s3.pool.shadows.filter (fun x => decide (x.t = t) && decide (x.tpn = tpn))).foldl (fun z x => z.dropShadow x keep) s3
  if p.evac then s4.syncPool else s4

/-- One reference of a valid page goes (R286). -/
def State.unref (s : State) (t : Fin 16) (tpn : Nat) : State :=
  let p := s.pte t.val tpn
  if p.ref < 2 then s.dropPage t tpn true
  else
    let q := { p with ref := p.ref - 1, cow := decide (3 ≤ p.ref) }
    let s1 := s.setPte t.val tpn q
    if p.res = 0 then s1.setFrame (p.frame / 65536) { s1.frame (p.frame / 65536) with cow := q.cow } else s1

/-- One reference more (R285): not beyond 65,535. -/
def State.addRef (s : State) (t : Fin 16) (tpn : Nat) : State :=
  let p := s.pte t.val tpn
  if 65535 ≤ p.ref then s.bump Fd.poolRefSatCnt
  else
    let q := { p with ref := p.ref + 1, cow := true }
    let s1 := s.setPte t.val tpn q
    if p.res = 0 then s1.setFrame (p.frame / 65536) { s1.frame (p.frame / 65536) with cow := true } else s1

/-- Taking up what a page operation gave. -/
def W.page (w : W) (r : PageRes × State) : W :=
  let w1 := { w with s := r.2 }
  match r.1 with
  | .ok => w1
  | .wait => { w1 with halt := .wait }
  | .fault x => w1.fail x

/-- Taking up an allocation for a page: the frame. -/
def W.alloc (w : W) (t : Fin 16) (tpn : Nat) (hint : Option (Nat × Nat)) : Nat × W :=
  if !w.on then (0, w)
  else
    let r := w.s.alloc t tpn (some (w.c, w.k.num)) hint (some w.c)
    let w1 := { w with s := r.2 }
    match r.1 with
    | .got f => (f, w1)
    | .wait => (0, { w1 with halt := .wait })
    | .none => (0, w1.fail cPoolExhausted)

/-- The hinted region of a PAGE_MAP (R284); stacks 12 to 15 give no hint (R307). -/
def Cmd.hint (k : Cmd) : Option (Nat × Nat) :=
  let h := k.u 26 1
  if h.testBit 7 && decide (h % 16 < 12) then some (h % 16, bitsOf h 6 4) else none

/-- The pages of a command of one opcode whose OP is one of some, in ascending order; OP 3 completes at once. -/
def State.runPages (s : State) (c n opcode : Nat) (ops : List Nat) (f : W → Nat → W) : State :=
  match s.cmd c n with
  | none => s
  | some k =>
    if ops.contains (k.u 24 1 % 4) then
      s.runCmd c n opcode (k.u 20 4 + 1) (fun w =>
        if w.k.u 24 1 % 4 = 3 then w.finish
        else w.rowStep (w.k.u 20 4) (fun z => f z (z.k.u 16 4 + z.k.pos)))
    else s

/-- Running a page operation on a page of the command's tenant, after the checks that every one makes (R285 to R289). -/
def W.onPage (w : W) (tpn : Nat) (f : W → Fin 16 → Pte → W) : W :=
  match w.k.tenant with
  | none => w.fail cPageOwner
  | some t =>
    if !w.s.inTable t.val tpn then w.fail cPageOwner
    else if w.s.pageBusy w.c w.k.num t tpn then { w with halt := .wait }
    else
      let w1 := w.took (w.s.readPte t.val tpn)
      if w1.on then f w1 t (w1.s.pte t.val tpn) else w1

/-! ## PAGE_MAP -/

/-- Where the frame address of the page under way goes (R285). -/
def W.mapResult (w : W) (v : Nat) : W := if w.k.bit 25 2 then w else w.putResult (w.k.u 32 8 + 8 * w.k.pos) v

/-- Whether a PIN named by the command would pass the tenant's limit (R296). -/
def W.pinRefused (w : W) (t : Fin 16) (p : Pte) (named : Bool) : Bool := named && !(p.valid && p.pin) && !w.s.pinRoom t

/-- PIN named by the command is set. -/
def W.pinNamed (w : W) (t : Fin 16) (tpn : Nat) : W := if w.k.bit 25 0 then { w with s := w.s.pinPage t tpn } else w

/-- One page of PAGE_MAP ALLOC (R285). -/
def W.mapAlloc (w : W) (tpn : Nat) : W :=
  w.onPage tpn (fun w t p =>
    if w.pinRefused t p (w.k.bit 25 0) then w.fail cPoolExhausted
    else if p.valid then
      let w1 := w.page (w.s.faultIn (some (w.c, w.k.num)) (some w.c) w.k.hint t tpn)
      if !w1.on then w1 else (w1.pinNamed t tpn).mapResult (w1.s.pte t.val tpn).frame
    else
      let a := w.alloc t tpn w.k.hint
      if !a.2.on then a.2
      else
        let r := a.2.s.takeFrame t tpn a.1 (w.k.bit 25 1)
        let s1 := r.1.setPte t.val tpn { Pte.invalid with valid := true, ref := 1, owner := t.val, frame := 65536 * a.1 }
        let w1 := { a.2 with s := s1 }
        ((if r.2 then w1.moved 65536 else w1).pinNamed t tpn).mapResult (65536 * a.1))

/-- One page of PAGE_MAP REF (R285, R364). -/
def W.mapRef (w : W) (tpn : Nat) : W :=
  w.onPage tpn (fun w t p =>
    if !p.valid || p.shadow then w.fail cPageOwner
    else if w.pinRefused t p (w.k.bit 25 0) then w.fail cPoolExhausted
    else
      let w1 := if w.k.bit 25 2 then w else w.page (w.s.faultIn (some (w.c, w.k.num)) (some w.c) w.k.hint t tpn)
      if !w1.on then w1
      else (({ w1 with s := w1.s.addRef t tpn }).pinNamed t tpn).mapResult (w1.s.pte t.val tpn).frame)

/-- One page of PAGE_MAP UNPIN (R285). -/
def W.mapUnpin (w : W) (tpn : Nat) : W :=
  w.onPage tpn (fun w t p =>
    ({ w with s := if p.valid then w.s.unpinPage t tpn else w.s }).mapResult (if p.valid && p.res = 0 then p.frame else 0))

/-- PAGE_MAP_ALLOC: a started PAGE_MAP with OP ALLOC (R285), or with OP 3 (R284). -/
def execPageMapAlloc (c : Fin 256) (n : Nat) (s : State) : Res := .next (s.runPages c.val n 0x0801 [0, 3] W.mapAlloc)

/-- PAGE_MAP_REF: a started PAGE_MAP with OP REF (R285). -/
def execPageMapRef (c : Fin 256) (n : Nat) (s : State) : Res := .next (s.runPages c.val n 0x0801 [1] W.mapRef)

/-- PAGE_MAP_UNPIN: a started PAGE_MAP with OP UNPIN (R285). -/
def execPageMapUnpin (c : Fin 256) (n : Nat) (s : State) : Res := .next (s.runPages c.val n 0x0801 [2] W.mapUnpin)

/-! ## PAGE_FREE and PAGE_COW -/

/-- One page of PAGE_FREE (R286). -/
def W.freePage (w : W) (tpn : Nat) : W :=
  w.onPage tpn (fun w t p => { w with s := if p.valid then w.s.unref t tpn else w.s.bump Fd.poolFreeNopCnt })

/-- PAGE_FREE: the pages of a started PAGE_FREE (R286). -/
def execPageFree (c : Fin 256) (n : Nat) (s : State) : Res :=
  .next (match s.cmd c.val n with
    | some k => s.runCmd c.val n 0x0803 (k.u 20 4 + 1) (fun w =>
        w.rowStep (w.k.u 20 4) (fun z => z.freePage (z.k.u 16 4 + z.k.pos)))
    | none => s)

/-- The steps of PAGE_COW once the new frame holds the copy (R287): the entry of DST, ENTRY, one reference of SRC less. -/
def W.cowEnd (w : W) (t : Fin 16) (f : Nat) : W :=
  let src := w.k.u 16 4
  let dst := w.k.u 20 4
  let s1 := w.s.setPte t.val dst { Pte.invalid with valid := true, ref := 1, owner := t.val, frame := 65536 * f }
  let s2 := if w.k.bit 24 0 then s1.pinPage t dst else s1
  let w1 := ({ w with s := s2 }).moved 65536
  let w2 := if w.k.bit 24 1 then w1 else w1.putResult (w.k.u 32 8) (65536 * f)
  if w2.on then { w2 with s := w2.s.unref t src } else w2

/-- A PAGE_COW whose copy has not begun (R287, R303). -/
def W.cowBegin (w : W) (t : Fin 16) (p : Pte) : W :=
  let dst := w.k.u 20 4
  if !w.s.inTable t.val dst then w.fail cPageOwner
  else if w.s.pageBusy w.c w.k.num t dst then { w with halt := .wait }
  else if !p.valid || (w.s.pte t.val dst).valid then w.fail cPageOwner
  else if w.pinRefused t (w.s.pte t.val dst) (w.k.bit 24 0) then w.fail cPoolExhausted
  else if p.res = 0 then
    let a := w.alloc t dst none
    if !a.2.on then a.2
    else
      let g := (a.2.s.setFrame a.1 ⟨t.val, false, (a.2.s.frame a.1).refd, dst⟩).copyFrame (w.frameOf p) a.1
      let w1 := a.2.frameGot g
      if w1.on then w1.cowEnd t a.1 else { w1 with s := w1.s.dropFrame a.1 }
  else if p.lost then w.fail cFlashReadFail
  else if w.s.inReset .flash 0 then ({ w with s := w.s.flashDropped }).fail cLinkDown
  else
    let a := w.alloc t dst none
    if !a.2.on then a.2
    else
      let s0 := a.2.s.setFrame a.1 ⟨t.val, false, (a.2.s.frame a.1).refd, dst⟩
      -- a named pin is reserved until the copy has come (R296)
      let s1 := if w.k.bit 24 0 then s0.addPinned t 1 else s0
      let o : FlashOp := ⟨false, 1, some (w.c, w.k.num), t, w.k.u 16 4, p.frame, a.1, 0, none⟩
      { a.2 with
        s := { s1 with flash := { s1.flash with ops := s1.flash.ops ++ [o] } }
        k := { w.k with issued := 1, words := [(a.1 : Int)] }
        halt := .go }

/-- The work of a PAGE_COW: it ends, or goes on once its copy from flash has come. -/
def W.cow (w : W) : W :=
  if w.k.issued = 0 then
    let r := w.onPage (w.k.u 16 4) W.cowBegin
    match r.halt with
    | .wait => r
    | .fault => r.finish
    | .go => if r.k.issued = 0 then r.finish else r
  else
    match w.k.tenant, w.k.outcome with
    | some t, some [true] =>
      let s1 := if w.k.bit 24 0 then w.s.addPinned t (-1) else w.s
      let r := { w with s := s1 }.cowEnd t (w.k.words.getD 0 0).toNat
      if r.halt = .wait then r else r.finish
    | _, some _ => (w.note cFlashReadFail).finish
    | _, none => w

/-- PAGE_COW: copies a shared page (R287). -/
def execPageCow (c : Fin 256) (n : Nat) (s : State) : Res := .next (s.work c.val n [0x0802] W.cow)

/-! ## TIER_MOVE -/

/-- Beginning a flash operation of a TIER_MOVE as a transfer of its Carter queue (R133, R288): the page's place in the command
names it. -/
def W.beginFlash (w : W) (pieces : List (Nat × List Byte)) : W :=
  w.begin ⟨w.k.num, w.k.chanq, pieces, w.k.pos, none⟩

/-- Waiting for room in the Carter queue (R133). -/
def W.roomed (w : W) (f : W → W) : W := if w.s.depthRoom w.c w.k.chanq then f w else { w with halt := .wait }

/-- A command that needs the flash controller while it is in reset: LINK_DOWN (R438). -/
def W.flashed (w : W) (f : W → W) : W := if w.s.inReset .flash 0 then ({ w with s := w.s.flashDropped }).fail cLinkDown else f w

/-- One page of PROMOTE (R288). -/
def W.promotePage (w : W) (tpn : Nat) : W :=
  w.onPage tpn (fun w t p =>
    if !p.valid then w.fail cPageOwner
    else if p.res = 0 then w
    else if p.lost then w.fail cFlashReadFail
    else w.flashed fun w => w.roomed (fun w =>
      let a := w.alloc t tpn none
      if !a.2.on then a.2
      else
        let s1 := a.2.s.setFrame a.1 ⟨t.val, p.cow, (a.2.s.frame a.1).refd, tpn⟩
        let s2 := s1.setPte t.val tpn { p with res := 2, frame := a.1 * 65536 }
        let o : FlashOp := ⟨false, 0, some (w.c, w.k.num), t, tpn, p.frame, a.1, 0, none⟩
        ({ a.2 with s := { s2 with flash := { s2.flash with ops := s2.flash.ops ++ [o] } } }).beginFlash []))

/-- One page of DEMOTE (R288, R304). -/
def W.demotePage (w : W) (tpn : Nat) : W :=
  w.onPage tpn (fun w t p =>
    if !p.valid then w.fail cPageOwner
    else if p.res ≠ 0 || p.pin || p.shadow || p.evac then { w with s := w.s.bump Fd.poolDemoteSkipCnt }
    else if !w.s.flashRoom then w.fail cPoolExhausted
    else w.flashed fun w => w.roomed (fun w => ({ w with s := w.s.startDemote 3 (some (w.c, w.k.num)) t tpn }).beginFlash []))

/-- Where page i of a TIER_MOVE READ lands (R288). -/
def Cmd.tierDst (k : Cmd) (i : Nat) : Nat := k.u 28 4 + 65536 * i

/-- One page of READ (R288). -/
def W.tierPage (w : W) (tpn : Nat) : W :=
  w.onPage tpn (fun w t p =>
    if !p.valid then w.fail cPageOwner
    else if p.res = 0 then
      let r := w.pageRead p
      let w1 := r.2.lwrite (w.k.tierDst w.k.pos) r.1
      if w1.on then w1.moved 65536 else w1
    else if p.lost then w.fail cFlashReadFail
    else w.flashed fun w => w.roomed (fun w =>
      let o : FlashOp := ⟨false, 2, some (w.c, w.k.num), t, tpn, p.frame, 0, 0, none⟩
      ({ w with s := { w.s with flash := { w.s.flash with ops := w.s.flash.ops ++ [o] } } }).beginFlash
        [(ownPlace (w.k.tierDst w.k.pos), [])]))

/-- PROMOTE: a started TIER_MOVE with OP PROMOTE, or with OP 3 (R288). -/
def execPromote (c : Fin 256) (n : Nat) (s : State) : Res := .next (s.runPages c.val n 0x0804 [0, 3] W.promotePage)

/-- DEMOTE: a started TIER_MOVE with OP DEMOTE (R288). -/
def execDemote (c : Fin 256) (n : Nat) (s : State) : Res := .next (s.runPages c.val n 0x0804 [1] W.demotePage)

/-- TIER_READ: a started TIER_MOVE with OP READ (R288). -/
def execTierRead (c : Fin 256) (n : Nat) (s : State) : Res := .next (s.runPages c.val n 0x0804 [2] W.tierPage)

/-! ## Release, ageing, eviction -/

/-- Releasing a stamped frame (R291). -/
def State.releaseFrame (s : State) (x : Stamped) : State :=
  let s1 := { s with pool := { s.pool with stamped := s.pool.stamped.erase x } }
  let s2 := s1.setFrame x.frame ⟨if x.keep then 48 + x.t.val else 32, false, false, 0⟩
  (s2.setFld Fd.poolEpochPending 0 x.t.val (s2.fld Fd.poolEpochPending 0 x.t.val - 1)).syncPool

/-- A stamped frame is released once no command of its window runs (R291). -/
def State.frameRelease (s : State) (i : Nat) : State :=
  match s.pool.stamped[i]? with
  | some x => if s.drained x.t x.epoch 64 then s.releaseFrame x else s
  | none => s

/-- The sweep at one frame: its page ages, unless the frame was referenced (R293). -/
def State.ageFrame (s : State) (f : Nat) : State :=
  let x := s.frame f
  if 16 ≤ x.tag then s
  else
    let p := s.pte x.tag x.tpn
    if !p.valid || decide (p.res ≠ 0) || decide (p.frame ≠ 65536 * f) || p.pin || p.shadow then s
    else if x.refd then (s.setPte x.tag x.tpn { p with age := 0 }).setFrame f { x with refd := false }
    else s.setPte x.tag x.tpn { p with age := satTo 255 (p.age + 1) }

/-- AGE_SWEEP: a sweep of every tier-1 entry (R293); a period of 0 stops ageing (R305). -/
def execAgeSweep (s : State) : Res :=
  .next (if s.fld Fd.poolAgePeriod = 0 then s else s.pool.frames.foldl (fun z e => z.ageFrame e.1) s)

/-- EVICTION: the pool keeps FREE_TARGET frames free (R294). -/
def execEviction (s : State) : Res :=
  .next (if s.fld Fd.poolFree < s.fld Fd.poolFreeTarget && s.flashRoom then
    match s.victim with
    | some (_, t, tpn, _) => if s.inReset .flash 0 then s.flashDropped else s.startDemote 4 none t tpn
    | none => s
  else s)

/-! ## Retiring regions -/

/-- Whether a frame lies in a region. -/
def inRegion (m r f : Nat) : Bool := decide (stackOf (65536 * f) = m) && decide (regionOf (65536 * f) = r)

/-- A page leaves a retiring region (R298): to a frame outside it, or to flash where none is free; a pinned page is marked. A page that
has a shadow moves with it; the frame of a shadow stays until its transaction has ended, as its address was handed out (R361; log
entry 31). A page whose frame cannot be read stays. -/
def State.evacPage (s : State) (f : Nat) : State :=
  let x := s.frame f
  if h : x.tag < 16 then
    let t : Fin 16 := ⟨x.tag, h⟩
    let p := s.pte x.tag x.tpn
    if !p.valid || decide (p.res ≠ 0) || decide (p.frame ≠ 65536 * f) then s
    else if p.pin then s.setPte x.tag x.tpn { p with evac := true }
    else
      match s.chooseFrame none none with
      | some g =>
        let c := (s.setFrame g { x with refd := (s.frame g).refd }).copyFrame f g
        if c.fault.isSome then c.st.dropFrame g
        else
          let s1 := { c.st with pool := { c.st.pool with
            shadows := c.st.pool.shadows.map (fun (y : Shadow) => if y.frame = f then { y with frame := g } else y) } }
          ((s1.setPte x.tag x.tpn { p with evac := false, frame := 65536 * g }).stampFrame t f true).syncPool
      | none =>
        if p.shadow then s
        else if s.inReset .flash 0 then s.flashDropped
        else if s.flashRoom then (s.setPte x.tag x.tpn { p with evac := false }).startDemote 6 none t x.tpn
        else s
  else s

/-- The lowest run of n free frames in usable regions of a stack (R282): the frame reached, the run so far, frames left. -/
def State.findRun (s : State) (n : Nat) : Nat → Nat → Nat → Option Nat
  | 0, _, _ => none
  | k + 1, f, run =>
    if run = n then some (f - n)
    else if s.frameFree f && s.usable (stackOf (65536 * f)) (regionOf (65536 * f)) then State.findRun s n k (f + 1) (run + 1)
    else State.findRun s n k (f + 1) 0

/-- The lowest run of n consecutive free frames inside one stack, stacks ascending (R282). A stack where n needs a region that
is not usable has none. -/
def State.tableRun (s : State) (n : Nat) : Option Nat :=
  (List.range 12).findSome? (fun m =>
    if (8 ≤ n && (List.range 8).any (fun r => !s.usable m r)) || (List.range 8).all (fun r => !s.usable m r) then none
    else s.findRun n (2 ^ 20 + 1) (m * 2 ^ 20) 0)

/-- Frames of a page table (R282). -/
def tableFrames (entries : Nat) : Nat := ceilDiv (16 * entries) 65536

/-- A page table with frames in a region moves whole (R298). -/
def State.evacTable (s : State) (t m r : Nat) : State :=
  let n := tableFrames (s.fld Fd.poolPtEntries 0 t)
  let f := s.fld Fd.poolPtBase 0 t / 65536
  if (List.range n).all (fun i => !inRegion m r (f + i)) ∨ s.flash.ops.any (fun o => decide (o.t.val = t)) then s
  else
    match s.tableRun n with
    | none => s
    | some g =>
      let c := (List.range n).foldl (fun (z : Bool × State) i =>
        let r := (z.2.setFrame (g + i) ⟨16 + t, false, (z.2.frame (g + i)).refd, 0⟩).copyFrame (f + i) (g + i)
        (z.1 || r.fault.isSome, r.st)) (false, s)
      -- a table that cannot be read whole stays
      let old := if c.1 then g else f
      let s1 := (List.range n).foldl (fun z i => z.setFrame (old + i) FrameInfo.free) c.2
      if c.1 then s1.syncPool else (s1.setFld Fd.poolPtBase 0 t (65536 * g)).syncPool

/-- A region in RETIRING (R266, R267). -/
def State.retiring (s : State) (m r : Nat) : Bool :=
  s.bitOf Fd.stackStateRetiring m 0 r && !s.bitOf Fd.stackStateRetired m 0 r

/-- REGION_EVACUATE: the pool empties a retiring region (R298). -/
def execRegionEvacuate (m : Fin 12) (r : Fin 8) (s : State) : Res :=
  .next (if s.retiring m.val r.val then
    let s1 := (s.pool.frames.filter (fun e => inRegion m.val r.val e.1)).foldl (fun z e =>
      if z.flash.ops.any (fun o => decide (o.t.val = (z.frame e.1).tag) && decide (o.tpn = (z.frame e.1).tpn)) then z
      else z.evacPage e.1) s.syncPool
    ((List.range 16).foldl (fun z t => z.evacTable t m.val r.val) s1).syncPool
  else s)

/-- Whether the pool reports a region empty (R298); its own frames are no pages (log entry 7). -/
def State.regionEmpty (s : State) (m r : Nat) : Bool :=
  s.pool.frames.all (fun e => !inRegion m r e.1 || s.frameFree e.1 || decide (e.2.tag = 33)) && s.pool.stamped.all (fun x => !inRegion m r x.frame)

/-- Whether a region has a channel with three or more lost pins (R266). -/
def State.regionBroken (s : State) (m r : Nat) : Bool :=
  (List.range 16).any (fun c => decide (3 ≤ (s.lostPins m (16 * r + c)).length))

/-- Retiring a region (R266, R267): pages that waited for their pin there wait no longer. -/
def State.retireRegion (s : State) (m r : Nat) : State :=
  let s1 := ((s.setBit Fd.stackStateInService m 0 r false).setBit Fd.stackStateRetiring m 0 r false).setBit Fd.stackStateRetired m 0 r true
  let s2 := if s.bitOf Fd.stackStateInService m 0 r then s1.setFld Fd.stackCapacity m 0 (s1.fld Fd.stackCapacity m - 131072) else s1
  (s2.pool.frames.foldl (fun z e =>
    let p := z.pte e.2.tag e.2.tpn
    if inRegion m r e.1 && decide (e.2.tag < 16) && p.valid && p.evac && decide (p.frame = 65536 * e.1) then
      z.setPte e.2.tag e.2.tpn { p with evac := false } else z) s2).syncPool

/-- REGION_RETIRE: the Clerk retires a retiring region that is empty, or a region with three lost pins in a channel (R266). -/
def execRegionRetire (m : Fin 12) (r : Fin 8) (s : State) : Res :=
  .next (if (s.retiring m.val r.val && s.regionEmpty m.val r.val) ||
      (!s.bitOf Fd.stackStateRetired m.val 0 r.val && s.regionBroken m.val r.val) then s.retireRegion m.val r.val
    else s)

/-! ## Scrubbing -/

/-- The next place of the scrubber from an offset on that lies in a region that is not retired (R271); offsets from 2^36 on
belong to the next pass. -/
def State.scrubFrom (s : State) (m : Nat) : Nat → Nat → Option Nat
  | 0, _ => none
  | n + 1, o =>
    let a := m * 2 ^ 36 + o % 2 ^ 36
    if s.bitOf Fd.stackStateInService m 0 (regionOf a) && !s.retired a then some o
    else State.scrubFrom s m n ((o / 65536 + 1) * 65536)

/-- One scrub read (R271): a corrected burst is written back; a pass ends with the last burst of a region that is not retired and clears
the suspect counts (R264). -/
def State.scrub (s : State) (m : Nat) : State :=
  match s.scrubFrom m 9 (Tab.get (fun _ => 0) s.stk.scrubAt m) with
  | none => s
  | some o =>
    let s0 := if o < 2 ^ 36 then s
      else { s.setFld Fd.stackScrubPasses m 0 ((s.fld Fd.stackScrubPasses m + 1) % 2 ^ 16) with
        stk := { s.stk with suspect := s.stk.suspect.filter (fun e => decide (e.1 / (18 * 128) ≠ m)) } }
    let a := m * 2 ^ 36 + o % 2 ^ 36
    let r := s0.burstRead a
    let s1 := match r.1 with
      | none => r.2.2
      | some left =>
        let base := left.foldl (fun mm (e : Nat × Byte) => Mem.set mm (a + e.1) (Mem.get mm (a + e.1) ^^^ e.2)) r.2.2.bulk
        { r.2.2 with bulk := base }.setBurstErr a []
    let next := o % 2 ^ 36 + 64
    let more := decide (next < 2 ^ 36) && (s1.scrubFrom m 9 next).any (fun x => decide (x < 2 ^ 36))
    if more then { s1 with stk := { s1.stk with scrubAt := Tab.set (fun _ => 0) s1.stk.scrubAt m next } }
    else
      { s1.setFld Fd.stackScrubPasses m 0 ((s1.fld Fd.stackScrubPasses m + 1) % 2 ^ 16) with
        stk := { s1.stk with
          suspect := s1.stk.suspect.filter (fun e => decide (e.1 / (18 * 128) ≠ m))
          scrubAt := Tab.set (fun _ => 0) s1.stk.scrubAt m 0 } }

/-- SCRUB_READ: the scrubber of a stack reads its next burst (R271); a period of 0 stops it. -/
def execScrubRead (m : Fin 12) (s : State) : Res :=
  .next (if s.fld Fd.stackScrubPeriod m.val = 0 || s.inReset .stack m.val then s else s.scrub m.val)

end Sys2Proof.Machine
end

