-- ==== Sys2Proof/Machine/Flash.lean ====
section
/-! DEFINITION. The flash: the ends of reads and writes (R288, R303), wear levelling (R301), read-disturb refresh (R302) and block
retirement (R304). -/

namespace Sys2Proof.Machine

/-! ## Blocks -/

/-- Blocks of the flash (R300). -/
def flashBlocks : Nat := 1907348

/-- Logical pages of a block (R300). -/
def blockPages : Nat := 256

/-- Erase count of a block. -/
def State.erased (s : State) (b : Nat) : Nat := Tab.get (fun _ => 0) s.flash.eraseCnt b

/-- Logical pages that a block holds. -/
def State.pagesIn (s : State) (b : Nat) : List Nat := (s.flash.map.filter (fun e => decide (e.2 = some b))).map (fun e => e.1)

/-- The best of some blocks by erase count, the lowest number of those. -/
def State.pickBlock (s : State) (better : Nat → Nat → Bool) (bs : List Nat) : Option Nat :=
  bs.foldl (fun (b : Option Nat) x =>
    match b with
    | none => some x
    | some y => if better (s.erased x) (s.erased y) || (decide (s.erased x = s.erased y) && decide (x < y)) then some x else some y) none

/-- Blocks that the layer looks at: those that it has named, and the lowest two others, which stand for all that were never
used. A retired block and one that is bad from the factory are none of them (R300, R304). -/
def State.knownBlocks (s : State) : List Nat :=
  let named := s.flash.map.filterMap (fun e => e.2) ++ s.flash.eraseCnt.map (fun e => e.1)
  let fresh := ((List.range (named.length + s.flash.retired.length + 2)).filter (fun b =>
    !named.contains b && !s.flash.retired.contains b)).take 2
  (((named.eraseDups.filter (fun b => !s.flash.retired.contains b)) ++ fresh).filter (fun b => decide (b < flashBlocks)))

/-- The block that a write goes to (R301): with room for a page, with the lowest erase count, the lowest number of those. -/
def State.openBlock (s : State) (avoid : Nat) : Option Nat :=
  s.pickBlock (fun x y => decide (x < y)) (s.knownBlocks.filter (fun b =>
    decide (b ≠ avoid) && !s.flash.failing.contains b && decide ((s.pagesIn b).length < blockPages)))

/-- ERASE_MIN and ERASE_MAX (R306). -/
def State.syncWear (s : State) : State :=
  let es := s.flash.eraseCnt.map (fun e => e.2)
  let low := if es.length < flashBlocks then 0 else es.foldl min (es.headD 0)
  (s.setFld Fd.flashWearEraseMin 0 0 low).setFld Fd.flashWearEraseMax 0 0 (es.foldl max 0)

/-- Erasing a block. -/
def State.eraseBlock (s : State) (b : Nat) : State :=
  { s with flash := { s.flash with
    eraseCnt := Tab.set (fun _ => 0) s.flash.eraseCnt b (satTo (2 ^ 16 - 1) (s.erased b + 1))
    readCnt := Tab.set (fun _ => 0) s.flash.readCnt b 0 } }.syncWear

/-- Placing a logical page in a block. -/
def State.placePage (s : State) (lpn : Nat) (b : Option Nat) : State :=
  { s with flash := { s.flash with map := Tab.set (fun _ => none) s.flash.map lpn b } }

/-- Rewriting the pages of a block into other blocks (R302, R304). -/
def State.emptyBlock (s : State) (b : Nat) : State :=
  (s.pagesIn b).foldl (fun z l => match z.openBlock b with
    | some d => z.placePage l (some d)
    | none => z) s

/-- A block whose program failed, or whose reads reached the last level, is to be retired (R304). -/
def State.failBlock (s : State) (b : Nat) : State :=
  if s.flash.failing.contains b then s else { s with flash := { s.flash with failing := s.flash.failing ++ [b] } }

/-! ## Reads and writes that end -/

/-- Removing a flash operation. -/
def State.endFlash (s : State) (o : FlashOp) : State :=
  { s with flash := { s.flash with ops := s.flash.ops.erase o } }

/-- Changing the command that a flash operation serves; the transfer that stood for it in a TIER_MOVE ends (R133). -/
def State.onServed (s : State) (o : FlashOp) (f : W → W) : State :=
  match o.cmd with
  | none => s
  | some cn =>
    match s.cmd cn.1 cn.2 with
    | none => s
    | some k =>
      let w := f ⟨s, cn.1, k, .go⟩
      let u := o.tpn - k.u 16 4
      let w1 := match (s.cell cn.1).xfers.find? (fun x => decide (x.num = k.num) && decide (x.unit = u)) with
        | some x => if k.opcode = 0x0804 then w.endXfer x else w
        | none => w
      w1.s.putCmd cn.1 w1.k

/-- The bytes of a logical page. -/
def State.flashPage (s : State) (lpn : Nat) : List Byte := s.flash.data.bytes (lpn * 65536) 65536

/-- A read that has delivered its page (R285, R287, R288). -/
def State.readLanded (s : State) (o : FlashOp) : State :=
  let p := s.pte o.t.val o.tpn
  let bs := s.flashPage o.lpn
  if o.purpose = 0 then
    let s1 := ((s.fillFrame o.frame bs).setPte o.t.val o.tpn { p with res := 0, frame := 65536 * o.frame }).freeFlash o.lpn
    (s1.bump Fd.poolFaultinCnt).onServed o (fun w => w.moved 65536)
  else if o.purpose = 7 then s.onServed o (fun w => { w with k := { w.k with outcome := some [true] } })
  else if o.purpose = 1 then (s.fillFrame o.frame bs).onServed o (fun w => { w with k := { w.k with outcome := some [true] } })
  else
    s.onServed o (fun w =>
      let w1 := w.lwrite (w.k.tierDst (o.tpn - w.k.u 16 4)) bs
      if w1.on then w1.moved 65536 else w1)

/-- A read that failed at the last level (R303): the page is LOST, and a frame allocated for it goes back. -/
def State.readFailed (s : State) (o : FlashOp) : State :=
  ((s.bump Fd.flashReadFailCnt).undoFlash o true).onServed o (fun w =>
    if o.purpose = 1 ∨ o.purpose = 7 then { w with k := { w.k with outcome := some [false] } }
    else if w.k.opcode = 0x0804 then (w.note cFlashReadFail).finish
    else w)

/-- A read of a page counts at its block (R302). -/
def State.countRead (s : State) (lpn : Nat) : State :=
  match Tab.get (fun _ => none) s.flash.map lpn with
  | some b => { s with flash := { s.flash with readCnt := Tab.upd (fun _ => 0) s.flash.readCnt b (· + 1) } }
  | none => s

/-- A read of a page ends: it delivers the page, goes on at the next retry level, or fails after the eighth (R303). -/
def State.flashReadDone (s : State) (i : Nat) (ok : Bool) : State :=
  match s.flash.ops[i]? with
    | none => s
    | some o =>
      if o.write then s
      else
        let s1 := s.countRead o.lpn
        if ok then (s1.endFlash o).readLanded o
        else if o.level < 8 then
          let s2 := if o.level = 0 then s1.bump Fd.flashRetryCnt else s1
          { s2 with flash := { s2.flash with ops := s2.flash.ops.set i { o with level := o.level + 1 } } }
        else
          let s2 := match Tab.get (fun _ => none) s1.flash.map o.lpn with
            | some b => s1.failBlock b
            | none => s1
          (s2.endFlash o).readFailed o

/-- A page has been written to flash, as its frame was read (R288, R291, R294): its entry names the logical page, its frame enters
deferred release. -/
def State.writeLanded (s : State) (o : FlashOp) (b : Nat) (left : List (Nat × Byte)) (warn : Option Code) : State :=
  let p := s.pte o.t.val o.tpn
  let data := (s.flash.data.copyFrom s.bulk (o.frame * 65536) (o.lpn * 65536) 65536).flip (o.lpn * 65536) left
  let s1 := { s with flash := { s.flash with data } }
  let s2 := (s1.placePage o.lpn (some b)).setFld Fd.flashInUse 0 0 (s1.fld Fd.flashInUse + 1)
  let s3 := (s2.setPte o.t.val o.tpn { p with res := 1, frame := o.lpn }).stampFrame o.t o.frame true
  let s4 := if o.purpose = 4 then s3.bump Fd.poolEvictCnt else s3
  s4.onServed o (fun w => (match warn with
    | some x => w.note x
    | none => w).moved 65536)

/-- A write that failed: the page stays in its frame, and a DEMOTE ends with POOL_EXHAUSTED (R288), or with the fault that reading the
frame met (R268). -/
def State.writeFailed (s : State) (o : FlashOp) (code : Code) : State :=
  (s.undoFlash o false).onServed o (fun w => (w.note code).finish)


/-- A page write for DEMOTE or for the pool ends (R288). It fails as well where the flash has no room left
(R304) or the frame cannot be read (R268). -/
def State.flashWriteDone (s : State) (i : Nat) (ok : Bool) : State :=
  match s.flash.ops[i]? with
    | none => s
    | some o =>
      if !o.write then s
      else
        let s1 := s.endFlash o
        match s1.openBlock flashBlocks with
        | some b =>
          if !ok then (s1.failBlock b).writeFailed o cPoolExhausted
          else if s1.fld Fd.flashCapacity ≤ s1.fld Fd.flashInUse then s1.writeFailed o cPoolExhausted
          else
            let g := s1.frameRead o.frame
            (match g.fault with
              | some x => g.st.writeFailed o x
              | none => g.st.writeLanded o b g.left g.warn)
        | none => s1.writeFailed o cPoolExhausted

/-! ## The translation layer -/

/-- WEAR_LEVEL_MOVE: where the spread of erase counts exceeds SPREAD, the pages of the least-erased block that holds any move to
the most-erased block that holds none (R301). -/
def execWearLevelMove (s : State) : Res :=
  .next (if s.fld Fd.flashWearSpread < s.fld Fd.flashWearEraseMax - s.fld Fd.flashWearEraseMin then
    match s.pickBlock (fun x y => decide (x < y)) (s.knownBlocks.filter (fun b => !(s.pagesIn b).isEmpty)),
        s.pickBlock (fun x y => decide (y < x)) (s.knownBlocks.filter (fun b => (s.pagesIn b).isEmpty && !s.flash.failing.contains b)) with
    | some a, some b => ((s.pagesIn a).foldl (fun z l => z.placePage l (some b)) s).eraseBlock a
    | _, _ => s
  else s)

/-- READ_DISTURB_REFRESH: a block with 100,000 reads since its last erase is rewritten and erased (R302). -/
def execReadDisturbRefresh (blk : Nat) (s : State) : Res :=
  .next (if Tab.get (fun _ => 0) s.flash.readCnt blk < 100000 then s
    else ((s.emptyBlock blk).eraseBlock blk).bump Fd.flashRefreshCnt)

/-- Retiring a block: its readable pages are rewritten elsewhere and the capacity falls by its pages (R304). -/
def State.retireBlock (s : State) (blk : Nat) : State :=
  let s1 := s.emptyBlock blk
  let s2 := { s1 with flash := { s1.flash with retired := s1.flash.retired ++ [blk], failing := s1.flash.failing.erase blk } }
  (s2.setFld Fd.flashRetiredBlocks 0 0 (s2.fld Fd.flashRetiredBlocks + 1)).setFld Fd.flashCapacity 0 0
    (s2.fld Fd.flashCapacity - blockPages)

/-- FLASH_BLOCK_RETIRE: a block is retired whose program failed or whose reads reached the last level, or one that holds no page and
whose erase may have failed (R304; log entry 66). -/
def execFlashBlockRetire (blk : Nat) (s : State) : Res :=
  .next (if s.flash.retired.contains blk || decide (flashBlocks ≤ blk) ||
      !(s.flash.failing.contains blk || (decide (0 < s.erased blk) && (s.pagesIn blk).isEmpty)) then s
    else s.retireBlock blk)

end Sys2Proof.Machine
end

