-- ==== Sys2Proof/Machine/Power.lean ====
section
/-! DEFINITION. Resets by power, pin, watchdog and heat (R426, R431, R434, R457, R466, R468), the cell clock (R464), the hold-up
bank (R466) and the sideband (R459). -/

namespace Sys2Proof.Machine

/-! ## Pins -/

/-- Whether firmware runs and the sideband pins are configured (R434, R447 step 4). -/
def State.managed (s : State) : Bool := s.clk.phase ∈ [Phase.running, .hold, .recovery]

/-- MOD_ALERT_N is low while a limit is set or the hold-up charge is below 80 % (R459); a failed bank counts as below (R466). -/
def State.syncAlert (s : State) : State :=
  let low := s.flag Fd.modulePowerPwrLimit || s.flag Fd.modulePowerTempLimit || decide (s.fld Fd.moduleHoldupCharge < 80) ||
    s.flag Fd.moduleHoldupFailed
  { s with clk := { s.clk with alert := s.managed && low } }

/-! ## Resets -/

/-- Whether the module has power and is not inside its hold-up sequence. -/
def State.powered (s : State) : Bool := s.clk.phase ∉ [Phase.off, .holdup]

/-- POWER_ON: the input reaches its power-good level (R431, R462). -/
def execPowerOn (s : State) : Res := .next (if s.clk.phase = .off ∧ s.clk.inputSwitch then s.fullReset 0 else s)

/-- The module is in reset while MOD_RESET_N is low (R434). -/
def State.pinReset (s : State) : State :=
  let z := s.fullReset 1
  { z with clk := { z.clk with phase := .pinLow } }

/-- MOD_RESET_N_LOW: a low level of 10 µs or more resets the module, one below 1 µs does not, and between them it is open: a free
value (R434). -/
def execModResetNLow (ns : Nat) (s : State) : Res :=
  .next (if !s.powered || decide (s.clk.phase = .pinLow) || decide (ns < 1000) then s
    else if 10000 ≤ ns then s.pinReset
    else
      let d := s.draw
      if d.1 % 2 = 0 then d.2 else d.2.pinReset)

/-- MOD_RESET_N_RISE: option loading follows (R434). -/
def execModResetNRise (s : State) : Res :=
  .next (if s.clk.phase = .pinLow then { s with clk := { s.clk with phase := .loading } } else s)

/-- Whether the Clerk's cores run. -/
def State.clerkRuns (s : State) : Bool := s.clk.phase ∈ [Phase.loading, .loaded, .hold, .recovery, .running]

/-- WATCHDOG: a Clerk core has missed two periods (R426). -/
def execWatchdog (core : Fin 4) (s : State) : Res := .next (if s.clerkRuns && decide (core.val < 4) then s.fullReset 2 else s)

/-- The temperature of a sensor, and whether it lies above its warning limit (R473). -/
def State.setTemp (s : State) (i t : Nat) : State :=
  (s.setFld Fd.moduleTempCur 0 i t).setFld Fd.moduleTempAboveWarn 0 i (b2n (decide (s.fld Fd.moduleTempWarn 0 i < t % 4096)))

/-- A THERMAL reset: the sensors stay as hot as they are (R431, R468). -/
def State.thermalReset (s : State) : State :=
  (List.range 39).foldl (fun z i => z.setTemp i (s.fld Fd.moduleTempCur 0 i)) (s.fullReset 3)

/-- THERMAL_TRIP: a sensor reaches its trip limit (R468). -/
def execThermalTrip (sensor : Fin 39) (temp : BitVec 12) (s : State) : Res :=
  .next (if s.clerkRuns && decide (s.fld Fd.moduleTempTrip 0 sensor.val ≤ temp.toNat) then (s.setTemp sensor.val temp.toNat).thermalReset
    else s)

/-! ## The cell clock -/

/-- Whether a sensor lies above, or every sensor below, its warning limit. -/
def State.anyHot (s : State) : Bool := (List.range 39).any (fun i => decide (s.fld Fd.moduleTempWarn 0 i < s.fld Fd.moduleTempCur 0 i))
def State.allCool (s : State) : Bool := (List.range 39).all (fun i => decide (s.fld Fd.moduleTempCur 0 i < s.fld Fd.moduleTempWarn 0 i))

/-- The windows below 2,300 W in a row. -/
def State.setBelow (s : State) (n : Nat) : State := { s with clk := { s.clk with below := n } }

/-- The cell clock at the end of a window of a mean power (R464). -/
def State.stepClock (s : State) (watts : Nat) : State :=
  let hot := s.anyHot
  let mhz := s.fld Fd.modulePowerCellMhz
  if 2400 < watts ∨ hot then
    let s1 := s.setBelow 0
    if mhz ≤ 550 then s1
    else
      (((s1.setFld Fd.modulePowerCellMhz 0 0 (mhz - 50)).setFld Fd.modulePowerPwrLimit 0 0 (b2n (decide (2400 < watts)))).setFld
        Fd.modulePowerTempLimit 0 0 (b2n hot)).bump Fd.moduleClockdownCnt
  else if watts < 2300 ∧ s.allCool then
    if s.clk.below + 1 < 100 then s.setBelow (s.clk.below + 1)
    else (s.setBelow 0).setFld Fd.modulePowerCellMhz 0 0 (min 1100 (mhz + 50))
  else s.setBelow 0

/-- POWER_WINDOW: a window of 1 ms ends: its mean power and the temperatures are recorded, the cell clock steps (R464), and a
sensor at its trip limit resets the module (R468). -/
def execPowerWindow (watts : BitVec 16) (temps : List (BitVec 12)) (s : State) : Res :=
  .next (if !s.clerkRuns then s
    else
      let s1 := (List.range (min 39 temps.length)).foldl (fun z i => z.setTemp i (temps.getD i 0).toNat) s
      let s2 := if s.managed then ((s1.setFld Fd.modulePowerInputW 0 0 watts.toNat).stepClock watts.toNat).syncAlert else s1
      if (List.range 39).any (fun i => decide (s2.fld Fd.moduleTempTrip 0 i ≤ s2.fld Fd.moduleTempCur 0 i)) then s2.thermalReset else s2)

/-! ## Loss of the input -/

/-- The hold-up sequence begins (R466): every block is held in reset, reads in flight are dropped, MOD_READY falls. -/
def State.loseInput (s : State) : State :=
  let z := s.fullReset 0
  { z with clk := { z.clk with phase := .holdup } }

/-- POWER_LOSS: the input is lost, or PRESENT_N breaks, which opens the input switch as well (R457, R462, R466). -/
def execPowerLoss (presentBreak : Bool) (s : State) : Res :=
  .next (if !s.powered then s
    else
      let z := s.loseInput
      if presentBreak then { z with clk := { z.clk with inputSwitch := false } } else z)

/-- HOLDUP_SEQUENCE_END: the module is off, or takes a POWER_ON reset where the input has recovered (R466). -/
def execHoldupSequenceEnd (recovered : Bool) (s : State) : Res :=
  .next (if s.clk.phase ≠ .holdup then s
    else if recovered && s.clk.inputSwitch then s.fullReset 0
    else { s with clk := { s.clk with phase := .off } })

/-- PRESENT_MATE: PRESENT_N makes contact, and the input switch closes 100 ms later (R457). -/
def execPresentMate (s : State) : Res := .next { s with clk := { s.clk with inputSwitch := true } }

/-! ## The hold-up bank -/

/-- HOLDUP_TEST: a partial discharge tests the bank; below 48 J at full charge it is marked FAILED (R466, R473). -/
def execHoldupTest (joules : Nat) (s : State) : Res :=
  .next (if !s.managed then s
    else ((s.setFld Fd.moduleHoldupFailed 0 0 (b2n (decide (joules < 48)))).inc Fd.moduleHoldupTests).syncAlert)

/-- HOLDUP_CHARGE: the charge changes (R466, R473). -/
def execHoldupCharge (percent : BitVec 8) (charging : Bool) (s : State) : Res :=
  .next (if !s.clerkRuns then s
    else ((s.setFld Fd.moduleHoldupCharge 0 0 (min 100 percent.toNat)).setFld Fd.moduleHoldupCharging 0 0 (b2n charging)).syncAlert)

/-! ## The sideband -/

/-- SIDEBAND_SAMPLE: TRAY_MOVE_N and FEED_ALARM_N are sampled; a level of two samples is taken as changed (R381, R459). -/
def execSidebandSample (trayMoveN feedAlarmN : Bool) (s : State) : Res :=
  .next (if !s.managed then s
    else
      let s1 := if trayMoveN = s.clk.lastTray then s.setFld Fd.moduleSidebandTrayMove 0 0 (b2n (!trayMoveN)) else s
      let s2 := if feedAlarmN = s.clk.lastFeed then
          (s1.setFld Fd.moduleSidebandFeedAlarm 0 0 (b2n (!feedAlarmN))).setFld Fd.moduleFeedAlarm 0 0 (b2n (!feedAlarmN))
        else s1
      { s2 with clk := { s2.clk with lastTray := trayMoveN, lastFeed := feedAlarmN } })

end Sys2Proof.Machine
end

