-- ==== Sys2Proof/Machine/Boot.lean ====
section
/-! DEFINITION. Straps and option loading (R440 to R443), firmware images and slots (R444 to R446), the boot (R447, R448), admitting
a tenant (R399, R282). -/

namespace Sys2Proof.Machine

/-! ## Straps -/

/-- The boot policy of a window (R441, R453): 0 normal, 1 force staging, 2 recovery, 3 hold. -/
def windowPolicy (w : Nat) : Nat :=
  if w < 3 then 3 else if w < 5 then 2 else if w < 9 then 1 else if w < 12 then 0 else if w < 15 then 3 else 0

/-- Windows at half the Scecy rate, and windows of single tenancy (R441). -/
def windowHalf (w : Nat) : Bool := [1, 4, 7, 8, 9, 10].contains w
def windowSingle (w : Nat) : Bool := [5, 7, 9, 11].contains w

/-- Whether eight samples fall in one window (R442). -/
def oneWindow (xs : List (BitVec 6)) : Bool := decide (xs.length = 8) && xs.all (fun x => decide (x.toNat / 4 = (xs.headD 0).toNat / 4))

/-- The attempt that decides (R442): the first of the first sixteen in which the samples agree; none where all sixteen disagree. -/
def decideStrap (samples : List (List (BitVec 6))) : Option (List (BitVec 6)) := (samples.take 16).find? oneWindow

/-! ## Option loading -/

/-- The link-local IPv6 address formed from a MAC address (R430). -/
def linkLocal (mac : Nat) : Nat :=
  let hi := Nat.xor (mac / 2 ^ 24) (2 ^ 17)
  0xFE80 * 2 ^ 112 + hi * 2 ^ 40 + 0xFFFE * 2 ^ 24 + mac % 2 ^ 24

/-- The defaults of R430. -/
def State.defaultTable (s : State) : Config.CfgTab :=
  { id := 0, ipv4 := [], ipv6 := (List.range 4).map (fun e => linkLocal (s.fld Fd.ethMac e)), vlan := [], encap := 0xC27F, snapSlot := 0,
    ownerSeq := 0, lock := false, admitBody := none }

/-- The table in force: that of the flash, or the defaults (R430). -/
def State.cfgTable (s : State) : Config.CfgTab := s.flash.cfg.getD s.defaultTable

/-- Loading the configuration table into its registers (R430, R443). -/
def State.loadTable (s : State) (c : Config.CfgTab) : State :=
  let s1 := (List.range 4).foldl (fun z e =>
    let v6 := c.ipv6.getD e 0
    let vl := c.vlan.getD e 0
    ((((z.setFld Fd.ethIpv4 e 0 (c.ipv4.getD e 0)).setFld Fd.ethIpv6Lo e 0 (v6 % 2 ^ 64)).setFld Fd.ethIpv6Hi e 0 (v6 / 2 ^ 64)).setFld
      Fd.ethVlanVid e 0 (vl % 4096)).setFld Fd.ethVlanTagged e 0 (bitsOf vl 12 12)) s
  let s2 := (((s1.setFld Fd.moduleIdId 0 0 c.id).setFld Fd.ethEncapPort 0 0 c.encap).setFld Fd.moduleSnapSlot 0 0 c.snapSlot).setFld
    Fd.resetLockOwnerLock 0 0 (b2n c.lock)
  { s2 with clk := { s2.clk with admitBody := c.admitBody } }

/-- The strap as taken (R441, R442, R453); a bad table turns normal and force staging into Hold (R430). -/
def State.setStrap (s : State) (code window : Nat) (disagree : Bool) : State :=
  let p := windowPolicy window
  let policy := if s.flash.cfg.isNone && decide (p < 2) then 3 else p
  ((((((s.setFld Fd.resetStrapCode 0 0 code).setFld Fd.resetStrapWindow 0 0 window).setFld Fd.resetStrapPolicy 0 0 policy).setFld
    Fd.resetStrapHalfRate 0 0 (b2n (windowHalf window))).setFld Fd.resetStrapSingle 0 0 (b2n (windowSingle window))).setFld
    Fd.resetStrapBad 0 0 (b2n (disagree || decide (12 ≤ window ∧ window < 15)))).setFld Fd.resetStrapMfg 0 0
    (b2n (decide (window = 2) && Config.fieldModule))

/-- OPTION_LOADING: the strap is sampled, the fuses and the configuration table are read (R442, R443). It waits where the samples
do not decide yet, and after a THERMAL reset while a sensor is not below its warning limit (R431, R468). Of samples that agree on
the window, the one whose code is kept is free (log entry 23). -/
def execOptionLoading (samples : List (List (BitVec 6))) (s : State) : Res :=
  .next (if s.clk.phase ≠ .loading then s
    else if s.clk.source = 3 ∧ !s.allCool then s
    else
      match decideStrap samples with
      | none =>
        if samples.length < 16 then s
        else
          let d := s.draw
          let last := samples.getD 15 []
          let s1 := ((d.2.setStrap (last.getD (d.1 % 8) 0).toNat 0 true).loadTable d.2.cfgTable).setFld Fd.resetOptDone 0 0 1
          { s1 with clk := { s1.clk with phase := .loaded } }
      | some xs =>
        let d := s.draw
        let s1 := ((d.2.setStrap (xs.getD (d.1 % 8) 0).toNat ((xs.headD 0).toNat / 4) false).loadTable d.2.cfgTable).setFld Fd.resetOptDone 0 0 1
        { s1 with clk := { s1.clk with phase := .loaded } })

/-! ## Firmware images -/

/-- Largest image, and the bytes of its signatures (R444). -/
def imageMax : Nat := 2 ^ 26
def imageSigs : Nat := 16608

/-- Fields of an image (R444). -/
def imgBytes (img : List Byte) : Nat := fieldB img 4 4
def imgVersion (img : List Byte) : Nat := fieldB img 8 4
def imgArb (img : List Byte) : Nat := fieldB img 12 1

/-- Whether an image is valid (R445). -/
def State.imageOk (s : State) (img : List Byte) : Bool :=
  let n := imgBytes img
  let hdr := sliceB img 0 512
  let body := (img.take (n - imageSigs)).drop 512
  let sigs := (img.take n).drop (n - imageSigs)
  decide (n ≤ imageMax) && decide (512 + imageSigs ≤ n) && decide (n ≤ img.length) && decide (fieldB img 0 4 = 1) &&
    decide (fieldB img 13 1 = s.fld Fd.moduleSteppingStep) && decide (imgArb img ≤ 128) && decide (s.clk.arb ≤ imgArb img) &&
    decide (sliceB (Config.sha384 body) 0 48 = sliceB img 16 48) && Config.rsaVerify Config.firmwareRsaKey hdr (sigs.take 384) &&
    Config.slhVerify Config.firmwareSlhKey hdr (sigs.drop 384)

/-- STAGED of FW_VERSION (R454). -/
def State.syncFw (s : State) : State :=
  (s.setFld Fd.moduleFwVersionActive 0 0 (imgVersion s.flash.active.image)).setFld Fd.moduleFwVersionStaged 0 0
    (if s.flash.staging.valid then imgVersion s.flash.staging.image else 0)

/-- Activation (R446): the staging image becomes the active one, fuses are blown up to its ARB, PENDING clears. -/
def State.activate (s : State) : State :=
  let img := s.flash.staging.image
  let s1 := { s with
    flash := { s.flash with active := ⟨true, false, img⟩, staging := { s.flash.staging with pending := false } }
    clk := { s.clk with arb := max s.clk.arb (imgArb img) } }
  s1.setFld Fd.moduleBootActivated 0 0 1

/-- Whether the active image passes. -/
def State.activeOk (s : State) : Bool := s.flash.active.valid && s.imageOk s.flash.active.image

/-- Step 3 of the boot (R447): the firmware, and whether none passes. -/
def State.bootFirmware (s : State) (force : Bool) : State × Bool :=
  let g := s.flash.staging
  let s1 := if g.valid && (g.pending || force) && s.imageOk g.image then s.activate else s
  if s1.activeOk then (s1.syncFw, true)
  else
    let h := s1.flash.staging
    let s2 := if h.valid && s1.imageOk h.image then s1.activate else s1
    (s2.syncFw, s2.activeOk)

/-- Writing the staging slot (R446, R450). -/
def State.stageImage (s : State) (img : List Byte) : State :=
  { s with flash := { s.flash with staging := ⟨true, true, img⟩ } }.syncFw

/-- The refusals of R452, in their order. -/
def State.stageRefusal (s : State) : Option Code :=
  if s.flag Fd.moduleSidebandTrayMove then some cUpdateRefusedMoving
  else if decide (s.fld Fd.moduleHoldupCharge < 80) || s.flag Fd.moduleHoldupFailed then some cUpdateRefusedHoldup
  else if s.flag Fd.resetLockOwnerLock then some cUpdateRefusedLocked
  else none

/-! ## Admission -/

/-- An ADMIT body (R428). -/
structure AdmitBody where
  tenant : Nat
  manager : Bool
  mask : Nat
  maxQp : Nat
  entries : Nat
  pinLimit : Nat
  hostKey : List Byte

/-- The fields of an ADMIT body, in network byte order (R395, R428). -/
def AdmitBody.ofBytes (bs : List Byte) : AdmitBody :=
  ⟨fieldB bs 0 1, (fieldB bs 1 1).testBit 0, ofBe (sliceB bs 2 2), ofBe (sliceB bs 4 2), ofBe (sliceB bs 8 4), ofBe (sliceB bs 12 4), sliceB bs 16 48⟩

/-- Cell groups that some tenant holds. -/
def State.heldGroups (s : State) : List Nat :=
  (List.range 16).filter (fun g => (List.range 16).any (fun t => s.flag Fd.ethAdmitAdmitted 0 t && s.bitOf Fd.ethAdmitCgMask 0 t g))

/-- Why an ADMIT is refused, short of its page table (R399). -/
def State.admitRefusal (s : State) (b : AdmitBody) : Option Code :=
  if s.flag Fd.ethAdmitAdmitted 0 b.tenant then some cAdmitTenantHeld
  else if (List.range 16).any (fun g => b.mask.testBit g && (!s.bitOf Fd.moduleCgAvailAvail 0 0 g || s.heldGroups.contains g)) then
    some cAdmitCgUnavailable
  else if b.manager && (List.range 16).any (fun t => s.flag Fd.ethAdmitAdmitted 0 t && s.flag Fd.ethAdmitManager 0 t) then some cAdmitManagerHeld
  else none

/-- Admitting a tenant whose page table begins at a frame (R282, R399). -/
def State.admitAt (s : State) (t : Fin 16) (b : AdmitBody) (f : Nat) : State :=
  let s1 := (List.range (tableFrames b.entries)).foldl (fun z i => (z.zeroFrame (f + i)).setFrame (f + i) ⟨16 + t.val, false, false, 0⟩) s
  let s2 := (((s1.setFld Fd.poolPtBase 0 t.val (65536 * f)).setFld Fd.poolPtEntries 0 t.val b.entries).setFld Fd.poolPinLimitLimit 0 t.val
    b.pinLimit).setFld Fd.poolPinLimitPinned 0 t.val 0
  let s3 := (((s2.setFld Fd.ethAdmitAdmitted 0 t.val 1).setFld Fd.ethAdmitManager 0 t.val (b2n b.manager)).setFld Fd.ethAdmitMaxQp 0 t.val
    b.maxQp).setFld Fd.ethAdmitCgMask 0 t.val b.mask
  (s3.setSession t { Session.init with hostKey := b.hostKey }).syncPool

/-- Admitting a tenant, or the code that refuses it (R399). -/
def State.admitTenant (s : State) (b : AdmitBody) : Code × State :=
  if h : b.tenant < 16 then
    match s.admitRefusal b with
    | some c => (c, s)
    | none =>
      match s.tableRun (tableFrames b.entries) with
      | none => (cPoolExhausted, s)
      | some f => (cOK, s.admitAt ⟨b.tenant, h⟩ b f)
  else (cSigFail, s)

/-! ## The boot -/

/-- CRC-8 of the tray record (R461). -/
def crc8 (bs : List Byte) : Nat :=
  bs.foldl (fun c b => (List.range 8).foldl (fun x _ => if 128 ≤ x then Nat.xor (2 * x % 256) 0x07 else 2 * x) (Nat.xor c b.toNat)) 0

/-- Step 4 (R447, R461): the tray record and the slot. -/
def State.bootTray (s : State) (o : BootObs) : State :=
  let good := match o.tray with
    | some bs => if bs.length = 6 ∧ crc8 (bs.take 5) = (bs.getD 5 0).toNat then some bs else none
    | none => none
  let bs := good.getD (List.replicate 6 0)
  ((((s.setFld Fd.moduleIdTray 0 0 (fieldB bs 0 2)).setFld Fd.moduleFeedFeedId 0 0 (fieldB bs 2 2)).setFld Fd.moduleFeedSupply 0 0
    (fieldB bs 4 1)).setFld Fd.moduleSidebandTrayReadFail 0 0 (b2n good.isNone)).setFld Fd.moduleIdSlot 0 0 o.slotId.toNat

/-- Ethernet ports come up (R447 steps 4 and 7, R448). -/
def State.bootEth (s : State) (o : BootObs) : State :=
  (List.finRange 4).foldl (fun z e => z.setFld Fd.ethState e.val 0 (if o.eths.contains e then 2 else 1)) s

/-- Step 5 (R264, R267, R447): regions in service or retired, pins lost. -/
def State.bootStacks (s : State) (o : BootObs) : State :=
  let s1 := (List.finRange 12).foldl (fun z m =>
    let bad := (List.finRange 8).foldl (fun a r => if o.badRegions.contains (m, r) then a + 2 ^ r.val else a) 0
    let good := 255 - bad
    ((z.setFld Fd.stackStateInService m.val 0 good).setFld Fd.stackStateRetired m.val 0 bad).setFld Fd.stackCapacity m.val 0
      (131072 * (List.range 8).countP (fun r => good.testBit r))) s
  o.badPins.foldl (fun z p => z.markLost p.1.val p.2.1.val p.2.2.val) s1

/-- Step 6 (R48, R49): cells that fail are fenced; the groups without a fenced cell are available. -/
def State.bootCells (s : State) (o : BootObs) : State :=
  let bad := (List.finRange 256).filter (fun c => o.badCells.contains c)
  let s1 := bad.foldl (fun z c => z.setFld Fd.cellStateFenced c.val 0 1) s
  let avail := (List.range 16).foldl (fun a g => if bad.all (fun c => decide (c.val / 16 ≠ g)) then a + 2 ^ g else a) 0
  (s1.setFld Fd.moduleCgAvailAvail 0 0 avail).setFld Fd.moduleCgAvailFencedCells 0 0 bad.length

/-- Step 7 (R328, R447): Scecy ports train. -/
def State.bootPorts (s : State) (o : BootObs) : State :=
  (List.finRange 24).foldl (fun z p =>
    if !z.flag Fd.scecyCtrlEnable p.val then z.setLink p.val 3
    else
      match o.ports.find? (fun x => decide (x.1 = p)) with
      | some x => ((z.setLink p.val 2).setFld Fd.scecyStatePartnerMod p.val 0 x.2.1.toNat).setFld Fd.scecyStatePartnerPort p.val 0 x.2.2.toNat
      | none => z.setLink p.val 1) s

/-- Step 8 (R280, R300, R447): stacks in SERVICE, the pool with its frame table, the flash and the snapshot partition. -/
def State.bootPool (s : State) : State :=
  let s0 := (List.range 12).foldl (fun z m => z.setFld Fd.stackMode m 0 0) s
  let bad := (Config.factoryBadBlocks ++ s0.flash.retired).eraseDups
  let s1 := Config.frameTable.foldl (fun (z : State) f => z.setFrame f ⟨33, false, false, 0⟩) { s0 with flash := { s0.flash with retired := bad } }
  let reserved := 2048 + 32 * s.fld Fd.moduleSnapSlot
  let dead := bad.length
  let s2 := ((s1.setFld Fd.flashReserved 0 0 reserved).setFld Fd.flashRetiredBlocks 0 0 dead).setFld Fd.flashCapacity 0 0
    ((flashBlocks - 119209 - dead) * blockPages - reserved)
  s2.syncWear.syncPool

/-- What MODULE.BOOT says of the firmware (R426, R447, R454). -/
def State.bootFault (s : State) (ok : Bool) : State :=
  let code := if !ok then cSigFail else if s.clk.source = 2 then cWatchdog else cOK
  ((s.setFld Fd.moduleBootFault 0 0 code.toNat).setFld Fd.moduleBootArb 0 0 s.clk.arb).setFld Fd.moduleBootCfgBad 0 0 (b2n s.flash.cfg.isNone)

/-- Step 9 (R433, R441, R447): the boot lock, MODULE.BOOT, MOD_READY, and in single tenancy the admission of tenant 0. -/
def State.bootLock (s : State) : State :=
  let s1 := ((s.setFld Fd.resetLockBootLock 0 0 1).setFld Fd.moduleBootCause 0 0 (s.fld Fd.resetCause)).setFld Fd.moduleBootWindow 0 0
    (s.fld Fd.resetStrapWindow)
  let s2 := { s1 with clk := { s1.clk with phase := .running, ready := true, obs := none } }.syncAlert
  if !s2.flag Fd.resetStrapSingle then s2
  else
    match s2.clk.admitBody with
    | none => s2
    | some bs => (s2.admitTenant { AdmitBody.ofBytes bs with tenant := 0, manager := true, mask := s2.fld Fd.moduleCgAvailAvail }).2

/-- Steps 5 to 9 (R447). -/
def State.bootOn (s : State) (o : BootObs) : State :=
  ((((((s.bootStacks o).bootCells o).bootPorts o).bootEth o).bootPool).bootLock)

/-- A boot waits after step 4 in a phase (R448). -/
def State.bootWait (s : State) (p : Phase) (o : BootObs) : State :=
  { s with clk := { s.clk with phase := p, obs := some o } }.syncAlert

/-- Steps 3 to 9 (R447, R448). -/
def State.boot (s : State) (o : BootObs) : State :=
  let policy := s.fld Fd.resetStrapPolicy
  let r := s.bootFirmware (decide (policy = 1))
  let s1 := (r.1.bootFault r.2).bootTray o
  if !r.2 ∨ policy = 2 then (s1.bootEth o).bootWait .recovery o
  else if policy = 3 then (s1.bootEth o).bootWait .hold o
  else s1.bootOn o

/-- BOOT: the boot of a module whose options are loaded (R447). A part that is no field module, strapped to window 2, runs a
manufacturing test that the manual leaves out (R441). -/
def execBoot (obs : BootObs) (s : State) : Res :=
  if s.clk.phase ≠ .loaded then .next s
  else if s.fld Fd.resetStrapWindow = 2 && !Config.fieldModule then .fault .outsideManual
  else .next (s.boot obs)

end Sys2Proof.Machine
end

