-- ==== Sys2Proof/Machine/Host.lean ====
section
/-! DEFINITION. Host operations: regions (R410, R411), requests in PSN order (R405, R407, R412), atomics, and the module as
requester (R406 to R408). -/

namespace Sys2Proof.Machine

/-! ## Regions -/

/-- How a host request ends: performed, with the bytes it answers; waiting for a page; refused, with a code where the manual names
one; not valid (R405, R411). -/
inductive HostEnd where
  | ok (bytes : List Byte)
  | wait
  | access (code : Option Code)
  | invalid
  deriving DecidableEq, Repr

/-- The region that an rkey names for a tenant (R410); none where the rkey is stale, or the access reaches beyond the region. -/
def State.regionFor (s : State) (t : Fin 16) (rkey off n : Nat) : Option Nat :=
  let i := 64 * t.val + bitsOf rkey 27 22
  if decide (bitsOf rkey 31 28 = t.val) && decide (bitsOf rkey 21 0 = s.fld Fd.ethRegionGen 0 i) &&
      decide (s.fld Fd.ethRegionKind 0 i = 1 ∨ s.fld Fd.ethRegionKind 0 i = 2) && decide (off + n ≤ 64 * s.fld Fd.ethRegionLength 0 i) then some i
  else none

/-- Permission b of a region: 0 read, 1 write, 2 atomic. -/
def State.regionAllows (s : State) (i b : Nat) : Bool := (s.fld Fd.ethRegionPerm 0 i).testBit b

/-- The address behind an offset of an ADDR region. -/
def State.regionAddr (s : State) (i off : Nat) : Nat := (s.fld Fd.ethRegionBase 0 i + off) % 2 ^ 48

/-- Pieces of a run in a POOL region: page, offset in it, place in the run, length (R411). -/
def poolPieces (base off n : Nat) : List (Nat × Nat × Nat × Nat) :=
  (List.range (if n = 0 then 0 else (off + n - 1) / 65536 - off / 65536 + 1)).map (fun i =>
    let p := off / 65536 + i
    let lo := max off (65536 * p)
    let hi := min (off + n) (65536 * (p + 1))
    (base + p, lo % 65536, lo - off, hi - lo))

/-- The pages of a run are valid and in frames, or are being brought in (R411). -/
def State.hostPages (s : State) (t : Fin 16) (ps : List (Nat × Nat × Nat × Nat)) : Option HostEnd × State :=
  ps.foldl (fun (x : Option HostEnd × State) p =>
    match x.1 with
    | some (.access c) => (some (.access c), x.2)
    | r =>
      if !x.2.inTable t.val p.1 || !(x.2.pte t.val p.1).valid then (some (.access (some cPageOwner)), x.2)
      else
        let f := x.2.faultIn none none none t p.1
        match f.1 with
        | .ok => (r, f.2)
        | .wait => (some .wait, f.2)
        | .fault c => (some (.access (some c)), f.2)) (none, s)

/-- What an access gave, as the end of a request. -/
def hostEnd (g : Got) : HostEnd := if g.wait then .wait else match g.fault with
  | some c => .access (some c)
  | none => .ok g.bytes

/-- An access to the pages of a POOL region, piece by piece, under the epoch that the operation took (R290, R411). -/
def State.hostPool (s : State) (t : Fin 16) (epoch base off n : Nat) (w : Option (List Byte)) : HostEnd × State :=
  let ps := poolPieces base off n
  let r := s.hostPages t ps
  match r.1 with
  | some e => (e, r.2)
  | none =>
    let x : Ctx := ⟨.tenant t, none, none, some epoch, none⟩
    ps.foldl (fun (y : HostEnd × State) p =>
      match y.1 with
      | .ok bs =>
        let a := (y.2.pte t.val p.1).frame + p.2.1
        let g := match w with
          | none => y.2.globalRead x a p.2.2.2
          | some d => y.2.globalWrite x a (sliceB d p.2.2.1 p.2.2.2)
        (match hostEnd g with
          | .ok more => (.ok (bs ++ more), g.st)
          | e => (e, g.st))
      | e => (e, y.2)) (.ok [], r.2)

/-- Whether an access to control space by a tenant is permitted throughout (R417). -/
def State.ctlAllowed (s : State) (t : Fin 16) (o n : Nat) (write : Bool) : Bool :=
  (List.range ((o + n - 1) / 8 - o / 8 + 1)).all (fun i =>
    let p := s.ctlPerm (.tenant t) (8 * (o / 8 + i))
    decide (p = .full) || (!write && decide (p = .read)))

/-- An access through an ADDR region (R411): one that R417 denies is refused; in the shared cache it ranks behind what waits at its
slices (R103, R405). -/
def State.hostAddr (s : State) (t : Fin 16) (a n : Nat) (w : Option (List Byte)) : HostEnd × State :=
  let denied := match placeOf a with
    | .ctl o => decide (0 < n) && !s.ctlAllowed t o n w.isSome
    | _ => false
  if denied then (.access none, s.bump Fd.ethCtlDenyCnt)
  else
    let s0 := s.slicesBefore a n
    let g := match w with
      | none => s0.globalRead (tenantCtx t) a n
      | some d => s0.globalWrite (tenantCtx t) a d
    (hostEnd g, g.st)

/-- An access to a region. -/
def State.hostAccess (s : State) (t : Fin 16) (epoch rkey off n b : Nat) (w : Option (List Byte)) : HostEnd × State :=
  match s.regionFor t rkey off n with
  | none => (.access none, s)
  | some i =>
    if !s.regionAllows i b then (.access none, s)
    else if s.fld Fd.ethRegionKind 0 i = 1 then s.hostPool t epoch (s.fld Fd.ethRegionBase 0 i) off n w
    else s.hostAddr t (s.regionAddr i off) n w

/-- A 64-bit atomic on the aligned word at its slice (R411): its new value from the old one. -/
def State.hostAtomic (s : State) (t : Fin 16) (rkey off : Nat) (f : Nat → Nat) : HostEnd × State :=
  match s.regionFor t rkey off 8 with
  | none => (.access none, s)
  | some i =>
    match placeOf (s.regionAddr i off) with
    | .scache o =>
      if s.fld Fd.ethRegionKind 0 i ≠ 2 ∨ o % 8 ≠ 0 then (.invalid, s)
      else if !s.regionAllows i 2 then (.access none, s)
      else
        let g := (s.slicesFirst o 8).scacheAccess (tenantCtx t) o none 8
        (match g.fault with
          | some c => (.access (some c), g.st)
          | none =>
            let h := g.st.scacheAccess (tenantCtx t) o (some (leBytes 8 (f (ofLe g.bytes)))) 8
            (match h.fault with
              | some c => (.access (some c), h.st)
              | none => (.ok g.bytes, h.st)))
    | _ => (.invalid, s)

/-- Performing a request under an epoch (R411). -/
def State.hostRun (s : State) (t : Fin 16) (epoch : Nat) : HostOp → HostEnd × State
  | .write rkey off data => s.hostAccess t epoch rkey off data.length 1 (some data)
  | .read rkey off len => s.hostAccess t epoch rkey off len 0 none
  | .fetchAdd rkey off v => s.hostAtomic t rkey off (fun x => (x + v) % 2 ^ 64)
  | .cmpSwap rkey off cmp new => s.hostAtomic t rkey off (fun x => if x = cmp then new else x)

/-- A request that must wait for every earlier PSN (R407): a READ, an atomic, a write to control space or to where atomics are
permitted. -/
def State.hostOrdered (s : State) (t : Fin 16) : HostOp → Bool
  | .write rkey off data =>
    (match s.regionFor t rkey off data.length with
      | none => true
      | some i => decide (s.fld Fd.ethRegionKind 0 i = 2) && (match placeOf (s.regionAddr i off) with
        | .ctl _ => true
        | .scache _ => s.regionAllows i 2
        | _ => false))
  | _ => true

/-- PSNs that a request takes: a READ one for each packet of its answer. -/
def HostOp.span (pmtu : Nat) : HostOp → Nat
  | .read _ _ len => max 1 (ceilDiv len pmtu)
  | _ => 1

/-! ## Answers -/

/-- Answering with data, in packets of the path MTU. -/
def State.answerQp (s : State) (qpn psn : Nat) (bs : List Byte) : State :=
  match s.qp qpn with
  | none => s
  | some q => s.qpSend q ((List.range (max 1 (ceilDiv bs.length q.pmtu))).map (fun i =>
      .data ((psn + i) % 2 ^ 24) (sliceB bs (q.pmtu * i) (min q.pmtu (bs.length - q.pmtu * i)))))

/-- A refused request (R405): NAK, the error state, LAST_FAULT; where no rule names the code, it is a free value (log entry 21). -/
def State.nakAccess (s : State) (q : Qp) (psn : Nat) (code : Option Code) : State :=
  let s1 := (s.ackQp q.qpn psn 2).errQps (fun x => decide (x.qpn = q.qpn))
  match code with
  | some c => s1.lastFault q.t c q.qpn
  | none => let d := s1.draw; d.2.lastFault q.t (BitVec.ofNat 16 d.1) q.qpn

/-- An operation that waits for a page keeps its epoch until it is performed (R290, R411). -/
def State.hostHold (s : State) (q : Qp) (epoch psn : Nat) (op : HostOp) : State :=
  if s.eth.waiting.any (fun w => decide (w.qpn = q.qpn) && decide (w.psn = psn)) then s
  else { s with eth := { s.eth with waiting := s.eth.waiting ++ [⟨q.t, q.qpn, psn, epoch, op⟩] } }

/-- It waits no longer. -/
def State.hostDone (s : State) (qpn psn : Nat) : State :=
  { s with eth := { s.eth with waiting := s.eth.waiting.filter (fun w => decide (w.qpn ≠ qpn ∨ w.psn ≠ psn)) } }

/-- Performing the request whose PSN is due: whether it was performed, and the state. READ requests and atomics are answered. -/
def State.hostDue (s : State) (q : Qp) (epoch psn : Nat) (op : HostOp) : Bool × State :=
  let r := s.hostRun q.t epoch op
  match r.1 with
  | .wait => (false, r.2.hostHold q epoch psn op)
  | .access c => (false, r.2.nakAccess q psn c)
  | .invalid => (false, (r.2.ackQp q.qpn psn 3).errQps (fun x => decide (x.qpn = q.qpn)))
  | .ok bs =>
    let s1 := r.2.hostDone q.qpn psn
    match s1.qp q.qpn with
    | none => (true, s1)
    | some y =>
      let z := { y with expPsn := (psn + op.span q.pmtu) % 2 ^ 24, held := y.held.filter (fun h => decide (h.1 ≠ psn)) }
      (match op with
        | .write _ _ _ => (true, s1.putQp z)
        | _ => (true, (s1.putQp { z with answers := z.answers ++ [(psn, bs)] }).answerQp q.qpn psn bs))

/-- The PSNs received beyond the one that was missing follow it (R407). -/
def State.hostFollow (s : State) (qpn : Nat) : Nat → State
  | 0 => s
  | f + 1 =>
    match s.qp qpn with
    | none => s
    | some q =>
      if q.beyond.contains q.expPsn then
        State.hostFollow (s.putQp { q with beyond := q.beyond.erase q.expPsn, expPsn := (q.expPsn + 1) % 2 ^ 24 }) qpn f
      else
        match q.held.find? (fun h => decide (h.1 = q.expPsn)) with
        | none => s
        | some h =>
          let r := s.hostDue q (s.epoch q.t) h.1 h.2
          if r.1 then State.hostFollow r.2 qpn f else r.2

/-- Performing the request that is due with all that follows it; then the ACK, which names the first PSN that is missing (R405,
R407). -/
def State.hostNext (s : State) (q : Qp) (epoch psn : Nat) (op : HostOp) : State :=
  let r := s.hostDue q epoch psn op
  if !r.1 then r.2
  else
    let s1 := r.2.hostFollow q.qpn (q.beyond.length + q.held.length + 1)
    let writes := match op with
      | .write _ _ _ => true
      | _ => false
    match s1.qp q.qpn with
    | none => s1
    | some y => if writes || decide (y.expPsn ≠ (psn + op.span q.pmtu) % 2 ^ 24) then s1.ackQp q.qpn ((y.expPsn + 2 ^ 24 - 1) % 2 ^ 24) 0 else s1

/-- A plain write ahead of the PSN that is due, with the extension (R407): performed at once. -/
def State.hostEarly (s : State) (q : Qp) (epoch psn : Nat) (op : HostOp) : State :=
  let r := s.hostRun q.t epoch op
  match r.1 with
  | .ok _ =>
    let s1 := r.2.hostDone q.qpn psn
    (match s1.qp q.qpn with
      | some y => (s1.putQp { y with beyond := y.beyond ++ [psn] }).ackQp q.qpn psn 0
      | none => s1)
  | .access c => r.2.nakAccess q psn c
  | .wait => r.2.hostHold q epoch psn op
  | .invalid => r.2

/-- Whether a request of a queue pair has arrived and is still to be performed. -/
def State.hostHas (s : State) (q : Qp) (psn : Nat) : Bool :=
  q.beyond.contains psn || q.held.any (fun h => decide (h.1 = psn)) ||
    s.eth.waiting.any (fun w => decide (w.qpn = q.qpn) && decide (w.psn = psn))

/-- A request ahead of the PSN that is due, with the extension (R407): a plain write is performed at once, what is ordered is held. -/
def State.hostAhead (s : State) (q : Qp) (psn : Nat) (op : HostOp) : State :=
  if s.hostHas q psn then s.ackQp q.qpn psn 0
  else if s.hostOrdered q.t op then (s.putQp { q with held := q.held ++ [(psn, op)] }).ackQp q.qpn psn 0
  else s.hostEarly q (s.epoch q.t) psn op

/-- A duplicate request is answered without being performed again (R405). -/
def State.hostAgain (s : State) (q : Qp) (psn : Nat) : State :=
  match q.answers.find? (fun a => decide (a.1 = psn)) with
  | some a => s.answerQp q.qpn psn a.2
  | none => s.ackQp q.qpn psn 0

/-- The PSN after the requests that have arrived in order while the one that is due waits for a page. -/
def Qp.arrivedTo (q : Qp) (first : HostOp) : Nat :=
  (List.range q.held.length).foldl (fun p _ =>
    match q.held.find? (fun h => decide (h.1 = p)) with
    | some h => (p + h.2.span q.pmtu) % 2 ^ 24
    | none => p) ((q.expPsn + first.span q.pmtu) % 2 ^ 24)

/-- A request beyond the PSN that is due (R405, R407): behind one that waits for a page, the next in order is kept; else one out of
sequence is dropped, but for the extension. -/
def State.hostBeyond (s : State) (q : Qp) (psn : Nat) (op : HostOp) : State :=
  let due := s.eth.waiting.find? (fun w => decide (w.qpn = q.qpn) && decide (w.psn = q.expPsn))
  if q.sack && decide ((psn + 2 ^ 24 - q.expPsn) % 2 ^ 24 ≤ 256) then s.hostAhead q psn op
  else
    match due with
    | some w =>
      if q.held.any (fun h => decide (h.1 = psn)) then s
      else if psn = q.arrivedTo w.op then s.putQp { q with held := q.held ++ [(psn, op)] }
      else s.ackQp q.qpn (q.arrivedTo w.op) 1
    | none => s.ackQp q.qpn q.expPsn 1

/-- A request that arrives on a queue pair (R405, R407, R412). -/
def State.hostRequest (s0 : State) (qpn psn : Nat) (op : HostOp) : State :=
  let s := s0.takePassed qpn 0
  match s.qp qpn with
  | none => s
  | some q =>
    if !s.ethUp q.port then s
    else
      let d := (psn + 2 ^ 24 - q.expPsn) % 2 ^ 24
      if d = 0 then (if s.hostHas q psn then s else s.hostNext q (s.epoch q.t) psn op)
      else if 2 ^ 23 ≤ d then s.hostAgain q psn
      else s.hostBeyond q psn op

/-- An operation that waited for a page is tried again (R411). -/
def State.hostRetry (s : State) (w : HostWait) : State :=
  if !s.eth.waiting.contains w then s
  else
    match s.qp w.qpn with
    | none => s.hostDone w.qpn w.psn
    | some q => if w.psn = q.expPsn then s.hostNext q w.epoch w.psn w.op else s.hostEarly q w.epoch w.psn w.op

/-- Operations that wait for a page go on where it has come, oldest first (R411). -/
def State.hostResume (s : State) : State := s.eth.waiting.foldl State.hostRetry s

/-- FLASH_READ_DONE: a flash read ends (R288, R303); hosts' operations that waited for its page are performed (R411). -/
def execFlashReadDone (i : Nat) (ok : Bool) (s : State) : Res := .next (s.flashReadDone i ok).hostResume

/-- FLASH_WRITE_DONE: a flash write ends (R288, R294, R304); hosts' operations that waited for a frame go on (R411). -/
def execFlashWriteDone (i : Nat) (ok : Bool) (s : State) : Res := .next (s.flashWriteDone i ok).hostResume

/-- FRAME_RELEASE: a stamped frame is released once no command of its window runs (R291); hosts' operations that waited for a frame
go on (R411). -/
def execFrameRelease (i : Nat) (s : State) : Res := .next (s.frameRelease i).hostResume

/-- RDMA_WRITE: a host's WRITE (R411, R412). -/
def execRdmaWrite (qpn psn : BitVec 24) (rkey : BitVec 32) (off : BitVec 64) (data : List (BitVec 8)) (s : State) : Res :=
  .next (s.hostRequest qpn.toNat psn.toNat (.write rkey.toNat off.toNat data))

/-- RDMA_READ: a host's READ (R411, R412). -/
def execRdmaRead (qpn psn : BitVec 24) (rkey : BitVec 32) (off : BitVec 64) (len : BitVec 32) (s : State) : Res :=
  .next (s.hostRequest qpn.toNat psn.toNat (.read rkey.toNat off.toNat len.toNat))

/-- FETCH_ADD: a host's 64-bit fetch-and-add (R411). -/
def execFetchAdd (qpn psn : BitVec 24) (rkey : BitVec 32) (off : BitVec 64) (v : BitVec 64) (s : State) : Res :=
  .next (s.hostRequest qpn.toNat psn.toNat (.fetchAdd rkey.toNat off.toNat v.toNat))

/-- CMP_SWAP: a host's 64-bit compare-and-swap (R411). -/
def execCmpSwap (qpn psn : BitVec 24) (rkey : BitVec 32) (off : BitVec 64) (cmp swap : BitVec 64) (s : State) : Res :=
  .next (s.hostRequest qpn.toNat psn.toNat (.cmpSwap rkey.toNat off.toNat cmp.toNat swap.toNat))

/-! ## The module as requester -/

/-- Sending some requests again, on the queue pair as it is then. -/
def State.resend (s : State) (qpn : Nat) (rs : List TxReq) : State :=
  rs.foldl (fun z r =>
    match z.qp qpn with
    | none => z
    | some q => (z.bump Fd.ethRetxCnt q.port).qpSend q [.notice r.psn r.va r.rkey r.imm r.record]) s

/-- Whether a PSN lies at or before another. -/
def psnUpTo (a b : Nat) : Bool := decide ((b + 2 ^ 24 - a) % 2 ^ 24 < 2 ^ 23)

/-- PSNs that a SACK block marks. -/
def sackMarks (base : Nat) (bits : List Bool) : List Nat :=
  ((List.range (min 256 bits.length)).filter (fun i => bits.getD i false)).map (fun i => (base + i + 1) % 2 ^ 24)

/-- ROCE_ACK_RECEIVE: an ACK covers the requests up to its PSN; a NAK names the PSN to go back to; a SACK block has every missing
request below the highest it marks sent once more (R406, R407). -/
def execRoceAckReceive (qpn psn : BitVec 24) (nak : Bool) (sackBase : BitVec 24) (sackBits : List Bool) (s : State) : Res :=
  .next (match s.eth.qps.find? (fun q => decide (q.qpn = qpn.toNat) && !q.err) with
    | none => s
    | some q =>
      if !s.ethUp q.port then s
      else if q.sack then
        let marks := sackMarks sackBase.toNat sackBits
        let left := q.unacked.filter (fun r => psnUpTo sackBase.toNat r.psn && !marks.contains r.psn)
        let missing := left.filter (fun r => marks.any (fun m => psnUpTo r.psn m))
        (s.putQp { q with unacked := left }).resend q.qpn missing
      else
        let left := q.unacked.filter (fun r => if nak then psnUpTo psn.toNat r.psn else !psnUpTo r.psn psn.toNat)
        let s1 := s.putQp { q with unacked := left }
        if nak then s1.resend q.qpn left else s1)

/-- ACK_TIMEOUT: the oldest request without an acknowledgement is sent again, or its queue pair goes to the error state after
RETRY attempts (R406). -/
def execAckTimeout (qpn : BitVec 24) (s : State) : Res :=
  .next (match s.eth.qps.find? (fun q => decide (q.qpn = qpn.toNat) && !q.err) with
    | none => s
    | some q =>
      match q.unacked with
      | [] => s
      | r :: rest =>
        let n := r.tries + 1
        if max 1 (s.fld Fd.ethRetransRetry) ≤ n then s.errQps (fun x => decide (x.qpn = q.qpn))
        else
          let r1 := { r with tries := n }
          (s.putQp { q with unacked := r1 :: rest }).resend q.qpn [r1])

/-- CNP: a CNP lowers the queue pair's rate by an eighth, at most once in 50 µs, not below 1 Gb/s (R408). -/
def execCnp (qpn : BitVec 24) (s : State) : Res :=
  .next (match s.eth.qps.find? (fun q => decide (q.qpn = qpn.toNat) && !q.err) with
    | none => s
    | some q =>
      let s1 := s.bump Fd.ethCnpRxCnt q.port
      let now := s1.clerkNow
      if q.cutAt.any (fun c => decide (now < c + 40000)) then s1
      else s1.putQp { q with rate := max 1000000 (q.rate * 7 / 8), cutAt := some now })

/-- RATE_RECOVERY: 100 µs without a CNP add 10 Gb/s, up to 400 Gb/s (R408). -/
def execRateRecovery (qpn : BitVec 24) (s : State) : Res :=
  .next (match s.eth.qps.find? (fun q => decide (q.qpn = qpn.toNat) && !q.err) with
    | none => s
    | some q => s.putQp { q with rate := min 400000000 (q.rate + 10000000) })

end Sys2Proof.Machine
end

