-- ==== Sys2Proof/Machine/Txn.lean ====
section
/-! DEFINITION. Transactions: opening (R359), shadows (R360), commit (R365, R366, R373), the flip (R367), copy-back (R368), votes
(R366, R369) and abort (R370). -/

namespace Sys2Proof.Machine

/-! ## TXN_BEGIN and shadows -/

/-- The lowest free slot of a tenant (R392). -/
def State.freeTxn (s : State) (t : Fin 16) : Option Nat := (List.range 8).find? (fun j => decide (s.txnState t j = 0))

/-- Transactions of a tenant that are not closed (R358). -/
def State.openTxns (s : State) (t : Fin 16) : Nat :=
  (List.range 8).countP (fun j => decide (s.txnState t j = 1 ∨ s.txnState t j = 2 ∨ s.txnState t j = 3))

/-- Opening the transaction (R359). With fewer than eight not closed but every slot taken by closing ones, it waits. -/
def W.txnOpen (w : W) : W :=
  match w.k.tenant with
  | none => w.fail cPageOwner
  | some t =>
    if (w.s.txnSlot t w.k.txnId).isSome then w.fail cTxnAbort
    else if 8 ≤ w.s.openTxns t then w.fail cTxnFootprint
    else
      match w.s.freeTxn t with
      | none => { w with halt := .wait }
      | some j =>
        let i := 8 * t.val + j
        let s1 := ((w.s.setTxnState t j 1).setFld Fd.poolTxnSlotId 0 i w.k.txnId).setFld Fd.poolTxnSlotShadows 0 i 0
        { w with s := s1, k := { w.k with sub := 1, issued := j } }

/-- The shadow of a page. -/
def State.shadowOf (s : State) (t : Fin 16) (tpn : Nat) : Option Shadow :=
  s.pool.shadows.find? (fun x => decide (x.t = t) && decide (x.tpn = tpn))

/-- One page of TXN_BEGIN (R359): its shadow, and the shadow's address at RESULT. -/
def W.beginPage (w : W) (tpn : Nat) : W :=
  if w.k.late then w.fail cTxnAbort
  else
    let w1 := w.onPage tpn (fun w t _ => w.page (w.s.makeShadow (w.k.ctx w.c) t w.k.issued tpn))
    if !w1.on then w1
    else
      let f := match w1.k.tenant with
        | some t => (w1.s.shadowOf t tpn).map (fun (x : Shadow) => x.shadow)
        | none => none
      w1.putResult (w1.k.u 24 8 + 8 * w1.k.pos) (65536 * f.getD 0)

/-- One step of TXN_BEGIN; after a fault its transaction is DOOMED (R358, R359). -/
def W.txnBegin (w : W) : W :=
  if w.k.sub = 0 then
    let r := w.txnOpen
    match r.halt with
    | .fault => r.finish
    | _ => r
  else
    w.rowStep (w.k.u 20 4) (fun z =>
      let r := z.beginPage (z.k.u 16 4 + z.k.pos)
      match r.halt, r.k.tenant with
      | .fault, some t => if r.k.late then r else { r with s := r.s.doom t r.k.txnId }
      | _, _ => r)

/-- TXN_BEGIN: opens a transaction and shadows a run of pages (R359). -/
def execTxnBegin (c : Fin 256) (n : Nat) (s : State) : Res :=
  .next (match s.cmd c.val n with
    | some k => s.runCmd c.val n 0x0701 (k.u 20 4 + 2) W.txnBegin
    | none => s)

/-- SHADOW_MAKE: the pool makes a shadow of a page for a transaction that is OPEN or DOOMED (R360, R363). -/
def execShadowMake (t : Fin 16) (slot : Fin 8) (tpn : Nat) (s : State) : Res :=
  .next (if decide (s.txnState t slot.val = 1 ∨ s.txnState t slot.val = 2) && s.inTable t.val tpn && !s.pageBusy 256 0 t tpn then
    (s.makeShadow ⟨.tenant t, none, none, none, none⟩ t slot.val tpn).2 else s)

/-! ## Abort -/

/-- Commands of a transaction that run on after its abort (R370). -/
def State.markLate (s : State) (t : Fin 16) (id : Nat) : State :=
  { s with cells := s.cells.map (fun c => (c.1, { c.2 with cmds := c.2.cmds.map (fun k =>
    if k.tenant = some t ∧ k.txnId = id ∧ (k.txn || decide (k.opcode = 0x0701)) ∧ !k.finished then { k with late := true } else k) })) }

/-- Aborting the transaction in a slot (R370): its shadows enter deferred release, SHADOW clears, it closes. -/
def State.abortTxn (s : State) (t : Fin 16) (j : Nat) : State :=
  let id := s.fld Fd.poolTxnSlotId 0 (8 * t.val + j)
  let mine := s.pool.shadows.filter (fun x => decide (x.t = t) && decide (x.slot = j) && x.flip.isNone)
  let s1 := mine.foldl (fun z x => (z.setPte t.val x.tpn { z.pte t.val x.tpn with shadow := false }).dropShadow x true) s
  (((s1.setTxnState t j 0).setFld Fd.poolTxnSlotShadows 0 (8 * t.val + j) 0).markLate t id).bump Fd.poolTxnAbortCnt

/-- The work of TXN_ABORT (R370): the record carries REASON, or TXN_ABORT where it is 0. -/
def W.txnAbort (w : W) : W :=
  let reason : Code := BitVec.ofNat 16 (w.k.u 16 2)
  let s1 := match w.k.tenant with
    | none => w.s
    | some t => (match w.s.txnSlot t w.k.txnId with
      | some j => w.s.abortTxn t j
      | none => w.s)
  ({ w with s := s1, k := { w.k with fault := some (if reason = 0 then cTxnAbort else reason) } }).finish

/-- TXN_ABORT: ends a transaction without its effects (R370). -/
def execTxnAbort (c : Fin 256) (n : Nat) (s : State) : Res := .next (s.work c.val n [0x0703] W.txnAbort)

/-! ## Commit -/

/-- Names of a commit, each once. -/
def Cmd.names (k : Cmd) : List Nat := k.txnNames.eraseDups

/-- Whether every command that names one of the transactions and started before the commit has written its record (R366). -/
def W.commitClear (w : W) : Bool :=
  w.s.cells.all (fun c => c.2.cmds.all (fun y =>
    decide (y.tenant ≠ w.k.tenant) || y.late || !(y.txn || decide (y.opcode = 0x0701)) || !w.k.names.contains y.txnId))

/-- Readiness and causes at this member: ready, DOOMED, NONFINITE (R366). -/
def W.readiness (w : W) : List Bool × W :=
  let states := match w.k.tenant with
    | none => [0]
    | some t => w.k.names.map (fun id => match w.s.txnSlot t id with
      | some j => w.s.txnState t j
      | none => 0)
  let doomed := states.any (fun x => decide (x ≠ 1))
  if w.k.bit 32 2 then
    let r := w.read (w.k.addr 40) 4
    let nf := decide (ofLe r.1 ≠ 0)
    ([!doomed && !nf, doomed, nf], r.2)
  else ([!doomed, doomed, false], w)

/-- The slots of the named transactions in some states. -/
def W.namedSlots (w : W) (states : List Nat) : List (Fin 16 × Nat) :=
  match w.k.tenant with
  | none => []
  | some t => w.k.names.filterMap (fun id => match w.s.txnSlot t id with
    | some j => if states.contains (w.s.txnState t j) then some (t, j) else none
    | none => none)

/-- Flipping every shadowed page of a transaction at a commit epoch, which closes it (R367). -/
def State.flipTxn (s : State) (t : Fin 16) (j c : Nat) : State :=
  let s1 := { s with pool := { s.pool with shadows := s.pool.shadows.map (fun (x : Shadow) =>
    if x.t = t ∧ x.slot = j ∧ x.flip = none then { x with flip := some c } else x) } }
  ((s1.setTxnState t j 4).closeSlot t j).bump Fd.poolTxnCommitCnt

/-- The commit of transactions that were ready: the epoch advances, or the commit waits; then the pages of each of them flip
(R366, R367). -/
def W.flip (w : W) : W :=
  match w.k.tenant with
  | none => w.finish
  | some t =>
    let a := w.s.advanceEpoch t
    if !a.2 then { w with halt := .wait }
    else
      let slots := w.namedSlots (if w.k.u 32 1 % 4 = 2 then [3] else [1, 2])
      ({ w with s := slots.foldl (fun z (x : Fin 16 × Nat) => z.flipTxn x.1 x.2 (a.1.epoch t)) a.1 }).finish

/-- A commit that does not take place (R366, R373): every named transaction that is OPEN or DOOMED is aborted. -/
def W.commitAbort (w : W) (doomed nf : Bool) : W :=
  let s1 := (w.namedSlots [1, 2]).foldl (fun z x => z.abortTxn x.1 x.2) w.s
  let s2 := if nf then s1.bump Fd.poolNonfiniteSkipCnt else s1
  (({ w with s := s2 }).note (if doomed then cTxnAbort else cNonfiniteGrad)).finish

/-- A commit whose outcome is known goes on (R366). -/
def W.commitGo (w : W) : W :=
  match w.k.outcome with
  | none => w
  | some o => if o.getD 0 false then w.flip else w.commitAbort (o.getD 1 false) (o.getD 2 false)

/-- The work of a commit with MODE LOCAL (R366), and with MODE 3 (R365). -/
def W.commitLocal (w : W) : W :=
  if w.k.u 32 1 % 4 = 3 then w.finish
  else if w.k.outcome.isSome then w.commitGo
  else if !w.commitClear then { w with halt := .wait }
  else
    let r := w.readiness
    match r.2.halt with
    | .wait => r.2
    | .fault => r.2.finish
    | .go => { r.2 with k := { r.2.k with outcome := some r.1 } }

/-- The work of a commit with MODE FORCE (R366): every named transaction is IN_DOUBT, or nothing changes. -/
def W.commitForce (w : W) : W :=
  if w.k.outcome.isSome then w.commitGo
  else if (w.namedSlots [3]).length = w.k.names.length then { w with k := { w.k with outcome := some [true, false, false] } }
  else (w.note cTxnAbort).finish

/-- Running a commit whose MODE is one of some. -/
def State.runCommit (s : State) (c n : Nat) (modes : List Nat) (f : W → W) : State :=
  match s.cmd c n with
  | some k => if modes.contains (k.u 32 1 % 4) then s.runCmd c n 0x0702 3 f else s
  | none => s

/-- TXN_COMMIT_LOCAL: commits the named transactions on this module's readiness (R366). -/
def execTxnCommitLocal (c : Fin 256) (n : Nat) (s : State) : Res := .next (s.runCommit c.val n [0, 3] W.commitLocal)

/-- TXN_COMMIT_FORCE: commits transactions that are IN_DOUBT (R366, R369). -/
def execTxnCommitForce (c : Fin 256) (n : Nat) (s : State) : Res := .next (s.runCommit c.val n [2] W.commitForce)

/-- A voting commit forms its readiness and gives it to its collective (R366). -/
def State.voteReady (s : State) (i : Inst) (k : Cmd) : State :=
  let w : W := ⟨s, i.cell, k, .go⟩
  if i.phase ≠ 1 ∨ !w.commitClear then s
  else
    let r := w.readiness
    match r.2.halt with
    | .wait => r.2.s
    | .fault => r.2.keep.failInst i (r.2.k.fault.getD cMemUncorrectable)
    | .go =>
      let j := { i with votes := r.1, phase := 2 }
      (r.2.keep.putInst j).weave j

/-- A voting commit goes on: its collective begins, its readiness is formed, its outcome is carried out (R366). -/
def State.voteCommit (s : State) (c n : Nat) : State :=
  if s.cellDead c then s
  else
    let s1 := match s.instAt c n with
      | some i => if i.opcode = 0x0702 ∧ i.phase = 0 then s.weave i else s
      | none => s
    let s2 := match s1.instAt c n, s1.cmd c n with
      | some i, some k => if i.opcode = 0x0702 then s1.voteReady i k else s1
      | _, _ => s1
    s2.runCommit c n [1] (fun w => if w.k.outcome.isSome && (w.s.instAt c n).isNone then w.commitGo else { w with halt := .wait })

/-- TXN_COMMIT_VOTE: commits the named transactions on a vote of the group (R366). -/
def execTxnCommitVote (c : Fin 256) (n : Nat) (s : State) : Res := .next (s.voteCommit c.val n)

/-- COMMIT_FLIP: a commit whose outcome is ready advances the epoch and flips its pages (R367). -/
def execCommitFlip (c : Fin 256) (n : Nat) (s : State) : Res :=
  .next (s.runCommit c.val n [0, 1, 2] (fun w =>
    if w.k.outcome.any (fun o => o.getD 0 false) && (w.s.instAt c.val n).isNone then w.flip else { w with halt := .wait }))

/-! ## Copy-back -/

/-- COPY_BACK: once no command holds an epoch from C - 64 to C - 1, a shadow is copied into its page's frame and released
(R368). A shadow that cannot be read stays (log entry 31). -/
def execCopyBack (i : Nat) (s : State) : Res :=
  .next (match s.pool.shadows[i]? with
    | none => s
    | some x =>
      match x.flip with
      | none => s
      | some c =>
        if !s.drained x.t ((c + 2 ^ 32 - 1) % 2 ^ 32) 64 then s
        else
          let g := s.copyFrame x.shadow x.frame
          if g.fault.isSome then g.st
          else (g.st.setPte x.t.val x.tpn { g.st.pte x.t.val x.tpn with shadow := false }).dropShadow x true)

end Sys2Proof.Machine
end

