-- ==== Sys2Proof/Machine/Owner.lean ====
section
/-! DEFINITION. Owner commands (R427 to R429), their effects (R399, R418, R428, R448), and the recovery image (R448). -/

namespace Sys2Proof.Machine

/-! ## Messages -/

/-- Fields of an owner command, in network byte order (R427). -/
def ownOp (m : List Byte) : Nat := ofBe (sliceB m 0 2)
def ownTarget (m : List Byte) : Nat := ofBe (sliceB m 2 2)
def ownBodyLen (m : List Byte) : Nat := ofBe (sliceB m 4 4)
def ownSeq (m : List Byte) : Nat := ofBe (sliceB m 8 8)
def ownSerial (m : List Byte) : Nat := ofBe (sliceB m 16 8)
def ownBody (m : List Byte) : List Byte := (m.drop 24).take (ownBodyLen m)

/-- The length of a whole command with a body (R427). -/
def ownLength (b : Nat) : Nat := 24 + b + 388 + 48 + 384 + 16224

/-- Whether the keys and signatures of a command hold (R427). -/
def ownSigned (m : List Byte) : Bool :=
  let b := ownBodyLen m
  let said := m.take (24 + b)
  let rest := m.drop (24 + b)
  decide (m.length = ownLength b) && decide (Config.sha384 (sliceB rest 0 436) = Config.fuseOwnerKey) &&
    Config.rsaVerify (sliceB rest 0 388) said (sliceB rest 436 384) && Config.slhVerify (sliceB rest 388 48) said (sliceB rest 820 16224)

/-- The commands that the Clerk accepts in its phase (R428, R448): none admits a tenant in a recovery boot. -/
def State.opAccepted (s : State) (op : Nat) : Bool :=
  match s.clk.phase with
  | .running => [1, 2, 3, 4, 5, 6, 7].contains op
  | .hold => [3, 4, 5, 6, 7].contains op
  | .recovery => [2, 3, 4, 5, 6, 7].contains op
  | _ => false

/-- Storing an OWNER_SEQ in the configuration table (R427). -/
def State.storeSeq (s : State) (seq : Nat) : State :=
  { s with flash := { s.flash with cfg := some { s.cfgTable with ownerSeq := seq } } }

/-! ## Relays -/

/-- The way to another module (R429): the port of a direct neighbour, or the routing tables; none where it is unreachable. -/
def State.wayTo (s : State) (dst : Nat) : Option (Option Nat) :=
  match (List.range 24).find? (fun p => s.healthy p && decide (s.fld Fd.scecyStatePartnerMod p = dst)) with
  | some p => some (some p)
  | none =>
    let e := (s.routeEntry dst).toNat
    let ports := (List.range 24).filter (fun p => e.testBit p || (decide (bitsOf e 26 24 < 6) && decide (p / 4 = bitsOf e 26 24)))
    if e.testBit 63 && ports.any s.healthy then some none else none

/-- The reply to an owner command goes to where the command came from (R427, R429): a segment with MSG 0x11 to a port's host, or a CONTROL
packet to the module that relayed it. A source that no operand gives is a free value (log entry 70). -/
def State.reply (s : State) (src : Option OwnerSrc) (op seq : Nat) (code : Code) : State :=
  let d := s.draw
  let r : OwnerSrc × State := match src with
    | some x => (x, s)
    | none => (.eth (d.1 % 4) (BitVec.ofNat 128 (d.1 / 4)) (BitVec.ofNat 16 (d.1 / 2 ^ 130)), d.2)
  match r.1 with
  | .eth p ip udp =>
    let s1 := { r.2 with eth := { r.2.eth with ownerTx := r.2.eth.ownerTx + 1 } }
    s1.sendSegments p ip udp 2 none r.2.eth.ownerTx 0x11 (beBytes 2 op ++ beBytes 8 seq ++ beBytes 2 code.toNat)
  | .module m => r.2.sendMsg m (.ctl (.ownerReply (BitVec.ofNat 16 op) (BitVec.ofNat 64 seq) code)) ((r.2.wayTo m).getD none) none

/-- Relaying a command to its target, or answering that it is unreachable (R429). -/
def State.relay (s : State) (src : OwnerSrc) (msg : List Byte) : State :=
  match s.wayTo (ownTarget msg) with
  | some p =>
    let s1 := { s with clk := { s.clk with relays := s.clk.relays ++ [(src, ownOp msg, ownSeq msg, ownTarget msg)] } }
    s1.sendMsg (ownTarget msg) (.ctl (.ownerCmd msg)) p none
  | none => s.reply (some src) (ownOp msg) (ownSeq msg) cRouteUnreachable

/-- The reply to a command that was relayed goes back to where it came from (R429); one that answers no relay is dropped. -/
def State.relayReply (s : State) (target op seq : Nat) (code : Code) : State :=
  match s.clk.relays.find? (fun r => decide (r.2 = (op, seq, target))) with
  | some r => { s with clk := { s.clk with relays := s.clk.relays.erase r } }.reply (some r.1) op seq code
  | none => s

/-- Whether a command came by relay. -/
def OwnerSrc.relayed : OwnerSrc → Bool
  | .module _ => true
  | .eth _ _ _ => false

/-- Where a command came from: its place in the queue says it; one that was not queued has a source that no operand gives, a free
value (log entry 70). -/
def State.ownerFrom (s : State) (nb : Bool) (msg : List Byte) : OwnerSrc × State :=
  match s.clk.ownerQ.find? (fun e => decide (e.2 = msg) && decide (e.1.relayed = nb)) with
  | some e => (e.1, s)
  | none =>
    let d := s.draw
    (if nb then .module (d.1 % 2 ^ 16) else .eth (d.1 % 4) (BitVec.ofNat 128 (d.1 / 4)) (BitVec.ofNat 16 (d.1 / 2 ^ 130)), d.2)

/-- OWNER_RELAY: a command for another module (R429). -/
def execOwnerRelay (msg : List (BitVec 8)) (s : State) : Res :=
  .next (if s.ownerTaken && decide (ownTarget msg ≠ s.moduleId) then
    let r := s.ownerFrom false msg
    { r.2 with clk := { r.2.clk with ownerQ := r.2.clk.ownerQ.erase (r.1, msg) } }.relay r.1 msg
  else s)

/-! ## The recovery image -/

/-- A whole recovery image is checked: staged, with a SOFT reset to follow, or discarded (R448). -/
def State.recovered (s : State) (src : Option OwnerSrc) (seq : Nat) : State :=
  let n := fieldB (s.clk.image.bytes 0 8) 4 4
  let img := s.clk.image.bytes 0 (min n imageMax)
  let code := if !s.imageOk img then cSigFail else (s.stageRefusal).getD cOK
  let s1 := { s with clk := { s.clk with image := [], taken := [] } }.reply src 8 seq code
  if code = cOK then (s1.stageImage img).fullReset 4 else s1

/-- A segment of a recovery image (R448): each offset is taken once, none beyond 64 MiB. -/
def State.imageSeg (s : State) (src : Option OwnerSrc) (seq off : Nat) (bs : List Byte) : State :=
  if s.clk.phase ≠ .recovery then s.bump Fd.moduleOwnerDropCnt
  else if imageMax < off + bs.length ∨ s.clk.taken.any (fun r => decide (r.1 = off)) then s
  else
    let s1 := { s with clk := { s.clk with image := s.clk.image.setBytes off bs, taken := s.clk.taken ++ [(off, off + bs.length)] } }
    let have_ := contiguous s1.clk.taken (s1.clk.taken.length + 1) 0
    let n := fieldB (s1.clk.image.bytes 0 8) 4 4
    if 8 ≤ have_ ∧ (n ≤ have_ ∨ imageMax < n) then s1.recovered src seq else s1

/-- IMAGE_SEG: a segment of a recovery image (R428, R448). -/
def execImageSeg (off : BitVec 32) (bytes : List (BitVec 8)) (s : State) : Res := .next (s.imageSeg none 0 off.toNat bytes)

/-! ## Taking a command -/

/-- A command for this module whose turn it is (R427, R428). -/
def State.ownerCheck (s : State) (src : OwnerSrc) (msg : List Byte) : State :=
  let op := ownOp msg
  let seq := ownSeq msg
  if s.opAccepted op && decide (ownSerial msg = Config.fuseSerial) && ownSigned msg && decide (s.cfgTable.ownerSeq < seq) then
    let c : OwnerCmd := ⟨op, seq, ownBody msg, src⟩
    let s1 := s.storeSeq seq
    { s1 with clk := { s1.clk with accepted := some c } }
  else s.reply (some src) op seq cSigFail

/-- An owner command that the Clerk receives (R400, R423, R427 to R429): one at a time is worked on, the others wait. -/
def State.ownerCommand (s : State) (src : OwnerSrc) (msg : List Byte) : State :=
  let waited := s.clk.ownerQ.contains (src, msg)
  let s0 := { s with clk := { s.clk with ownerQ := s.clk.ownerQ.erase (src, msg) } }
  if !s.ownerTaken then s.bump Fd.moduleOwnerDropCnt
  else if ownTarget msg ≠ s.moduleId then s0.relay src msg
  else if ownOp msg = 8 then s0.imageSeg (some src) (ownSeq msg) (ofBe (sliceB (ownBody msg) 0 4)) ((ownBody msg).drop 4)
  else if s.clk.accepted.isSome then
    (if waited then s
    else if 8 ≤ s.clk.ownerQ.length then s.bump Fd.moduleOwnerDropCnt
    else { s with clk := { s.clk with ownerQ := s.clk.ownerQ ++ [(src, msg)] } })
  else s0.ownerCheck src msg

/-- OWNER_COMMAND: the Clerk receives an owner command (R427). -/
def execOwnerCommand (neighbour : Bool) (msg : List (BitVec 8)) (s : State) : Res :=
  let r := s.ownerFrom neighbour msg
  .next (r.2.ownerCommand r.1 msg)

/-- INCOMPLETE_COMMAND_ABANDON: segments that make no whole command are discarded after HS_TIMEOUT (R455). -/
def execIncompleteCommandAbandon (s : State) : Res :=
  .next { s with eth := { s.eth with joins := s.eth.joins.filter (fun j => decide (j.msg ≠ msgOwner)) } }

/-! ## Effects -/

/-- The effect of the accepted command, if it has a number: its state and the STATUS of the reply. -/
def State.effect (s : State) (op : Nat) (f : OwnerCmd → State → Code × State) : State :=
  match s.clk.accepted with
  | none => s
  | some c =>
    if c.op ≠ op then s
    else
      let r := f c { s with clk := { s.clk with accepted := none } }
      r.2.reply (some c.src) c.op c.seq r.1

/-- ADMIT: admits a tenant (R399). -/
def execAdmitTenant (s : State) : Res :=
  .next (s.effect 1 (fun c z => if z.flag Fd.resetStrapSingle then (cAdmitSingleTenancy, z) else z.admitTenant (AdmitBody.ofBytes c.body)))

/-- The frames and pages of a tenant go (R418, step 5): every frame it held is released with tag 32. -/
def State.freeTenant (s : State) (t : Fin 16) : State :=
  let mine := s.flash.ops.filter (fun o => decide (o.t = t))
  let s1 := mine.foldl (fun z o => z.undoFlash o false) { s with flash := { s.flash with ops := s.flash.ops.filter (fun o => decide (o.t ≠ t)) } }
  let s2 := (List.range (s1.fld Fd.poolPtEntries 0 t.val)).foldl (fun z i => if (z.pte t.val i).valid then z.dropPage t i false else z) s1
  let n := tableFrames (s2.fld Fd.poolPtEntries 0 t.val)
  let f := s2.fld Fd.poolPtBase 0 t.val / 65536
  let s3 := (List.range n).foldl (fun z i => z.setFrame (f + i) FrameInfo.free) s2
  { s3 with pool := { s3.pool with
    waiters := s3.pool.waiters.filter (fun x => decide (x.t ≠ t))
    stamped := s3.pool.stamped.map (fun (x : Stamped) => if x.t = t then { x with keep := false } else x)
    frames := s3.pool.frames.filter (fun e => decide (e.2.tag ≠ 48 + t.val)) } }.syncPool

/-- The memories of a tenant's groups become zero (R418, step 6). -/
def State.zeroGroups (s : State) (mask : Nat) : State :=
  let mineCell := fun (c : Nat) => mask.testBit (c / 16)
  let mineSlice := fun (o : Nat) => mask.testBit (sliceOf o / 4)
  { s with
    stores := s.stores.filter (fun e => !mineCell (e.1 / 2 ^ 21))
    locals := s.locals.filter (fun e => !mineCell (tkCell (e.1 / 2 ^ 15)))
    scache := s.scache.filter (fun e => !mineSlice e.1)
    sramErr := s.sramErr.filter (fun e =>
      if e.1 < 2 ^ 32 then !mineCell (8 * e.1 / 2 ^ 21)
      else if e.1 < 2 ^ 33 then !mineCell (tkCell (8 * (e.1 - 2 ^ 32) / 2 ^ 15))
      else !mineSlice (8 * (e.1 - 2 ^ 33)))
    cells := s.cells.filter (fun e => !mineCell e.1) }

/-- The regions and the per-tenant registers of a tenant are invalid (R417, R418 step 7). -/
def State.clearTenantRegs (s : State) (t : Nat) : State :=
  let keep := fun (o : Nat) => !((fieldsAt o).any (fun fi =>
    decide (perTenant fi = some t) || (decide (fi.1 = Fd.ethAdmitAdmitted) && decide (fi.2 = t))))
  { s with regs := s.regs.filter (fun e => keep e.1) }

/-- The registers of a cell that a tenant gives back (R418): all but its fence, its reset unit and its cycle count. -/
def State.wipeCellRegs (s : State) (c : Nat) : State :=
  let b := Blk.cell.base c
  let kept := [Fd.cellStateFenced, Fd.cycles .cell, Fd.swrstInReset .cell, Fd.swrstNotIdle .cell]
  { s with regs := s.regs.filter (fun e => !(decide (b ≤ e.1) && decide (e.1 < b + 0x10000)) || (fieldsAt e.1).any (fun fi => decide (fi.1 ∈ kept))) }

/-- Resetting a cell of a tenant that ends (R418, R438): NOT_IDLE sets where it was busy. -/
def State.releaseCell (s : State) (c : Nat) : State :=
  let s1 := if s.unitIdle .cell c 0 then s else s.setBit (Fd.swrstNotIdle .cell) c 0 0 true
  (s1.resetCell c).wipeCellRegs c

/-- Ending a tenant (R418). -/
def State.release (s : State) (t : Fin 16) : State :=
  if !s.admitted t then s
  else
    let mask := s.fld Fd.ethAdmitCgMask 0 t.val
    let s0 := (s.closeSession t).setSession t Session.init
    let s1 := { s0 with eth := { s0.eth with qps := s0.eth.qps.filter (fun (q : Qp) => decide (q.t ≠ t)) } }
    let s2 := ((List.range 256).filter (fun c => mask.testBit (c / 16))).foldl (fun z c => z.releaseCell c) s1
    let s3 := s2.endInsts (fun i => decide (i.t = t)) none false
    let s4 := { s3 with weav := { s3.weav with early := s3.weav.early.filter (fun e => decide (e.1 ≠ t)) } }
    let s5 := (List.range 8).foldl (fun z j => if [1, 2, 3].contains (z.txnState t j) then z.abortTxn t j else z) s4
    let s6 := (s5.freeTenant t).zeroGroups mask
    let s7 := { s6.clearTenantRegs t.val with clk := { s6.clk with pairing := s6.clk.pairing.filter (fun x => decide (x ≠ t)) } }
    s7.setFld Fd.poolEpochPending 0 t.val (s7.pool.stamped.countP (fun x => decide (x.t = t)))

/-- RELEASE: ends a tenant (R418). -/
def execRelease (s : State) : Res :=
  .next (s.effect 2 (fun c z =>
    let n := fieldB c.body 0 1
    if h : n < 16 then (cOK, z.release ⟨n, h⟩) else (cOK, z)))

/-- LOCK: sets or clears the owner lock, in the table and at once (R428). -/
def execLock (s : State) : Res :=
  .next (s.effect 3 (fun c z =>
    let on_ := (fieldB c.body 0 1).testBit 0
    (cOK, { z with flash := { z.flash with cfg := some { z.cfgTable with lock := on_ } } }.setFld Fd.resetLockOwnerLock 0 0 (b2n on_))))

/-- RESET: an authenticated remote reset, or a neighbour's (R428, R429, R431). -/
def execReset (s : State) : Res :=
  .next (match s.clk.accepted with
    | some c =>
      if c.op = 4 then
        let z := s.effect 4 (fun _ z => (cOK, z))
        -- a reply to a neighbour leaves before the reset
        let z1 := if c.src.relayed then z.routePacket (z.fab.transit.length - 1) false else z
        z1.fullReset (if c.src.relayed then 6 else 5)
      else s
    | none => s)

/-- CLEAR_CAUSE: writes a mask to RESET.CAUSE as a W1C write (R428). -/
def execClearCause (s : State) : Res :=
  .next (s.effect 5 (fun c z =>
    let v := z.fld Fd.resetCause
    (cOK, z.setFld Fd.resetCause 0 0 (v - Nat.land v (fieldB c.body 0 1)))))

/-- CONFIG: replaces the configuration table; the OWNER_SEQ stored does not fall, so that no command can be replayed (R427, R428). -/
def execConfig (s : State) : Res :=
  .next (s.effect 6 (fun c z =>
    (cOK, { z with flash := { z.flash with cfg := (Config.cfgOf c.body).map (fun n => { n with ownerSeq := max n.ownerSeq c.seq }) } })))

/-- RESUME: leaves the hold; the boot goes on at step 5 (R428, R448). -/
def execResume (s : State) : Res :=
  .next (s.effect 7 (fun _ z =>
    match z.clk.phase, z.clk.obs with
    | .hold, some o => (cOK, z.bootOn o)
    | _, _ => (cOK, z)))

end Sys2Proof.Machine
end

