-- ==== Sys2Proof/Machine/Prologue.lean ====
section
/-! DEFINITION. The prologue of a chained successor (R137): its resident panel and ring, or its first row tile, fetched on its behalf. -/

namespace Sys2Proof.Machine

/-- Whether the fetch of a predecessor is past its last streaming tile: the read of that tile is issued; where it reads none, the Mill has
begun the first k-step of its last output tile; an attention command reads the last key tile of its last row tile (R137). -/
def Cmd.pastFetch (k : Cmd) : Bool :=
  let g := k.geo
  if k.opcode = 0x0201 ∨ k.opcode = 0x0202 then
    k.kdone || (if k.fetchB then decide ((k.runs g).length * g.streams ≤ k.issued)
      else decide ((k.runs g).length ≤ k.pos) && (decide (0 < k.sub) || decide (0 < k.kread)))
  else
    k.kdone || (decide (k.allTiles ≤ k.pos + 1) && decide (k.loads = 2) && decide ((k.keyTiles k.curTile).length ≤ k.sub + 1))

/-- Fetching for a command that has not started: a transfer is issued and lands. -/
def W.fetchEarly (f : W → W) (w : W) : W :=
  let w1 := f w
  if w1.halt = .wait then w.back w1
  else
    match (w1.s.cell w.c).xfers.getLast? with
    | some x => w1.millLand x
    | none => w1

/-- The panel and the ring of a successor, as far as its own ring reaches. -/
def W.prologue : Nat → W → W
  | 0, w => w
  | n + 1, w =>
    if !w.on then w
    else if w.k.mapsDue then W.prologue n w.latchMaps
    else if w.k.loads = 0 ∧ w.s.panelReady w.c w.k then W.prologue n (w.fetchEarly W.loadPanel)
    else if w.k.issued < w.k.ring ∧ w.s.tileLoadReady w.c w.k then W.prologue n (w.fetchEarly W.loadTile)
    else w

/-- The checks and the first row tile of an attention successor; where one fails, nothing is fetched early. -/
def W.attnPrologue (w : W) : W :=
  if w.k.issued ≠ 0 ∨ w.k.u 16 4 = 0 then w
  else
    let w1 := w.attnChecks
    let w2 := if w1.on && decide (0 < w1.k.allTiles) then w1.beginTile else w1
    if w2.on then { w2 with k := { w2.k with issued := 2 } } else { w2 with k := w.k }

/-- SUCCESSOR_PROLOGUE: what a chained successor's first panel and ring, or first row tile, need is fetched on its behalf (R137). -/
def execSuccessorPrologue (c : Fin 256) (n : Nat) (s : State) : Res :=
  let c := c.val
  .next (match s.cmd c n with
    | none => s
    | some k =>
      match s.queue c k.q with
      | [] => s
      | e :: es =>
        let h := s.headCmd c k.q e
        let y := h.1.resume e.early
        let dense := decide (y.opcode = 0x0201) || decide (y.opcode = 0x0202)
        if s.cellDead c || decide (e.pred ≠ some n) || e.cancelled || h.2.1 || !isMill y.opcode || !isMill k.opcode || y.fence ||
            !k.pastFetch || !(decide (y.tallyIn = 0) || e.tallyTaken) || y.finished then s
        else
          let w0 := W.mk h.2.2 c y .go
          let w := if dense then w0.prologue (y.ring + 3) else w0.attnPrologue
          let k1 := { w.k with kdone := false, hand := w.k.settle.hand }
          w.s.setQueue c k.q ({ e with early := some k1 } :: es))

end Sys2Proof.Machine
end

