-- ==== Sys2Proof/Machine/Registers.lean ====
section
/-! DEFINITION. Commands that write or read a register of control space (R11, R83, R276, R328, R376, R377, R382, R412, R435,
R436, R439), the end of a memory-side operation (R277), and a unit's leaving reset (R437, R438). -/

namespace Sys2Proof.Machine

/-- A write of a whole register, whatever comes of it. -/
def State.writeWhole (s : State) (who : Who) (o v : Nat) : State := (s.ctlWrite who o 8 v).2

/-- The bits of the bytes that byte enables name. -/
def byteMask (be : BitVec 8) : Nat := ((List.range 8).map (fun i => if be.getLsbD i then 0xFF * 2 ^ (8 * i) else 0)).sum

/-- TK_RUN_WRITE: one write to TK_RUN0 or TK_RUN1 by the bytes it addresses (R11, R83). -/
def execTkRunWrite (who : Who) (c : Fin 256) (hi : Bool) (v : BitVec 64) (be : BitVec 8) (s : State) : Res :=
  let o := (if hi then Fd.cellTkRun1 else Fd.cellTkRun0).reg c.val 0
  .next (if be = 0 then s else (s.ctlWriteMask who o (byteMask be) v.toNat).2)

/-- REGISTER_WRITE: a write of 1, 2, 4 or 8 bytes, with the bits that hardware sets in the same cycle (R11 to R13, R109, R417). -/
def execRegisterWrite (who : Who) (off : BitVec 28) (size : BitVec 2) (v hwset : BitVec 64) (s : State) : Res :=
  let n := sizeBytes size
  .next (s.ctlWrite who (off.toNat / n * n) n v.toNat hwset.toNat).2

/-- PORT_ENABLE: a write to CTRL of a port (R328). -/
def execPortEnable (who : Who) (p : Fin 24) (v : BitVec 64) (s : State) : Res :=
  .next (s.writeWhole who (Fd.scecyCtrlEnable.reg p.val 0) v.toNat)

/-- STREAM_ARM_WRITE: a write to a stream's registers or to a data position (R377). -/
def execStreamArmWrite (who : Who) (off : BitVec 28) (size : BitVec 2) (v : BitVec 64) (s : State) : Res :=
  let n := sizeBytes size
  .next (s.ctlWrite who (off.toNat / n * n) n v.toNat).2

/-- DRAW: a read of a stream's DRAW (R376, R377). -/
def execDraw (who : Who) (t : Fin 16) (str : Fin 4) (s : State) : Res :=
  .next (s.ctlRead who (Fd.moduleStreamDraw.reg 0 (streamIdx t.val str.val)) 8).2.2

/-- PARTNER_PAIR: PARTNER of a tenant is written with ID and PAIR = 1 (R382). -/
def execPartnerPair (who : Who) (t : Fin 16) (partner : BitVec 16) (s : State) : Res :=
  .next (s.writeWhole who (Fd.modulePartnerId.reg 0 t.val) (partner.toNat + 2 ^ 16))

/-- DOORBELL: a write to DOORBELL of a queue (R412). -/
def execDoorbell (who : Who) (c : Fin 256) (q : Fin 16) (v : BitVec 64) (s : State) : Res :=
  .next (s.writeWhole who (Fd.cellDoorbell.reg c.val q.val) v.toNat)

/-- SW_RESET_ARM: a write of ARM (R435). -/
def execSwResetArm (who : Who) (s : State) : Res := .next (s.writeWhole who (Fd.moduleSwResetArm.reg 0 0) 1)

/-- SW_RESET_GO: a write of GO (R435). -/
def execSwResetGo (who : Who) (s : State) : Res := .next (s.writeWhole who (Fd.moduleSwResetArm.reg 0 0) 2)

/-- SWRST: a write to a block's SWRST (R436); an offset that holds none is an ordinary write. -/
def execSwrst (who : Who) (off : BitVec 28) (v : BitVec 64) (s : State) : Res :=
  .next (s.writeWhole who (off.toNat / 8 * 8) v.toNat)

/-- MEM_REQ: the manager asks for a stack mode with GO (R439). -/
def execMemReq (who : Who) (stackMask : BitVec 12) (recovery : Bool) (s : State) : Res :=
  .next (s.writeWhole who (Fd.moduleMemReqStacks.reg 0 0) (stackMask.toNat + 4096 * b2n recovery + 8192))

/-- A write to MS_GO with a kind (R277). -/
def State.msGoWrite (s : State) (who : Who) (m kind : Nat) (imm : Bool) : State :=
  s.writeWhole who (Fd.stackMsGoKind.reg m 0) (kind + 256 * b2n imm)

/-- MS_ADD_INT32: KIND 0 (R277). -/
def execMsAddInt32 (who : Who) (m : Fin 12) (imm : Bool) (s : State) : Res := .next (s.msGoWrite who m.val 0 imm)

/-- MS_ADD_INT64: KIND 1 (R277). -/
def execMsAddInt64 (who : Who) (m : Fin 12) (imm : Bool) (s : State) : Res := .next (s.msGoWrite who m.val 1 imm)

/-- MS_ADD_FP32: KIND 2 (R277). -/
def execMsAddFp32 (who : Who) (m : Fin 12) (imm : Bool) (s : State) : Res := .next (s.msGoWrite who m.val 2 imm)

/-- MS_ADD_L16: KIND 3 (R277). -/
def execMsAddL16 (who : Who) (m : Fin 12) (imm : Bool) (s : State) : Res := .next (s.msGoWrite who m.val 3 imm)

/-- MS_FILL: KIND 4 (R277). -/
def execMsFill (who : Who) (m : Fin 12) (imm : Bool) (s : State) : Res := .next (s.msGoWrite who m.val 4 imm)

/-- The end of a memory-side operation: FAULT and DONE (R277). -/
def State.msEnd (s : State) (m : Nat) : State :=
  match s.stk.ms.find? (fun o => decide (o.stack = m)) with
  | none => s
  | some o =>
    let s1 := { s with stk := { s.stk with ms := s.stk.ms.filter (fun y => decide (y.stack ≠ m)) } }
    ((s1.setFld Fd.stackMsStatusFault m 0 o.fault.toNat).setFld Fd.stackMsStatusBusy m 0 0).setFld Fd.stackMsStatusDone m 0 1

/-- MEMSIDE_DONE: a memory-side operation ends (R277). -/
def execMemsideDone (m : Fin 12) (s : State) : Res := .next (s.msEnd m.val)

/-- The block, its index and the unit inside it that a reset unit names (R436). -/
def unitBlock : ResetUnit → Blk × Nat × Nat
  | .cell c => (.cell, c.val, 0)
  | .stack m => (.stack, m.val, 0)
  | .scecy p => (.scecy, p.val, 0)
  | .eth e => (.eth, e.val, 0)
  | .weaver h => (.weaver, 0, h.val)
  | .carters h => (.weaver, 0, 2 + h.val)
  | .flash => (.flash, 0, 0)

/-- UNIT_RESET_EXIT: a unit leaves reset (R437, R438). -/
def execUnitResetExit (u : ResetUnit) (s : State) : Res :=
  .next (s.exitReset (unitBlock u).1 (unitBlock u).2.1 (unitBlock u).2.2)

end Sys2Proof.Machine
end

