-- ==== Sys2Proof/Machine/Snap.lean ====
section
/-! DEFINITION. Snapshots (R384 to R388): SAVE writes an image of the committed state to flash or to a partner, RESTORE checks one and
restores it. -/

namespace Sys2Proof.Machine

/-! ## Images -/

/-- An entry of a manifest: address, bytes, kind (R385). -/
def manifestAt (bs : List Byte) (i : Nat) : Nat × Nat := (fieldB bs (16 * i) 8, fieldB bs (16 * i + 8) 5)

/-- Bytes of an image after its header (R386): the manifest, then each region padded to 64 bytes. -/
def bodySize (n : Nat) (man : List Byte) : Nat := 16 * n + ((List.range n).map (fun i => ceilTo 64 (manifestAt man i).2)).foldl (· + ·) 0

/-- The 32 bytes of a stream in an image header (R387): SEED, BASE, CFG, OFFSET. -/
def State.streamBytes (s : State) (i : Nat) : List Byte :=
  leBytes 8 (s.fld Fd.moduleStreamSeed 0 i) ++ leBytes 8 (s.fld Fd.moduleStreamBase 0 i) ++
    leBytes 8 (s.reg (Fd.moduleStreamCfgRate.reg 0 i)).toNat ++ leBytes 8 (s.fld Fd.moduleStreamOffset 0 i)

/-- The image header (R387). -/
def State.imageHeader (s : State) (k : Cmd) (valid : Bool) (coFed : Bool) (len csum : Nat) : List Byte :=
  let t := k.tenantNo
  leBytes 4 (b2n valid) ++ leBytes 4 (k.u 56 4) ++ leBytes 8 (k.u 48 8) ++ leBytes 4 (s.fld Fd.weaverLayoutEpoch 0 t) ++
    leBytes 2 s.moduleId ++ leBytes 1 t ++ leBytes 1 (b2n coFed) ++ leBytes 4 (k.u 20 4) ++ leBytes 4 0 ++ leBytes 8 len ++ leBytes 8 csum ++
    (List.range 16).flatMap (fun c => leBytes 4 (s.fld Fd.weaverChanSeq 0 (16 * t + c))) ++
    (List.range 4).flatMap (fun i => s.streamBytes (streamIdx t i)) ++ List.replicate 272 0

/-- What a SAVE's accesses carry: never a transaction (R386). -/
def W.snapRead (w : W) (a n : Nat) : List Byte × W :=
  if !w.on then (List.replicate n 0, w)
  else
    let g := w.s.globalRead { w.k.ctx w.c with txn := none } a n
    (sliceB g.bytes 0 n, w.took g)

/-- The body of an image (R386): manifest, then the regions in order; after a refusal, what came before it. -/
def W.snapBody (w : W) (man : List Byte) : List Byte × W :=
  (List.range (w.k.u 20 4)).foldl (fun z i =>
    if !z.2.on then z
    else
      let e := manifestAt man i
      let r := z.2.snapRead (e.1 % 2 ^ 48) e.2
      if r.2.on then (z.1 ++ sliceB r.1 0 (ceilTo 64 e.2), r.2) else (z.1, r.2)) (man, w)

/-- Byte 0 of the flash slot of a snapshot (R386). -/
def Cmd.snapBase (k : Cmd) : Nat := 2 ^ 40 * (2 * k.tenantNo + k.u 17 1 % 2)

/-- Writing to the snapshot partition. -/
def State.snapWrite (s : State) (a : Nat) (bs : List Byte) : State := { s with flash := { s.flash with snap := s.flash.snap.setBytes a bs } }

/-- Whether an image sent to the partner is co-fed (R383). -/
def State.coFed (s : State) (t : Nat) : Bool := !s.flag Fd.modulePartnerPaired 0 t || s.flag Fd.modulePartnerCoFed 0 t

/-! ## SAVE -/

/-- The LOCAL target (R386): header with VALID = 0, data, header with VALID = 1. -/
def W.saveLocal (w : W) (len csum : Nat) (body : List Byte) (whole : Bool) : W :=
  if w.s.fld Fd.moduleSnapSlot * 65536 < 512 + len then w.note cPoolExhausted
  else if w.s.inReset .flash 0 then ({ w with s := w.s.flashDropped }).note cLinkDown
  else
    let b := w.k.snapBase
    let s1 := (w.s.snapWrite b (w.s.imageHeader w.k false false len csum)).snapWrite (b + 512) body
    if whole then ({ w with s := s1.snapWrite b (s1.imageHeader w.k true false len csum) }).moved (512 + len) else { w with s := s1 }

/-- The three pieces of an image in the order of their writing (R386): offset and bytes. -/
def State.imageParts (s : State) (k : Cmd) (co : Bool) (len csum : Nat) (body : List Byte) (whole : Bool) : List (Nat × List Byte) :=
  [(0, s.imageHeader k false co len csum), (512, body)] ++ (if whole then [(0, s.imageHeader k true co len csum)] else [])

/-- The address of the partner's buffer. -/
def Cmd.peer (k : Cmd) : Nat := k.addr 32

/-- Transfers of a SNAP that carry the parts still to be written: unit 2^20 + place. -/
def W.queueParts (w : W) (parts : List (Nat × List Byte)) : W :=
  let xs : List Xfer := ((List.range parts.length).zip parts).map (fun p =>
    ⟨w.k.num, w.k.chanq, (packetCuts p.2.2.length).map (fun q => ((w.k.peer + p.2.1 + q.1) % 2 ^ 48, sliceB p.2.2 q.1 q.2)), 2 ^ 20 + p.1, none⟩)
  { w with s := w.s.onCell w.c (fun y => { y with xfers := y.xfers ++ xs }) }

/-- Sending the packets of one part. -/
def W.sendPart (w : W) (x : Xfer) : W :=
  { w with s := ((List.range x.pieces.length).zip x.pieces).foldl (fun z (o : Nat × Nat × List Byte) =>
      z.remote (w.k.module 32) w.k.tenantNo 1 o.2.1 o.2.2.length o.2.2 (.store w.c w.k.num x.unit o.1) (w.c, w.k.num)) w.s }

/-- The PARTNER target (R383, R386): written here, or handed to the fabric part by part. What a fault at the other target was
is set aside until this one has ended. -/
def W.savePartner (w : W) (len csum : Nat) (body : List Byte) (whole : Bool) : W :=
  if w.k.u 40 5 < 512 + len then (w.note cPoolExhausted).finish
  else
    let co := w.s.coFed w.k.tenantNo
    let w0 := if co then w.note cCoFedPartner else w
    let parts := w0.s.imageParts w0.k co len csum body whole
    if w0.k.module 32 = w0.s.moduleId then
      let x := { w0.k.ctx w0.c with txn := none }
      (parts.foldl (fun z p =>
        if !z.on then z
        else
          let g := z.s.globalWrite x (z.k.peer + p.1) p.2
          (z.took g).moved g.bytes.length) w0).finish
    else
      let aside := match w0.k.fault with
        | some f => [(f.toNat : Int)]
        | none => []
      let w1 := ({ w0 with k := { w0.k with issued := 1, words := aside, fault := none } }).queueParts parts
      match (w1.s.xfersOf w1.c w1.k.num).head? with
      | some x => w1.sendPart x
      | none => w1.finish

/-- Whether an image of so many bytes fits no target that the command names (R386, R394). -/
def W.noTargetFits (w : W) (size : Nat) : Bool :=
  (w.k.bit 16 2 || w.k.bit 16 3) && (!w.k.bit 16 2 || decide (w.s.fld Fd.moduleSnapSlot * 65536 < size)) &&
    (!w.k.bit 16 3 || decide (w.k.u 40 5 < size))

/-- A SAVE begins: the whole image is formed as it is committed at the command's epoch, then written (R386). Where no target can hold
it, nothing more is read (R394). -/
def W.saveBegin (w : W) : W :=
  let n := w.k.u 20 4
  if w.noTargetFits (512 + 16 * n) then (w.note cPoolExhausted).finish
  else
    let man := w.snapRead (w.k.addr 24) (16 * n)
    if man.2.halt = .wait then man.2
    else if !man.2.on then man.2.finish
    else
      let len := bodySize n man.1
      if w.noTargetFits (512 + len) then (man.2.note cPoolExhausted).finish
      else
        let r := man.2.snapBody man.1
        if r.2.halt = .wait then r.2
        else
          let whole := r.2.on
          let w1 := { r.2 with halt := .go }
          let csum := bytesCsum r.1
          let w2 := if w1.k.bit 16 2 then w1.saveLocal len csum r.1 whole else w1
          if w2.k.bit 16 3 then w2.savePartner len csum r.1 whole else w2.finish

/-- A SAVE whose partner is another module: the next part leaves once the last is acknowledged (R386); a remote fault ends it. -/
def W.saveOn (w : W) : W :=
  match w.s.xfersOf w.c w.k.num with
  | [] => w.finish
  | x :: rest =>
    if w.s.xferAway w.c w.k.num x.unit then { w with halt := .wait }
    else
      let n := x.pieces.foldl (fun a p => a + p.2.length) 0
      let s1 := w.s.onCell w.c (fun y => { y with xfers := y.xfers.erase x })
      let w1 := ({ w with s := s1 }).moved n
      let stop := w1.k.fault.isSome || rest.isEmpty
      if stop then
        let first : Option Code := w1.k.words.head?.map (fun f => BitVec.ofNat 16 f.toNat)
        ({ w1 with
          s := w1.s.onCell w1.c (fun y => { y with xfers := y.xfers.filter (fun z => decide (z.num ≠ w1.k.num)) })
          k := { w1.k with fault := first <|> w1.k.fault } }).finish
      else
        match rest with
        | y :: _ => w1.sendPart y
        | [] => w1.finish

/-- Running a SNAP whose MODE is one of some. -/
def State.runSnap (s : State) (c n : Nat) (modes : List Nat) (f : W → W) : State :=
  match s.cmd c n with
  | some k => if modes.contains (k.u 16 1 % 4) then s.runCmd c n 0x0704 6 f else s
  | none => s

/-- SNAP_SAVE: writes an image (R386); MODE 2 and 3 complete at once (R385). -/
def execSnapSave (c : Fin 256) (n : Nat) (s : State) : Res :=
  .next (s.runSnap c.val n [0, 2, 3] (fun w =>
    if w.k.u 16 1 % 4 ≠ 0 then w.finish
    else if w.k.issued = 0 then w.saveBegin else w.saveOn))

/-! ## RESTORE -/

/-- Whether an image's header and body pass the check of R388. -/
def imageValid (hdr body : List Byte) : Bool :=
  decide (fieldB hdr 0 4 = 1) && decide (fieldB hdr 40 8 = bytesCsum body)

/-- Places of the regions in a body: offset and bytes of region i of n (R386). -/
def regionAt (n : Nat) (body : List Byte) (i : Nat) : Nat × Nat :=
  (16 * n + ((List.range i).map (fun j => ceilTo 64 (manifestAt body j).2)).foldl (· + ·) 0, (manifestAt body i).2)

/-- The regions of an image go to their places (R388). -/
def W.restoreRegions (w : W) (hdr body : List Byte) : W :=
  let n := fieldB hdr 24 4
  let want := w.k.u 20 4
  let man := if want = 0 then ([], w) else w.read (w.k.addr 24) (16 * want)
  (List.range (if want = 0 then n else min want n)).foldl (fun z i =>
    if !z.on then z
    else
      let r := regionAt n body i
      let e := if want = 0 then ((manifestAt body i).1, r.2) else ((manifestAt man.1 i).1, min (manifestAt man.1 i).2 r.2)
      let bs := sliceB body r.1 e.2
      let z1 := z.write (e.1 % 2 ^ 48) bs
      if z1.on then z1.moved bs.length else z1) man.2

/-- A stream's registers from an image header; the stream is armed (R377, R388). -/
def State.restoreStream (s : State) (t i : Nat) (hdr : List Byte) : State :=
  let j := streamIdx t i
  let o := 112 + 32 * i
  let s1 := (s.setFld Fd.moduleStreamSeed 0 j (fieldB hdr o 8)).setFld Fd.moduleStreamBase 0 j (fieldB hdr (o + 8) 8)
  let s2 := (s1.setFld Fd.moduleStreamCfgRate 0 j (fieldB hdr (o + 16) 4)).setFld Fd.moduleStreamCfgStreamNo 0 j (fieldB hdr (o + 20) 2)
  ((s2.setFld Fd.moduleStreamCfgSkew 0 j 0).setFld Fd.moduleStreamOffset 0 j (fieldB hdr (o + 24) 8)).armStream j

/-- The register-held items of an image (R388). -/
def W.restoreRegs (w : W) (hdr : List Byte) : W :=
  let t := w.k.tenantNo
  let s1 := w.s.setFld Fd.weaverLayoutEpoch 0 t (fieldB hdr 16 4)
  let s2 := (List.range 16).foldl (fun z c =>
    z.setFld Fd.weaverChanSeq 0 (16 * t + c) (if w.k.bit 16 4 then w.k.u (64 + 4 * c) 4 else fieldB hdr (48 + 4 * c) 4)) s1
  let s3 := (List.range 4).foldl (fun z i => z.restoreStream t i hdr) s2
  { w with s := (s3.setFld Fd.moduleDataPos 0 t (fieldB hdr 8 8)).armAll t }

/-- Restoring from an image at hand (R388). -/
def W.restoreFrom (w : W) (hdr body : List Byte) : W :=
  if !imageValid hdr body then (w.note cTxnAbort).finish
  else
    let w1 := w.restoreRegions hdr body
    match w1.halt with
    | .wait => w1
    | .fault => w1.finish
    | .go => (w1.restoreRegs hdr).finish

/-- A RESTORE from the flash slot (R388): the read runs, then the image is at hand. -/
def W.restoreLocal (w : W) : W :=
  match w.k.outcome with
  | some [true] =>
    let b := w.k.snapBase
    let hdr := w.s.flash.snap.bytes b 512
    w.restoreFrom hdr (w.s.flash.snap.bytes (b + 512) (if fieldB hdr 0 4 = 1 then fieldB hdr 32 8 else 0))
  | some _ => (w.note cFlashReadFail).finish
  | none =>
    if w.k.issued ≠ 0 then { w with halt := .wait }
    else if w.s.inReset .flash 0 then (({ w with s := w.s.flashDropped }).note cLinkDown).finish
    else
      let t : Fin 16 := ⟨w.k.tenantNo % 16, Nat.mod_lt _ (by decide)⟩
      -- the page numbers lie outside every table and every mapping: the operation stands for the partition alone
      let o : FlashOp := ⟨false, 7, some (w.c, w.k.num), t, 2 ^ 40, 2 ^ 40, 0, 0, none⟩
      { w with s := { w.s with flash := { w.s.flash with ops := w.s.flash.ops ++ [o] } }, k := { w.k with issued := 1 } }

/-- Asking another module for a part of an image. -/
def W.askPart (w : W) (unit off len : Nat) : W :=
  let cuts := packetCuts len
  let x : Xfer := ⟨w.k.num, w.k.chanq, cuts.map (fun q => ((w.k.peer + off + q.1) % 2 ^ 48, [])), unit, none⟩
  let w1 := { w with s := w.s.onCell w.c (fun y => { y with xfers := y.xfers ++ [x] }), k := { w.k with issued := unit + 1 } }
  { w1 with s := ((List.range cuts.length).zip cuts).foldl (fun z (q : Nat × Nat × Nat) =>
      z.remote (w.k.module 32) w.k.tenantNo 0 ((w.k.peer + off + q.2.1) % 2 ^ 48) q.2.2 [] (.fetch w.c w.k.num unit q.1) (w.c, w.k.num)) w1.s }

/-- The bytes that a transfer has brought. -/
def Xfer.bytes (x : Xfer) : List Byte := x.pieces.flatMap (fun p => p.2)

/-- The end of a SNAP with its transfers. -/
def W.dropXfers (w : W) : W :=
  { w with s := w.s.onCell w.c (fun y => { y with xfers := y.xfers.filter (fun z => decide (z.num ≠ w.k.num)) }) }

/-- A RESTORE from another module (R316, R388): its header is fetched, then the rest. -/
def W.restoreAway (w : W) : W :=
  let xs := w.s.xfersOf w.c w.k.num
  if w.k.issued = 0 then w.askPart 0 0 512
  else if xs.any (fun x => w.s.xferAway w.c w.k.num x.unit) then { w with halt := .wait }
  else
    match xs.find? (fun x => x.fault.isSome) with
    | some x => ((w.note (x.fault.getD 0)).dropXfers).finish
    | none =>
      match xs with
      | [h] =>
        if fieldB h.bytes 0 4 ≠ 1 then ((w.note cTxnAbort).dropXfers).finish
        else w.askPart 1 512 (fieldB h.bytes 32 8)
      | h :: b :: _ =>
        let w1 := w.restoreFrom h.bytes b.bytes
        if w1.halt = .wait then w1 else w1.dropXfers
      | [] => w.finish

/-- A RESTORE from this module's own memory (R388). -/
def W.restoreHere (w : W) : W :=
  let h := w.read w.k.peer 512
  let n := if fieldB h.1 0 4 = 1 then fieldB h.1 32 8 else 0
  let b := h.2.read (w.k.peer + 512) n
  match b.2.halt with
  | .wait => b.2
  | .fault => b.2.finish
  | .go => b.2.restoreFrom h.1 b.1

/-- One step of a RESTORE (R388): LOCAL reads the flash slot, PARTNER alone the address PEER; a SNAP that names neither has no
image to check. -/
def W.restore (w : W) : W :=
  if w.k.bit 16 2 then w.restoreLocal
  else if !w.k.bit 16 3 then (w.note cTxnAbort).finish
  else if w.k.module 32 = w.s.moduleId then w.restoreHere
  else w.restoreAway

/-- SNAP_RESTORE: checks an image and restores it (R388). -/
def execSnapRestore (c : Fin 256) (n : Nat) (s : State) : Res := .next (s.runSnap c.val n [1] W.restore)

end Sys2Proof.Machine
end

