-- ==== Sys2Proof/Machine/Update.lean ====
section
/-! DEFINITION. Firmware updates along a chain of modules (R449 to R452), telemetry (R425), and CONTROL packets (R324, R333, R382,
R429). -/

namespace Sys2Proof.Machine

/-! ## Updates -/

/-- What the Clerk's accesses for the manager carry: the manager's rights, where there is one. -/
def State.managerCtx (s : State) : Ctx :=
  match (List.finRange 16).find? (fun t => s.admitted t && s.flag Fd.ethAdmitManager 0 t.val) with
  | some t => tenantCtx t
  | none => ⟨.clerk, none, none, none, none⟩

/-- The result list as written at UPDATE_RESULT (R450). -/
def resultBytes (rs : List (Nat × Nat)) : List Byte := rs.flatMap (fun r => leBytes 2 r.1 ++ leBytes 2 r.2)

/-- The originator writes the results it has and sets DONE (R450, R451). -/
def State.endUpdate (s : State) (results : List (Nat × Nat)) (code : Code) : State :=
  let s1 := (s.globalWrite s.managerCtx (s.fld Fd.moduleUpdateResult) (resultBytes results)).st
  let s2 := ((s1.setFld Fd.moduleUpdateCtrlDone 0 0 1).setFld Fd.moduleUpdateCtrlFault 0 0 code.toNat).setFld Fd.moduleUpdateCtrlBusy 0 0 0
  { s2 with clk := { s2.clk with update := none } }

/-- The result list goes back to the originator, the first module of the list (R450). -/
def State.returnResults (s : State) (u : UpdSt) : State :=
  if u.origin then s.endUpdate u.results cOK
  else
    let s1 := (s.sendMsg ((u.results.headD (0, 0)).1) (.results u.results) none none).setFld Fd.moduleUpdateCtrlBusy 0 0 0
    { s1 with clk := { s1.clk with update := none } }

/-- Forwarding to the positions from one on (R450, R451): one that cannot be routed is recorded and skipped. -/
def State.forwardFrom (s : State) (u : UpdSt) : Nat → Nat → State
  | 0, _ => s.returnResults u
  | f + 1, p =>
    if u.chain.length ≤ p then s.returnResults u
    else
      let dst := u.chain.getD p 0
      match s.wayTo dst with
      | some way =>
        let u1 := { u with next := p }
        let s1 := (s.sendMsg dst (.image p u.image u.chain u.results) way none).setFld Fd.moduleUpdateCtrlBusy 0 0 (b2n u.origin)
        { s1 with clk := { s1.clk with update := some u1 } }
      | none => State.forwardFrom s { u with results := u.results ++ [(dst, cRouteUnreachable.toNat)] } f (p + 1)

/-- A module handles an image at its position (R450, R451). -/
def State.handleImage (s : State) (u : UpdSt) : State :=
  let id := s.moduleId
  let s0 := { s.setFld Fd.moduleUpdateCtrlBusy 0 0 1 with clk := { s.clk with update := some u } }
  if !s0.imageOk u.image then s0.returnResults { u with results := u.results ++ [(id, cSigFail.toNat)] }
  else
    let g := s0.flash.staging
    let r : Code × State :=
      match s0.stageRefusal with
      | some c => (c, s0)
      | none => if g.valid && g.pending && decide (g.image = u.image) then (cOK, s0) else (cOK, s0.stageImage u.image)
    r.2.forwardFrom { u with results := u.results ++ [(id, r.1.toNat)] } (u.chain.length + 1) (u.pos + 1)

/-- The image and the chain that an originator reads (R449). An image that cannot be read is none that verifies. -/
def State.beginUpdate (s : State) : State :=
  let x := s.managerCtx
  let a := s.fld Fd.moduleUpdateImage
  let h := s.globalRead x a 512
  let n := if h.fault.isSome then 0 else min imageMax (imgBytes h.bytes)
  let g := h.st.globalRead x a n
  let c := g.st.globalRead x (s.fld Fd.moduleUpdateChain) 8
  let len := min 4096 (fieldB c.bytes 0 4)
  let l := c.st.globalRead x (s.fld Fd.moduleUpdateChain + 8) (2 * len)
  let chain := (List.range len).map (fun i => fieldB l.bytes (2 * i) 2)
  l.st.handleImage ⟨if imageMax < imgBytes h.bytes then h.bytes else g.bytes, chain, [], 0, 0, true⟩

/-- An update whose START has been written and which has not begun. -/
def State.updateWaits (s : State) : Bool := s.clk.update.any (fun u => u.origin && u.chain.isEmpty && u.results.isEmpty)

/-- UPDATE_START: START is written, unless it has been, and the update begins (R449). -/
def execUpdateStart (who : Who) (s : State) : Res :=
  let s1 := if s.updateWaits then s else
    (s.ctlWrite who (Fd.moduleUpdateCtrlStart.reg 0 0) 1 1).2
  .next (if s1.updateWaits then s1.beginUpdate else s1)

/-- UPDATE_IMAGE_ARRIVE: an image reaches its position; a busy module lets it wait (R450, R451). -/
def execUpdateImageArrive (image : List (BitVec 8)) (chain : List (BitVec 16)) (results : List (BitVec 16 × BitVec 16)) (pos : Nat) (s : State) : Res :=
  .next (if s.flag Fd.moduleUpdateCtrlBusy || !s.managed then s
    else s.handleImage ⟨image, chain.map (fun x => x.toNat), results.map (fun r => (r.1.toNat, r.2.toNat)), pos, 0, false⟩)

/-- UPDATE_FORWARD_TIMEOUT: a forward is abandoned after 60 s, LINK_DOWN is recorded, and the next position follows (R451). -/
def execUpdateForwardTimeout (s : State) : Res :=
  .next (match s.clk.update with
    | some u =>
      if u.next = 0 then s
      else
        let v := { u with results := u.results ++ [(u.chain.getD u.next 0, cLinkDown.toNat)] }
        s.forwardFrom v (v.chain.length + 1) (u.next + 1)
    | none => s)

/-- UPDATE_RESULT_RETURN: the result list reaches the originator (R450). -/
def execUpdateResultReturn (results : List (BitVec 16 × BitVec 16)) (s : State) : Res :=
  .next (match s.clk.update with
    | some u => if u.origin then s.endUpdate (results.map (fun r => (r.1.toNat, r.2.toNat))) cOK else s
    | none => s)

/-- UPDATE_TIMEOUT: the originator writes the positions it knows, with FAULT LINK_DOWN (R451). -/
def execUpdateTimeout (s : State) : Res :=
  .next (match s.clk.update with
    | some u => if u.origin then s.endUpdate u.results cLinkDown else s
    | none => s)

/-! ## Telemetry -/

/-- The clock domain of a block (R425, R470). -/
def clockDomain : Blk → Nat
  | .cell => 0
  | .stack => 2
  | .scecy => 3
  | .eth => 4
  | .clerk => 5
  | .rst => 5
  | .module => 5
  | .flash => 6
  | _ => 1

/-- The SAT counters of one block, by byte offset in it: field and register index. -/
def satCounters (b : Blk) : Tab (Field × Nat) :=
  (b.fields.filter (fun f => decide (f.acs = .sat))).foldl (fun m f =>
    (List.range (max 1 f.count)).foldl (fun z i => if f.assigned i then Tab.put z (f.base + f.stride * i + f.lo / 8) (f, i) else z) m) []

/-- One telemetry record (R425). -/
def State.telemRecord (s : State) (b : Blk) (i off : Nat) (f : Field) (j : Nat) : List Byte :=
  leBytes 4 (b.base i + off) ++ leBytes 1 (clockDomain b) ++ leBytes 3 0 ++ leBytes 8 (s.fld f i j) ++
    leBytes 8 (s.fld (Fd.cycles b) i) ++ leBytes 8 s.clerkNow

/-- Writing one record into the ring (R425, R455). -/
def State.putTelem (s : State) (t : Fin 16) (rec_ : List Byte) : State :=
  let h := s.fld Fd.moduleTelemHead
  let o := (s.fld Fd.moduleTelemBase / 32 * 32 + 32 * (h % 2 ^ s.fld Fd.moduleTelemLog2)) % scacheSize
  ((s.scacheAccess (tenantCtx t) o (some rec_) 32).st).inc Fd.moduleTelemHead

/-- The counters of one block that a tenant may read, and how many records the period still has room for; a record that is not
written in its period is dropped and counted (R423). -/
def State.telemBlock (s : State × Nat) (t : Fin 16) (b : Blk) (i : Nat) : State × Nat :=
  (satCounters b).foldl (fun (z : State × Nat) (e : Nat × Field × Nat) =>
    if z.1.ctlPerm (.tenant t) ((b.base i + e.1) / 8 * 8) = .deny then z
    else if z.2 = 0 then (z.1.bump Fd.moduleTelemDropCnt, 0)
    else (z.1.putTelem t (z.1.telemRecord b i e.1 e.2.1 e.2.2), z.2 - 1)) s

/-- TELEMETRY_PERIOD: one record for each counter that the manager may read, in the order of their addresses (R425). How many the
Clerk writes in the period is free (R423; log entry 26). -/
def execTelemetryPeriod (s : State) : Res :=
  .next (if !s.flag Fd.moduleTelemEnable then s
    else
      match (List.finRange 16).find? (fun t => s.admitted t && s.flag Fd.ethAdmitManager 0 t.val) with
      | none => s
      | some t =>
        let blocks := Blk.all.flatMap (fun b => (List.range b.count).map (fun i => (b, i)))
        let d := s.draw
        (blocks.foldl (fun z x => State.telemBlock z t x.1 x.2) (d.2, d.1)).1)

/-! ## CONTROL packets -/

/-- CONTROL: a packet of the collective channel's control kind arrives (R324, R333, R382, R429). -/
def execControl (src : BitVec 16) (msg : CtlMsg) (s : State) : Res :=
  .next (match msg with
    | .detach t ch num => s.detachHere t ch num
    | .abort t ch num fault cancelled => s.abortHere t ch num fault cancelled
    | .pairAsk t _ => s.sendMsg src.toNat (.ctl (.pairAnswer t (BitVec.ofNat 16 (s.fld Fd.moduleFeedFeedId)))) none none
    | .pairAnswer t feed => if s.fld Fd.modulePartnerId 0 t.val = src.toNat then s.paired t feed.toNat else s
    | .ownerCmd bs => s.ownerCommand (.module src.toNat) bs
    | .ownerReply op seq status => s.relayReply src.toNat op.toNat seq.toNat status)

end Sys2Proof.Machine
end

