-- ==== Sys2Proof/Machine/Dispatch.lean ====
section
/-! DEFINITION. The one match that gives each command its meaning. -/

namespace Sys2Proof.Machine

def exec (i : Instr) (s : State) : Host.Outcome State Fault Refusal :=
  match i with
  | .add k rd rs1 rs2 => Sys2Proof.Machine.execAdd k rd rs1 rs2 s
  | .sub k rd rs1 rs2 => Sys2Proof.Machine.execSub k rd rs1 rs2 s
  | .and k rd rs1 rs2 => Sys2Proof.Machine.execAnd k rd rs1 rs2 s
  | .or k rd rs1 rs2 => Sys2Proof.Machine.execOr k rd rs1 rs2 s
  | .xor k rd rs1 rs2 => Sys2Proof.Machine.execXor k rd rs1 rs2 s
  | .sll k rd rs1 rs2 => Sys2Proof.Machine.execSll k rd rs1 rs2 s
  | .srl k rd rs1 rs2 => Sys2Proof.Machine.execSrl k rd rs1 rs2 s
  | .sra k rd rs1 rs2 => Sys2Proof.Machine.execSra k rd rs1 rs2 s
  | .slt k rd rs1 rs2 => Sys2Proof.Machine.execSlt k rd rs1 rs2 s
  | .sltu k rd rs1 rs2 => Sys2Proof.Machine.execSltu k rd rs1 rs2 s
  | .mul k rd rs1 rs2 => Sys2Proof.Machine.execMul k rd rs1 rs2 s
  | .mulh k rd rs1 rs2 => Sys2Proof.Machine.execMulh k rd rs1 rs2 s
  | .mulhu k rd rs1 rs2 => Sys2Proof.Machine.execMulhu k rd rs1 rs2 s
  | .min k rd rs1 rs2 => Sys2Proof.Machine.execMin k rd rs1 rs2 s
  | .max k rd rs1 rs2 => Sys2Proof.Machine.execMax k rd rs1 rs2 s
  | .addi k rd rs1 imm => Sys2Proof.Machine.execAddi k rd rs1 imm s
  | .andi k rd rs1 imm => Sys2Proof.Machine.execAndi k rd rs1 imm s
  | .ori k rd rs1 imm => Sys2Proof.Machine.execOri k rd rs1 imm s
  | .xori k rd rs1 imm => Sys2Proof.Machine.execXori k rd rs1 imm s
  | .slti k rd rs1 imm => Sys2Proof.Machine.execSlti k rd rs1 imm s
  | .sltiu k rd rs1 imm => Sys2Proof.Machine.execSltiu k rd rs1 imm s
  | .shi k rd rs1 imm => Sys2Proof.Machine.execShi k rd rs1 imm s
  | .lui k rd imm => Sys2Proof.Machine.execLui k rd imm s
  | .beq k rs1 rs2 off => Sys2Proof.Machine.execBeq k rs1 rs2 off s
  | .bne k rs1 rs2 off => Sys2Proof.Machine.execBne k rs1 rs2 off s
  | .blt k rs1 rs2 off => Sys2Proof.Machine.execBlt k rs1 rs2 off s
  | .bge k rs1 rs2 off => Sys2Proof.Machine.execBge k rs1 rs2 off s
  | .bltu k rs1 rs2 off => Sys2Proof.Machine.execBltu k rs1 rs2 off s
  | .bgeu k rs1 rs2 off => Sys2Proof.Machine.execBgeu k rs1 rs2 off s
  | .bp k p cond off => Sys2Proof.Machine.execBp k p cond off s
  | .jal k rd off => Sys2Proof.Machine.execJal k rd off s
  | .jalr k rd rs1 imm => Sys2Proof.Machine.execJalr k rd rs1 imm s
  | .li k rd imm => Sys2Proof.Machine.execLi k rd imm s
  | .lip k rd hi imm => Sys2Proof.Machine.execLip k rd hi imm s
  | .issueL k rd q w imm => Sys2Proof.Machine.execIssueL k rd q w imm s
  | .ja k rd imm => Sys2Proof.Machine.execJa k rd imm s
  | .load k rd base width u off => Sys2Proof.Machine.execLoad k rd base width u off s
  | .store k rd base width u off => Sys2Proof.Machine.execStore k rd base width u off s
  | .loadg k rd base width u off => Sys2Proof.Machine.execLoadg k rd base width u off s
  | .storeg k rd base width u off => Sys2Proof.Machine.execStoreg k rd base width u off s
  | .globalAccessResponse k => Sys2Proof.Machine.execGlobalAccessResponse k s
  | .fai k rd base => Sys2Proof.Machine.execFai k rd base s
  | .faa k rd base rs2 => Sys2Proof.Machine.execFaa k rd base rs2 s
  | .cas k rd base rs2 rs3 => Sys2Proof.Machine.execCas k rd base rs2 rs3 s
  | .hmerge k rd base rs2 => Sys2Proof.Machine.execHmerge k rd base rs2 s
  | .hpred k rd base rs2 => Sys2Proof.Machine.execHpred k rd base rs2 s
  | .sharedCacheSliceOp sl => Sys2Proof.Machine.execSharedCacheSliceOp sl s
  | .vld k vd base rk pg fmt g off => Sys2Proof.Machine.execVld k vd base rk pg fmt g off s
  | .vst k vd base rk pg fmt g off => Sys2Proof.Machine.execVst k vd base rk pg fmt g off s
  | .vfadd k vd va vb pg => Sys2Proof.Machine.execVfadd k vd va vb pg s
  | .vfsub k vd va vb pg => Sys2Proof.Machine.execVfsub k vd va vb pg s
  | .vfmul k vd va vb pg => Sys2Proof.Machine.execVfmul k vd va vb pg s
  | .vfma k vd va vb pg => Sys2Proof.Machine.execVfma k vd va vb pg s
  | .vfmin k vd va vb pg => Sys2Proof.Machine.execVfmin k vd va vb pg s
  | .vfmax k vd va vb pg => Sys2Proof.Machine.execVfmax k vd va vb pg s
  | .vfabs k vd va pg => Sys2Proof.Machine.execVfabs k vd va pg s
  | .vfneg k vd va pg => Sys2Proof.Machine.execVfneg k vd va pg s
  | .vadd k vd va vb pg => Sys2Proof.Machine.execVadd k vd va vb pg s
  | .vsub k vd va vb pg => Sys2Proof.Machine.execVsub k vd va vb pg s
  | .vmul k vd va vb pg => Sys2Proof.Machine.execVmul k vd va vb pg s
  | .vand k vd va vb pg => Sys2Proof.Machine.execVand k vd va vb pg s
  | .vor k vd va vb pg => Sys2Proof.Machine.execVor k vd va vb pg s
  | .vxor k vd va vb pg => Sys2Proof.Machine.execVxor k vd va vb pg s
  | .vsll k vd va vb pg => Sys2Proof.Machine.execVsll k vd va vb pg s
  | .vsrl k vd va vb pg => Sys2Proof.Machine.execVsrl k vd va vb pg s
  | .vsra k vd va vb pg => Sys2Proof.Machine.execVsra k vd va vb pg s
  | .vmin k vd va vb pg => Sys2Proof.Machine.execVmin k vd va vb pg s
  | .vmax k vd va vb pg => Sys2Proof.Machine.execVmax k vd va vb pg s
  | .lmul k vd va vb pg => Sys2Proof.Machine.execLmul k vd va vb pg s
  | .ldiv k vd va vb pg => Sys2Proof.Machine.execLdiv k vd va vb pg s
  | .ladd k vd va vb pg => Sys2Proof.Machine.execLadd k vd va vb pg s
  | .lsub k vd va vb pg => Sys2Proof.Machine.execLsub k vd va vb pg s
  | .lhalf k vd va pg => Sys2Proof.Machine.execLhalf k vd va pg s
  | .lnegx k vd va pg => Sys2Proof.Machine.execLnegx k vd va pg s
  | .exp2X k vd va pg xc => Sys2Proof.Machine.execExp2X k vd va pg xc s
  | .log2X k vd va pg xc => Sys2Proof.Machine.execLog2X k vd va pg xc s
  | .exp2F k vd va pg xc => Sys2Proof.Machine.execExp2F k vd va pg xc s
  | .log2F k vd va pg xc => Sys2Proof.Machine.execLog2F k vd va pg xc s
  | .f2x k vd va pg => Sys2Proof.Machine.execF2x k vd va pg s
  | .x2f k vd va pg => Sys2Proof.Machine.execX2f k vd va pg s
  | .f2i k vd va pg => Sys2Proof.Machine.execF2i k vd va pg s
  | .i2f k vd va pg => Sys2Proof.Machine.execI2f k vd va pg s
  | .q2f k vd va pg => Sys2Proof.Machine.execQ2f k vd va pg s
  | .f2q k vd va pg => Sys2Proof.Machine.execF2q k vd va pg s
  | .feq k pd va vb pg => Sys2Proof.Machine.execFeq k pd va vb pg s
  | .flt k pd va vb pg => Sys2Proof.Machine.execFlt k pd va vb pg s
  | .fle k pd va vb pg => Sys2Proof.Machine.execFle k pd va vb pg s
  | .ieq k pd va vb pg => Sys2Proof.Machine.execIeq k pd va vb pg s
  | .ilt k pd va vb pg => Sys2Proof.Machine.execIlt k pd va vb pg s
  | .iltu k pd va vb pg => Sys2Proof.Machine.execIltu k pd va vb pg s
  | .leq k pd va vb pg => Sys2Proof.Machine.execLeq k pd va vb pg s
  | .llt k pd va vb pg => Sys2Proof.Machine.execLlt k pd va vb pg s
  | .lle k pd va vb pg => Sys2Proof.Machine.execLle k pd va vb pg s
  | .pand k pd pa pb => Sys2Proof.Machine.execPand k pd pa pb s
  | .por k pd pa pb => Sys2Proof.Machine.execPor k pd pa pb s
  | .pxor k pd pa pb => Sys2Proof.Machine.execPxor k pd pa pb s
  | .pnot k pd pa => Sys2Proof.Machine.execPnot k pd pa s
  | .vmv k vd va pg => Sys2Proof.Machine.execVmv k vd va pg s
  | .vbcast k vd ga pg => Sys2Proof.Machine.execVbcast k vd ga pg s
  | .vext k gd va lane => Sys2Proof.Machine.execVext k gd va lane s
  | .ptog k gd pa => Sys2Proof.Machine.execPtog k gd pa s
  | .gtop k pd ga => Sys2Proof.Machine.execGtop k pd ga s
  | .vfrsum k gd va pg => Sys2Proof.Machine.execVfrsum k gd va pg s
  | .vfrmax k gd va pg => Sys2Proof.Machine.execVfrmax k gd va pg s
  | .virsum k gd va pg => Sys2Proof.Machine.execVirsum k gd va pg s
  | .vlrmax k gd va pg => Sys2Proof.Machine.execVlrmax k gd va pg s
  | .csrr k rd csr => Sys2Proof.Machine.execCsrr k rd csr s
  | .csrw k rs1 csr => Sys2Proof.Machine.execCsrw k rs1 csr s
  | .csrc k rs1 csr => Sys2Proof.Machine.execCsrc k rs1 csr s
  | .fenceT k => Sys2Proof.Machine.execFenceT k s
  | .iflush k => Sys2Proof.Machine.execIflush k s
  | .halt k => Sys2Proof.Machine.execHalt k s
  | .trap k rs1 => Sys2Proof.Machine.execTrap k rs1 s
  | .rett k => Sys2Proof.Machine.execRett k s
  | .qdone k rd q => Sys2Proof.Machine.execQdone k rd q s
  | .waitq k rs1 q => Sys2Proof.Machine.execWaitq k rs1 q s
  | .waitqResume k => Sys2Proof.Machine.execWaitqResume k s
  | .issue k rd rs1 q w => Sys2Proof.Machine.execIssue k rd rs1 q w s
  | .issueAppendRetry k => Sys2Proof.Machine.execIssueAppendRetry k s
  | .instructionFetch k => Sys2Proof.Machine.execInstructionFetch k s
  | .tkRunWrite who c hi v be => Sys2Proof.Machine.execTkRunWrite who c hi v be s
  | .registerWrite who off size v hwset => Sys2Proof.Machine.execRegisterWrite who off size v hwset s
  | .commandStart c q => Sys2Proof.Machine.execCommandStart c q s
  | .tallyConsume c q => Sys2Proof.Machine.execTallyConsume c q s
  | .commandComplete c n => Sys2Proof.Machine.execCommandComplete c n s
  | .badOpcode c q => Sys2Proof.Machine.execBadOpcode c q s
  | .move c n => Sys2Proof.Machine.execMove c n s
  | .gemm c n => Sys2Proof.Machine.execGemm c n s
  | .successorPrologue c n => Sys2Proof.Machine.execSuccessorPrologue c n s
  | .carterTransfer c q => Sys2Proof.Machine.execCarterTransfer c q s
  | .transferLanded c ix => Sys2Proof.Machine.execTransferLanded c ix s
  | .stageHandover c n h credit => Sys2Proof.Machine.execStageHandover c n h credit s
  | .tileStart c n => Sys2Proof.Machine.execTileStart c n s
  | .tileKstepsDone c b => Sys2Proof.Machine.execTileKstepsDone c b s
  | .bankDrainRow c b => Sys2Proof.Machine.execBankDrainRow c b s
  | .bankFree c b => Sys2Proof.Machine.execBankFree c b s
  | .mcastMemberCredit c m => Sys2Proof.Machine.execMcastMemberCredit c m s
  | .cooperPlaceDecode c port => Sys2Proof.Machine.execCooperPlaceDecode c port s
  | .turnerSquare c port => Sys2Proof.Machine.execTurnerSquare c port s
  | .fence c n => Sys2Proof.Machine.execFence c n s
  | .cancel c n => Sys2Proof.Machine.execCancel c n s
  | .gemmDw c n => Sys2Proof.Machine.execGemmDw c n s
  | .tillSlotDrain c b => Sys2Proof.Machine.execTillSlotDrain c b s
  | .tillPageAdd c => Sys2Proof.Machine.execTillPageAdd c s
  | .tillAddDone c => Sys2Proof.Machine.execTillAddDone c s
  | .tillAddSlots c n => Sys2Proof.Machine.execTillAddSlots c n s
  | .tillClearSlots c n => Sys2Proof.Machine.execTillClearSlots c n s
  | .tillClearTiles c n => Sys2Proof.Machine.execTillClearTiles c n s
  | .tillRead c n => Sys2Proof.Machine.execTillRead c n s
  | .tillMerge c n => Sys2Proof.Machine.execTillMerge c n s
  | .attnFwd c n => Sys2Proof.Machine.execAttnFwd c n s
  | .attnBwd c n => Sys2Proof.Machine.execAttnBwd c n s
  | .attnDecode c n => Sys2Proof.Machine.execAttnDecode c n s
  | .keyTileDrain c n => Sys2Proof.Machine.execKeyTileDrain c n s
  | .attnRowFinish c n => Sys2Proof.Machine.execAttnRowFinish c n s
  | .normStats c n => Sys2Proof.Machine.execNormStats c n s
  | .actFused c n => Sys2Proof.Machine.execActFused c n s
  | .tableBuild c n => Sys2Proof.Machine.execTableBuild c n s
  | .tableLoad c n => Sys2Proof.Machine.execTableLoad c n s
  | .tableSwap c n => Sys2Proof.Machine.execTableSwap c n s
  | .tableSwapApply c slot port => Sys2Proof.Machine.execTableSwapApply c slot port s
  | .compressUnits c n => Sys2Proof.Machine.execCompressUnits c n s
  | .expandUnits c n => Sys2Proof.Machine.execExpandUnits c n s
  | .compressStageTile c n => Sys2Proof.Machine.execCompressStageTile c n s
  | .pageMapAlloc c n => Sys2Proof.Machine.execPageMapAlloc c n s
  | .pageMapRef c n => Sys2Proof.Machine.execPageMapRef c n s
  | .pageMapUnpin c n => Sys2Proof.Machine.execPageMapUnpin c n s
  | .pageCow c n => Sys2Proof.Machine.execPageCow c n s
  | .pageFree c n => Sys2Proof.Machine.execPageFree c n s
  | .promote c n => Sys2Proof.Machine.execPromote c n s
  | .demote c n => Sys2Proof.Machine.execDemote c n s
  | .tierRead c n => Sys2Proof.Machine.execTierRead c n s
  | .frameRelease ix => Sys2Proof.Machine.execFrameRelease ix s
  | .ageSweep => Sys2Proof.Machine.execAgeSweep s
  | .eviction => Sys2Proof.Machine.execEviction s
  | .regionEvacuate m r => Sys2Proof.Machine.execRegionEvacuate m r s
  | .regionRetire m r => Sys2Proof.Machine.execRegionRetire m r s
  | .scrubRead m => Sys2Proof.Machine.execScrubRead m s
  | .msAddInt32 who m imm => Sys2Proof.Machine.execMsAddInt32 who m imm s
  | .msAddInt64 who m imm => Sys2Proof.Machine.execMsAddInt64 who m imm s
  | .msAddFp32 who m imm => Sys2Proof.Machine.execMsAddFp32 who m imm s
  | .msAddL16 who m imm => Sys2Proof.Machine.execMsAddL16 who m imm s
  | .msFill who m imm => Sys2Proof.Machine.execMsFill who m imm s
  | .memsideDone m => Sys2Proof.Machine.execMemsideDone m s
  | .flashReadDone ix ok => Sys2Proof.Machine.execFlashReadDone ix ok s
  | .flashWriteDone ix ok => Sys2Proof.Machine.execFlashWriteDone ix ok s
  | .wearLevelMove => Sys2Proof.Machine.execWearLevelMove s
  | .readDisturbRefresh blk => Sys2Proof.Machine.execReadDisturbRefresh blk s
  | .flashBlockRetire blk => Sys2Proof.Machine.execFlashBlockRetire blk s
  | .flitReceive p bytes corrected uncorrectable => Sys2Proof.Machine.execFlitReceive p bytes corrected uncorrectable s
  | .nakReceive p vc ack => Sys2Proof.Machine.execNakReceive p vc ack s
  | .replayTimeout p vc => Sys2Proof.Machine.execReplayTimeout p vc s
  | .portRetrain p => Sys2Proof.Machine.execPortRetrain p s
  | .retrainDone p ok => Sys2Proof.Machine.execRetrainDone p ok s
  | .portDown p => Sys2Proof.Machine.execPortDown p s
  | .portEnable who p v => Sys2Proof.Machine.execPortEnable who p v s
  | .portTrained p partnerMod partnerPort => Sys2Proof.Machine.execPortTrained p partnerMod partnerPort s
  | .packetRoute ix => Sys2Proof.Machine.execPacketRoute ix s
  | .escapeWaitExpiry ix => Sys2Proof.Machine.execEscapeWaitExpiry ix s
  | .readReq ix => Sys2Proof.Machine.execReadReq ix s
  | .write ix => Sys2Proof.Machine.execWrite ix s
  | .readResp ix => Sys2Proof.Machine.execReadResp ix s
  | .writeAck ix => Sys2Proof.Machine.execWriteAck ix s
  | .respTimeout tag => Sys2Proof.Machine.execRespTimeout tag s
  | .mcastData msg => Sys2Proof.Machine.execMcastData msg s
  | .mcastCredit msg => Sys2Proof.Machine.execMcastCredit msg s
  | .detachTimeout t ch num member => Sys2Proof.Machine.execDetachTimeout t ch num member s
  | .control src msg => Sys2Proof.Machine.execControl src msg s
  | .reduce c n => Sys2Proof.Machine.execReduce c n s
  | .gather c n => Sys2Proof.Machine.execGather c n s
  | .permute c n => Sys2Proof.Machine.execPermute c n s
  | .mcast c n => Sys2Proof.Machine.execMcast c n s
  | .vote c n => Sys2Proof.Machine.execVote c n s
  | .weaverCreditGrant t ch num member opcode => Sys2Proof.Machine.execWeaverCreditGrant t ch num member opcode s
  | .collective msg => Sys2Proof.Machine.execCollective msg s
  | .shardLanded t ch num j => Sys2Proof.Machine.execShardLanded t ch num j s
  | .collTimeout t ch num => Sys2Proof.Machine.execCollTimeout t ch num s
  | .permutePhase2 t ch num => Sys2Proof.Machine.execPermutePhase2 t ch num s
  | .txnBegin c n => Sys2Proof.Machine.execTxnBegin c n s
  | .shadowMake t slot tpn => Sys2Proof.Machine.execShadowMake t slot tpn s
  | .txnCommitLocal c n => Sys2Proof.Machine.execTxnCommitLocal c n s
  | .txnCommitVote c n => Sys2Proof.Machine.execTxnCommitVote c n s
  | .txnCommitForce c n => Sys2Proof.Machine.execTxnCommitForce c n s
  | .commitFlip c n => Sys2Proof.Machine.execCommitFlip c n s
  | .copyBack ix => Sys2Proof.Machine.execCopyBack ix s
  | .txnAbort c n => Sys2Proof.Machine.execTxnAbort c n s
  | .snapSave c n => Sys2Proof.Machine.execSnapSave c n s
  | .snapRestore c n => Sys2Proof.Machine.execSnapRestore c n s
  | .draw who t str => Sys2Proof.Machine.execDraw who t str s
  | .streamArmWrite who off size v => Sys2Proof.Machine.execStreamArmWrite who off size v s
  | .riskPeriod => Sys2Proof.Machine.execRiskPeriod s
  | .partnerPair who t partner => Sys2Proof.Machine.execPartnerPair who t partner s
  | .pairAnswer t feed => Sys2Proof.Machine.execPairAnswer t feed s
  | .pairTimeout t => Sys2Proof.Machine.execPairTimeout t s
  | .ethFrameReceive e f => Sys2Proof.Machine.execEthFrameReceive e f s
  | .hello e m => Sys2Proof.Machine.execHello e m s
  | .report t => Sys2Proof.Machine.execReport t s
  | .finish t rsaKey slhKey rsaSig slhSig => Sys2Proof.Machine.execFinish t rsaKey slhKey rsaSig slhSig s
  | .qpOpen t entries => Sys2Proof.Machine.execQpOpen t entries s
  | .qpClose t qpns => Sys2Proof.Machine.execQpClose t qpns s
  | .close t => Sys2Proof.Machine.execClose t s
  | .handshakeTimeout t => Sys2Proof.Machine.execHandshakeTimeout t s
  | .rdmaWrite qpn psn rkey off data => Sys2Proof.Machine.execRdmaWrite qpn psn rkey off data s
  | .rdmaRead qpn psn rkey off len => Sys2Proof.Machine.execRdmaRead qpn psn rkey off len s
  | .fetchAdd qpn psn rkey off v => Sys2Proof.Machine.execFetchAdd qpn psn rkey off v s
  | .cmpSwap qpn psn rkey off cmp swap => Sys2Proof.Machine.execCmpSwap qpn psn rkey off cmp swap s
  | .roceAckReceive qpn psn nak sackBase sackBits => Sys2Proof.Machine.execRoceAckReceive qpn psn nak sackBase sackBits s
  | .ackTimeout qpn => Sys2Proof.Machine.execAckTimeout qpn s
  | .cnp qpn => Sys2Proof.Machine.execCnp qpn s
  | .rateRecovery qpn => Sys2Proof.Machine.execRateRecovery qpn s
  | .doorbell who c q v => Sys2Proof.Machine.execDoorbell who c q v s
  | .ethPortDown e => Sys2Proof.Machine.execEthPortDown e s
  | .ownerCommand neighbour msg => Sys2Proof.Machine.execOwnerCommand neighbour msg s
  | .admitTenant => Sys2Proof.Machine.execAdmitTenant s
  | .release => Sys2Proof.Machine.execRelease s
  | .lock => Sys2Proof.Machine.execLock s
  | .reset => Sys2Proof.Machine.execReset s
  | .clearCause => Sys2Proof.Machine.execClearCause s
  | .config => Sys2Proof.Machine.execConfig s
  | .resume => Sys2Proof.Machine.execResume s
  | .imageSeg off bytes => Sys2Proof.Machine.execImageSeg off bytes s
  | .ownerRelay msg => Sys2Proof.Machine.execOwnerRelay msg s
  | .powerOn => Sys2Proof.Machine.execPowerOn s
  | .modResetNLow ns => Sys2Proof.Machine.execModResetNLow ns s
  | .modResetNRise => Sys2Proof.Machine.execModResetNRise s
  | .watchdog core => Sys2Proof.Machine.execWatchdog core s
  | .thermalTrip sensor temp => Sys2Proof.Machine.execThermalTrip sensor temp s
  | .swResetArm who => Sys2Proof.Machine.execSwResetArm who s
  | .swResetGo who => Sys2Proof.Machine.execSwResetGo who s
  | .optionLoading samples => Sys2Proof.Machine.execOptionLoading samples s
  | .boot obs => Sys2Proof.Machine.execBoot obs s
  | .swrst who off v => Sys2Proof.Machine.execSwrst who off v s
  | .unitResetExit u => Sys2Proof.Machine.execUnitResetExit u s
  | .memReq who stackMask recovery => Sys2Proof.Machine.execMemReq who stackMask recovery s
  | .updateStart who => Sys2Proof.Machine.execUpdateStart who s
  | .updateImageArrive image chain results pos => Sys2Proof.Machine.execUpdateImageArrive image chain results pos s
  | .updateForwardTimeout => Sys2Proof.Machine.execUpdateForwardTimeout s
  | .updateResultReturn results => Sys2Proof.Machine.execUpdateResultReturn results s
  | .updateTimeout => Sys2Proof.Machine.execUpdateTimeout s
  | .telemetryPeriod => Sys2Proof.Machine.execTelemetryPeriod s
  | .powerWindow watts temps => Sys2Proof.Machine.execPowerWindow watts temps s
  | .powerLoss presentBreak => Sys2Proof.Machine.execPowerLoss presentBreak s
  | .presentMate => Sys2Proof.Machine.execPresentMate s
  | .holdupTest joules => Sys2Proof.Machine.execHoldupTest joules s
  | .sidebandSample trayMoveN feedAlarmN => Sys2Proof.Machine.execSidebandSample trayMoveN feedAlarmN s
  | .ethPortTrained e => Sys2Proof.Machine.execEthPortTrained e s
  | .holdupSequenceEnd recovered => Sys2Proof.Machine.execHoldupSequenceEnd recovered s
  | .holdupCharge percent charging => Sys2Proof.Machine.execHoldupCharge percent charging s
  | .incompleteCommandAbandon => Sys2Proof.Machine.execIncompleteCommandAbandon s

end Sys2Proof.Machine
end

