-- ==== Sys2Proof/Certificates/Slice0/Obligations.lean ====
section
/-! DEFINITION. The statements about the model, each the formal text of a claim of OBLIGATIONS.json. -/

namespace Sys2Proof.Claims

open Sys2Proof Sys2Proof.Machine

/-! ## Words of the claims -/

/-- Nothing outside one Tinker has changed. -/
def OnlyTinker (k : Nat) (s t : State) : Prop := t = { s with tinkers := t.tinkers } ∧ ∀ j, j ≠ k → t.tinker j = s.tinker j

/-- A Tinker has received a value in a general register and has gone on by some bytes; nothing else of it has changed but the
words fetched ahead. -/
def WritesG (rd : BitVec 5) (v : Word) (len : Word) (a b : Tinker) : Prop :=
  b = { a with g := b.g, pc := a.pc + len, fetched := b.fetched } ∧ b.gr rd.toNat = (if rd = 0 then 0 else v) ∧
    ∀ r, r ≠ rd.toNat → b.gr r = a.gr r

/-- A Tinker instruction completes with a value in a general register and no other effect. -/
def RunsG (i : Instr) (k : Nat) (s : State) (rd : BitVec 5) (v len : Word) : Prop :=
  ∃ t, exec i s = .next t ∧ OnlyTinker k s t ∧ WritesG rd v len (s.tinker k) (t.tinker k)

/-- A Tinker has moved its pc and done nothing else. -/
def MovesPc (pc : Word) (a b : Tinker) : Prop := b = { a with pc := pc, fetched := b.fetched }

/-- The three-register instructions with what they compute (R88). -/
def aluOps : List ((Fin 25600 → BitVec 5 → BitVec 5 → BitVec 5 → Instr) × (Word → Word → Word)) :=
  [(.add, fun a b => BitVec.ofNat 32 (a.toNat + b.toNat)), (.sub, fun a b => BitVec.ofInt 32 (a.toInt - b.toInt)),
    (.and, fun a b => BitVec.ofNat 32 (a.toNat &&& b.toNat)), (.or, fun a b => BitVec.ofNat 32 (a.toNat ||| b.toNat)),
    (.xor, fun a b => BitVec.ofNat 32 (a.toNat ^^^ b.toNat)),
    (.sll, fun a b => BitVec.ofNat 32 (a.toNat * 2 ^ (b.toNat % 32))),
    (.srl, fun a b => BitVec.ofNat 32 (a.toNat / 2 ^ (b.toNat % 32))),
    (.sra, fun a b => BitVec.ofInt 32 (a.toInt / 2 ^ (b.toNat % 32))),
    (.slt, fun a b => if a.toInt < b.toInt then 1 else 0), (.sltu, fun a b => if a.toNat < b.toNat then 1 else 0),
    (.mul, fun a b => BitVec.ofNat 32 (a.toNat * b.toNat)), (.mulh, fun a b => BitVec.ofInt 32 (a.toInt * b.toInt / 2 ^ 32)),
    (.mulhu, fun a b => BitVec.ofNat 32 (a.toNat * b.toNat / 2 ^ 32)),
    (.min, fun a b => if a.toInt ≤ b.toInt then a else b), (.max, fun a b => if a.toInt ≤ b.toInt then b else a)]

/-- The register and immediate instructions with what they compute from the immediate and rs1 (R88). -/
def immOps : List ((Fin 25600 → BitVec 5 → BitVec 5 → BitVec 16 → Instr) × (BitVec 16 → Word → Word)) :=
  [(.addi, fun m a => BitVec.ofInt 32 (a.toInt + m.toInt)), (.andi, fun m a => BitVec.ofNat 32 (a.toNat &&& m.toNat)),
    (.ori, fun m a => BitVec.ofNat 32 (a.toNat ||| m.toNat)), (.xori, fun m a => BitVec.ofNat 32 (a.toNat ^^^ m.toNat)),
    (.slti, fun m a => if a.toInt < m.toInt then 1 else 0),
    (.sltiu, fun m a => if a.toNat < (BitVec.ofInt 32 m.toInt).toNat then 1 else 0)]

/-- The branches on two registers with their conditions (R89). -/
def branchOps : List ((Fin 25600 → BitVec 5 → BitVec 5 → BitVec 16 → Instr) × (Word → Word → Bool)) :=
  [(.beq, fun a b => decide (a = b)), (.bne, fun a b => decide (a ≠ b)), (.blt, fun a b => decide (a.toInt < b.toInt)),
    (.bge, fun a b => decide (b.toInt ≤ a.toInt)), (.bltu, fun a b => decide (a.toNat < b.toNat)),
    (.bgeu, fun a b => decide (b.toNat ≤ a.toNat))]

/-- A word offset from the pc, as an address with bits [1:0] clear. -/
def pcPlus (pc : Word) (words : Int) : Word := BitVec.ofInt 32 (pc.toInt + 4 * words) &&& 0xFFFFFFFC#32

/-- R84: what a trap leaves. The pc before it is in epc, its value in tval, its cause and INTRAP in cstat, whose other bits stay; the
registers, the predicates and the lanes stay. The pc is at the handler, or the Tinker has halted with its TRAP bit set. -/
def Trapped (k : Nat) (cause : Nat) (tval : Word) (s t : State) : Prop :=
  let a := s.tinker k
  let b := t.tinker k
  b = { a with cstat := b.cstat, tval := tval, epc := a.pc, pc := b.pc, wait := .none, fetched := [] } ∧
    b.cstat = (a.cstat &&& 0x00FFFFFF#32) ||| 0x00010000#32 ||| BitVec.ofNat 32 (cause * 2 ^ 24) ∧
    (∀ j, j ≠ k → t.tinker j = s.tinker j) ∧
    (if a.tvec ≠ 0 ∧ a.cstat.getLsbD 16 = false then b.pc = a.tvec &&& 0xFFFFFFFC#32 ∧ t = { s with tinkers := t.tinkers }
      else b.pc = a.pc ∧ t.running k = false ∧ t = { s with tinkers := t.tinkers, regs := t.regs } ∧
        (if k % 100 < 64 then t.bitOf Fd.cellTkTrap0 (k / 100) 0 (k % 100) = true
          else t.bitOf Fd.cellTkTrap1 (k / 100) 0 (k % 100 - 64) = true))

/-- Whether byte x of the local memories or of the cell stores is one of the n bytes from a short address on; its index there. -/
def shortIndex (loc : Bool) (k a n x : Nat) : Option Nat :=
  (List.range n).find? (fun i =>
    decide (loc = decide (a % 2 ^ 22 < 2 ^ 21)) && decide (x = if loc then k * 2 ^ 15 + (a + i) % 2 ^ 15 else k / 100 * 2 ^ 21 + (a + i) % 2 ^ 21))

/-- n bytes from a short address on; a run stays in the memory where it begins, and wraps there (R69, R79). -/
def shortBytes (s : State) (k a n : Nat) : List Byte :=
  (List.range n).map (fun i => if a % 2 ^ 22 < 2 ^ 21 then Mem.get s.locals (k * 2 ^ 15 + (a + i) % 2 ^ 15)
    else Mem.get s.stores (k / 100 * 2 ^ 21 + (a + i) % 2 ^ 21))

/-- The short memories hold some bytes from a short address on, and every other byte is as before. -/
def ShortStored (k a : Nat) (bs : List (Option Byte)) (s t : State) : Prop :=
  ∀ x, Mem.get t.locals x = (((shortIndex true k a bs.length x).bind (fun i => bs.getD i none)).getD (Mem.get s.locals x)) ∧
    Mem.get t.stores x = (((shortIndex false k a bs.length x).bind (fun i => bs.getD i none)).getD (Mem.get s.stores x))

/-- A number from n bytes, the lowest first, and what a load makes of it (R90). -/
def loaded (u : Bool) (bs : List Byte) : Word :=
  let v := (List.range bs.length).foldl (fun x i => x + (bs.getD i 0).toNat * 256 ^ i) 0
  if u = true ∨ v < 2 ^ (8 * bs.length - 1) then BitVec.ofNat 32 v else BitVec.ofInt 32 ((v : Int) - 2 ^ (8 * bs.length))

/-- What one lane of an operation gives, by lane number, under a predicate: inactive lanes give nothing (R92). -/
def LanesRun (i : Instr) (k : Nat) (s : State) (vd : BitVec 5) (pg : BitVec 3) (op : Nat → Lane) : Prop :=
  ∃ t, exec i s = .next t ∧ OnlyTinker k s t ∧
    let a := s.tinker k
    let b := t.tinker k
    let on := (List.range 8).filter (fun j => (a.pr pg.toNat).getLsbD j)
    b = { a with v := b.v, pc := a.pc + 4, fetched := b.fetched, cstat := b.cstat, satc := b.satc, flsc := b.flsc, narc := b.narc } ∧
      (∀ j, j < 8 → b.vr vd.toNat j = if j ∈ on then (op j).w else a.vr vd.toNat j) ∧
      (∀ r j, r ≠ vd.toNat → j < 8 → b.vr r j = a.vr r j) ∧
      (∀ n, n < 32 → (b.cstat.getLsbD n = true ↔ a.cstat.getLsbD n = true ∨ (n < 4 ∧ ∃ j ∈ on, (op j).f.getLsbD n = true))) ∧
      b.satc.toNat = min (2 ^ 32 - 1) (a.satc.toNat + (on.map (fun j => (op j).c.sat)).sum) ∧
      b.flsc.toNat = min (2 ^ 32 - 1) (a.flsc.toNat + (on.map (fun j => (op j).c.flush)).sum) ∧
      b.narc.toNat = min (2 ^ 32 - 1) (a.narc.toNat + (on.map (fun j => (op j).c.narOp + (op j).c.narRes)).sum)

/-- A lane operation that gives a word and nothing else. -/
def plain (w : Word) : Lane := ⟨w, 0, ⟨0, 0, 0, 0⟩⟩

/-- An FP32 lane: a word and flags. -/
def floating (r : Word × FpFlags) : Lane := ⟨r.1, r.2, ⟨0, 0, 0, 0⟩⟩

/-- The vector instructions of two sources with what a lane gives: R94 to R96. -/
def vectorOps2 : List ((Fin 25600 → BitVec 5 → BitVec 5 → BitVec 5 → BitVec 3 → Instr) × (Word → Word → Lane)) :=
  [(.vfadd, fun a b => floating (fpAdd .ne a b)), (.vfsub, fun a b => floating (fpSub .ne a b)), (.vfmul, fun a b => floating (fpMul .ne a b)),
    (.vfmin, fun a b => floating (fpMinMax false a b)), (.vfmax, fun a b => floating (fpMinMax true a b)),
    (.vadd, fun a b => plain (BitVec.ofNat 32 (a.toNat + b.toNat))), (.vsub, fun a b => plain (BitVec.ofInt 32 (a.toInt - b.toInt))),
    (.vmul, fun a b => plain (BitVec.ofNat 32 (a.toNat * b.toNat))), (.vand, fun a b => plain (BitVec.ofNat 32 (a.toNat &&& b.toNat))),
    (.vor, fun a b => plain (BitVec.ofNat 32 (a.toNat ||| b.toNat))), (.vxor, fun a b => plain (BitVec.ofNat 32 (a.toNat ^^^ b.toNat))),
    (.vsll, fun a b => plain (BitVec.ofNat 32 (a.toNat * 2 ^ (b.toNat % 32)))),
    (.vsrl, fun a b => plain (BitVec.ofNat 32 (a.toNat / 2 ^ (b.toNat % 32)))),
    (.vsra, fun a b => plain (BitVec.ofInt 32 (a.toInt / 2 ^ (b.toNat % 32)))),
    (.vmin, fun a b => plain (if a.toInt ≤ b.toInt then a else b)), (.vmax, fun a b => plain (if a.toInt ≤ b.toInt then b else a)),
    (.lmul, lmulLane), (.ldiv, ldivLane), (.ladd, laddLane), (.lsub, lsubLane)]

/-- The vector instructions of one source with what a lane gives: R94, R96, R98 and R100. -/
def vectorOps1 : List ((Fin 25600 → BitVec 5 → BitVec 5 → BitVec 3 → Instr) × (Word → Lane)) :=
  [(.vfabs, fun a => plain (BitVec.ofNat 32 (a.toNat % 2 ^ 31))), (.vfneg, fun a => plain (BitVec.ofNat 32 (a.toNat ^^^ 2 ^ 31))),
    (.lhalf, lhalfLane), (.lnegx, lnegxLane), (.f2x, f2xLane), (.x2f, x2fLane), (.f2i, fun a => floating (fpToInt 0 0 a)),
    (.i2f, fun a => floating (fpOfInt 0 a)), (.q2f, fun a => floating (fpOfInt 16 a)), (.f2q, fun a => floating (fpToInt 16 0x80000000 a)),
    (.vmv, plain)]

/-- The VSF instructions with what a lane gives (R97). -/
def vectorOpsSf : List ((Fin 25600 → BitVec 5 → BitVec 5 → BitVec 3 → Bool → Instr) × (Bool → Word → Lane)) :=
  [(.exp2X, fun _ => exp2XLane), (.log2X, fun _ => log2XLane), (.exp2F, fun x a => floating (fpExp2 x a)),
    (.log2F, fun x a => floating (fpLog2 x a))]

/-- The order of LX32 codes by value: zero between the negative and the positive ones (R99). -/
def lxKey (w : Word) : Int := if w.toNat < 2 ^ 31 then w.toNat else -((w.toNat - 2 ^ 31 : Nat) : Int)

/-- The compares with the relation of a lane, its flags, and what it counts (R99). -/
def compareOps : List ((Fin 25600 → BitVec 5 → BitVec 5 → BitVec 5 → BitVec 3 → Instr) × (Word → Word → Bool × FpFlags × Nat)) :=
  let lx (rel : Int → Int → Bool) (a b : Word) : Bool × FpFlags × Nat :=
    let n := b2n (decide (a = 0x80000000#32)) + b2n (decide (b = 0x80000000#32))
    (decide (n = 0) && rel (lxKey a) (lxKey b), 0, n)
  [(.feq, fun a b => ((fpEq a b).1, (fpEq a b).2, 0)), (.flt, fun a b => ((fpLt false a b).1, (fpLt false a b).2, 0)),
    (.fle, fun a b => ((fpLt true a b).1, (fpLt true a b).2, 0)), (.ieq, fun a b => (decide (a = b), 0, 0)),
    (.ilt, fun a b => (decide (a.toInt < b.toInt), 0, 0)), (.iltu, fun a b => (decide (a.toNat < b.toNat), 0, 0)),
    (.leq, lx (fun x y => decide (x = y))), (.llt, lx (fun x y => decide (x < y))), (.lle, lx (fun x y => decide (x ≤ y)))]

/-- A predicate instruction completes with a value in its destination and no other effect (R99, R100). -/
def RunsP (i : Instr) (k : Nat) (s : State) (pd : BitVec 5) (v : BitVec 8) : Prop :=
  ∃ t, exec i s = .next t ∧ OnlyTinker k s t ∧
    t.tinker k = { s.tinker k with p := (t.tinker k).p, pc := (s.tinker k).pc + 4, fetched := (t.tinker k).fetched } ∧
    (t.tinker k).pr (pd.toNat % 8) = (if pd.toNat % 8 = 0 then 0xFF else v) ∧
    ∀ r, r ≠ pd.toNat % 8 → (t.tinker k).pr r = (s.tinker k).pr r

/-- Combining eight lanes in the fixed tree of R100. -/
def tree (op : Word → Word → Word) (x : Nat → Word) : Word :=
  op (op (op (x 0) (x 1)) (op (x 2) (x 3))) (op (op (x 4) (x 5)) (op (x 6) (x 7)))

/-- The flags of the seven operations of the tree of R100 together. -/
def treeFlags (op : Word → Word → Word × FpFlags) (x : Nat → Word) : FpFlags :=
  let a := op (x 0) (x 1)
  let b := op (x 2) (x 3)
  let c := op (x 4) (x 5)
  let d := op (x 6) (x 7)
  let e := op a.1 b.1
  let f := op c.1 d.1
  a.2 ||| b.2 ||| c.2 ||| d.2 ||| e.2 ||| f.2 ||| (op e.1 f.1).2

/-- An FP32 reduction has written its result and has set the flags of its seven operations; nothing else of the Tinker has changed but
the words fetched ahead. -/
def ReducesFp (op : Word → Word → Word × FpFlags) (x : Nat → Word) (rd : BitVec 5) (a b : Tinker) : Prop :=
  b = { a with g := b.g, pc := a.pc + 4, fetched := b.fetched, cstat := b.cstat } ∧
    b.gr rd.toNat = (if rd = 0 then 0 else tree (fun y z => (op y z).1) x) ∧ (∀ r, r ≠ rd.toNat → b.gr r = a.gr r) ∧
    ∀ n, n < 32 → (b.cstat.getLsbD n = true ↔ a.cstat.getLsbD n = true ∨ (n < 4 ∧ (treeFlags op x).getLsbD n = true))

/-- The packets of a message stand at this module's router as sendMsg places them (R315). -/
def Sends (s : State) (dst : Nat) (m : Msg) (t : State) : Prop := t.fab.transit = (s.sendMsg dst m none none).fab.transit

/-- An issuer may write the register at an offset of control space: R417 permits it, and its block is not in reset. -/
def MayWrite (s : State) (who : Who) (o : Nat) : Prop := s.ctlPerm who o = .full ∧ s.ctlInReset o = false

/-- Only registers have changed, and of them only some. -/
def OnlyRegs (os : List Nat) (s t : State) : Prop := t = { s with regs := t.regs } ∧ ∀ o, o ∉ os → t.reg o = s.reg o

/-- The module after a full reset by the source with a number (R431, R432): every register but those of RESET that R432 keeps at its
reset value, memory and units empty; the record of what was sent, the queue and the flash's lasting contents stay. -/
def FullReset (source : Nat) (s t : State) : Prop :=
  (∀ o, o ≠ Fd.resetCause.reg 0 0 → o ≠ Fd.resetOptDone.reg 0 0 → t.reg o = resetValue o) ∧
    (if source = 0 then t.fld Fd.resetCause = 1 else ∀ b, b < 7 → t.bitOf Fd.resetCause 0 0 b = (decide (b = source) || s.bitOf Fd.resetCause 0 0 b)) ∧
    t.bulk = [] ∧ t.scache = [] ∧ t.stores = [] ∧ t.locals = [] ∧ t.tinkers = [] ∧ t.cells = [] ∧ t.slices = [] ∧
    t.pool = State.reset.pool ∧ t.fab = State.reset.fab ∧ t.weav = State.reset.weav ∧ t.eth = State.reset.eth ∧
    t.flash.ops = [] ∧ t.flash.map = [] ∧ t.flash.snap = s.flash.snap ∧ t.flash.active = s.flash.active ∧ t.flash.cfg = s.flash.cfg ∧
    t.pending = s.pending ∧ t.out = s.out ∧ t.clk.arb = s.clk.arb

/-- A started command of an opcode at work in a cell that can act. -/
def Working (s : State) (c n : Nat) (k : Cmd) (op : Nat) : Prop :=
  s.cellDead c = false ∧ s.cmd c n = some k ∧ k.opcode = op ∧ k.finished = false ∧ k.num = n

/-- What a row of a command's work gives keeps the command's name, and did not stop. -/
def RowWent (r : W) (c n op : Nat) : Prop :=
  r.halt = .go ∧ r.c = c ∧ r.k.num = n ∧ r.k.opcode = op ∧ r.k.finished = false ∧ r.k.cancelled = false ∧ (r.s.cmd c n).isSome = true

/-- A command does the one row of its work, with all of the row's effect on memory and on the command, and has then finished. -/
def DoesItsRow (i : Instr) (s : State) (c n : Nat) (k : Cmd) (f : W → W) : Prop :=
  let r := f (W.mk s c k .go)
  RowWent r c n k.opcode → ∃ t, exec i s = .next t ∧ t.cmd c n = some { r.k with pos := k.pos + 1, finished := true, kdone := true } ∧
    t.stores = r.s.stores ∧ t.bulk = r.s.bulk ∧ t.scache = r.s.scache ∧ t.locals = r.s.locals ∧ t.pool = r.s.pool ∧ t.flash = r.s.flash

/-- A store of the machine that holds bytes is in its canonical form: addresses rising, no byte listed that equals what an unlisted
address reads as. -/
def MemoriesWf (s : State) : Prop :=
  Memory.wf s.bulk ∧ Memory.wf s.scache ∧ Memory.wf s.stores ∧ Memory.wf s.locals ∧ Tab.wf resetValue s.regs

/-- A Tinker command whose access, if it makes one, stays inside the cell. -/
def insideCell : Instr → Bool
  | .loadg .. => false
  | .storeg .. => false
  | .issue .. => false
  | .issueL .. => false
  | .vld _ _ _ _ _ _ g _ => !g
  | .vst _ _ _ _ _ _ g _ => !g
  | i => (encodeTinker i).isSome

end Sys2Proof.Claims

open Sys2Proof Sys2Proof.Machine Sys2Proof.Claims

/-! ## The queue and time -/

/-- A step takes the command at the front of the queue: it is exec of that command on the state with the queue's rest. -/
def Obligations.StepRunsFrontCommand : Prop :=
  ∀ (c : Instr) (rest : List Instr) (s : State), step { s with pending := c :: rest } = exec c { s with pending := rest }

/-- On an empty queue a step lets time pass: it changes only the CYCLES registers of the blocks and the Ethernet ports' counts of corrected
codewords, and draws free values for them. The model's choice (log entry 13); that the registers count is R472. -/
def Obligations.IdleStepCountsCyclesOnly : Prop :=
  ∀ s : State, s.pending = [] → ∃ t, step s = .next t ∧ t = { s with regs := t.regs, freeCtr := t.freeCtr } ∧
    ∀ o, (∀ (b : Blk) (i : Nat), o ≠ (Fd.cycles b).reg i 0) → (∀ e, o ≠ Fd.ethFecCeCnt.reg e 0) → t.reg o = s.reg o

/-! ## Tinkers: scalar instructions -/

/-- R88 for the three-register instructions: each completes, its destination receives the stated value, g0 stays zero, the pc goes
on by one word, and nothing else changes. -/
def Sys2Proof.Claims.RegisterArithmeticWritesItsResult : Prop :=
  ∀ p ∈ aluOps, ∀ (k : Fin 25600) (rd rs1 rs2 : BitVec 5) (s : State), s.canRun k = true →
    RunsG (p.1 k rd rs1 rs2) k s rd (p.2 ((s.tinker k).gr rs1.toNat) ((s.tinker k).gr rs2.toNat)) 4

/-- R88 for the immediate instructions, the shift by an immediate in its three kinds, and LUI. -/
def Sys2Proof.Claims.ImmediateArithmeticWritesItsResult : Prop :=
  (∀ p ∈ immOps, ∀ (k : Fin 25600) (rd rs1 : BitVec 5) (m : BitVec 16) (s : State), s.canRun k = true →
    RunsG (p.1 k rd rs1 m) k s rd (p.2 m ((s.tinker k).gr rs1.toNat)) 4) ∧
  (∀ (k : Fin 25600) (rd rs1 : BitVec 5) (hi : BitVec 9) (n : BitVec 5) (s : State), s.canRun k = true →
    RunsG (.shi k rd rs1 (hi ++ 0#2 ++ n)) k s rd (BitVec.ofNat 32 (((s.tinker k).gr rs1.toNat).toNat * 2 ^ n.toNat)) 4 ∧
    RunsG (.shi k rd rs1 (hi ++ 1#2 ++ n)) k s rd (BitVec.ofNat 32 (((s.tinker k).gr rs1.toNat).toNat / 2 ^ n.toNat)) 4 ∧
    RunsG (.shi k rd rs1 (hi ++ 2#2 ++ n)) k s rd (BitVec.ofInt 32 (((s.tinker k).gr rs1.toNat).toInt / 2 ^ n.toNat)) 4) ∧
  (∀ (k : Fin 25600) (rd : BitVec 5) (m : BitVec 16) (s : State), s.canRun k = true →
    RunsG (.lui k rd m) k s rd (BitVec.ofNat 32 (m.toNat * 2 ^ 16)) 4)

/-- R88 whole: the three-register instructions, the immediate ones, the shifts by an immediate and LUI write the stated results to rd;
g0 stays zero, the pc goes on by one word, and nothing else changes. -/
def Obligations.ScalarOperationsWriteTheirResults : Prop := RegisterArithmeticWritesItsResult ∧ ImmediateArithmeticWritesItsResult

/-- R87: LI writes imm32 to rd; LIP writes the low register of a pair and the high one. g0 stays zero, every other register is as before. -/
def Obligations.LongFormsLoadTheirRegisters : Prop :=
  (∀ (k : Fin 25600) (rd : BitVec 5) (m : BitVec 32) (s : State), s.canRun k = true → RunsG (.li k rd m) k s rd m 8) ∧
  ∀ (k : Fin 25600) (rd : BitVec 5) (hi : BitVec 16) (imm : BitVec 32) (s : State), s.canRun k = true →
    ∃ t, exec (.lip k rd hi imm) s = .next t ∧ OnlyTinker k s t ∧
      t.tinker k = { s.tinker k with g := (t.tinker k).g, pc := (s.tinker k).pc + 8, fetched := (t.tinker k).fetched } ∧
      (t.tinker k).gr (rd.toNat / 2 * 2) = (if rd.toNat / 2 = 0 then 0 else imm) ∧
      (t.tinker k).gr (rd.toNat / 2 * 2 + 1) = BitVec.ofNat 32 hi.toNat ∧
      ∀ r, r / 2 ≠ rd.toNat / 2 → (t.tinker k).gr r = (s.tinker k).gr r

/-- R89: each branch goes to pc + 4 × offset where its condition holds, else to the next word, and changes nothing else. -/
def Sys2Proof.Claims.BranchesFollowTheirConditions : Prop :=
  (∀ p ∈ branchOps, ∀ (k : Fin 25600) (rs1 rs2 : BitVec 5) (off : BitVec 16) (s : State), s.canRun k = true →
    ∃ t, exec (p.1 k rs1 rs2 off) s = .next t ∧ OnlyTinker k s t ∧
      MovesPc (if p.2 ((s.tinker k).gr rs1.toNat) ((s.tinker k).gr rs2.toNat) then pcPlus (s.tinker k).pc off.toInt
        else (s.tinker k).pc + 4) (s.tinker k) (t.tinker k)) ∧
  (∀ (k : Fin 25600) (p : BitVec 3) (cond : BitVec 2) (off : BitVec 16) (s : State), s.canRun k = true → cond ≠ 3 →
    ∃ t, exec (.bp k p cond off) s = .next t ∧ OnlyTinker k s t ∧
      MovesPc (if (cond = 0 ∧ ∃ i, i < 8 ∧ ((s.tinker k).pr p.toNat).getLsbD i = true) ∨
          (cond = 1 ∧ ∀ i, i < 8 → ((s.tinker k).pr p.toNat).getLsbD i = true) ∨
          (cond = 2 ∧ ∀ i, i < 8 → ((s.tinker k).pr p.toNat).getLsbD i = false)
        then pcPlus (s.tinker k).pc off.toInt else (s.tinker k).pc + 4) (s.tinker k) (t.tinker k))

/-- R87 and R89: JAL, JALR and JA write the address of the next instruction to rd and jump to their targets; rs1 is read before rd
is written. -/
def Sys2Proof.Claims.JumpsLinkAndGo : Prop :=
  ∀ (k : Fin 25600) (rd : BitVec 5) (s : State), s.canRun k = true →
    (∀ off : BitVec 21, ∃ t, exec (.jal k rd off) s = .next t ∧ OnlyTinker k s t ∧
      WritesG rd ((s.tinker k).pc + 4) (pcPlus (s.tinker k).pc off.toInt - (s.tinker k).pc) (s.tinker k) (t.tinker k)) ∧
    (∀ (rs1 : BitVec 5) (m : BitVec 16), ∃ t, exec (.jalr k rd rs1 m) s = .next t ∧ OnlyTinker k s t ∧
      WritesG rd ((s.tinker k).pc + 4)
        ((BitVec.ofInt 32 (((s.tinker k).gr rs1.toNat).toInt + m.toInt) &&& 0xFFFFFFFC#32) - (s.tinker k).pc) (s.tinker k) (t.tinker k)) ∧
    (∀ m : BitVec 32, ∃ t, exec (.ja k rd m) s = .next t ∧ OnlyTinker k s t ∧
      WritesG rd ((s.tinker k).pc + 8) ((m &&& 0xFFFFFFFC#32) - (s.tinker k).pc) (s.tinker k) (t.tinker k))

/-- R89 whole, and JA of R87: branches go to their target where their condition holds, jumps write the address of the next instruction to
rd and go to their target; nothing else changes. -/
def Obligations.BranchesAndJumpsGoToTheirTargets : Prop := BranchesFollowTheirConditions ∧ JumpsLinkAndGo

/-! ## Tinkers: traps and system instructions -/

/-- R84, R86: an instruction of an encoding that the table leaves undefined takes the ILLEGAL trap with its first word in tval. -/
def Sys2Proof.Claims.UndefinedEncodingsTakeTheIllegalTrap : Prop :=
  ∀ (k : Fin 25600) (s : State), s.canRun k = true →
    (∀ (rd rs1 : BitVec 5) (m : BitVec 16), m.extractLsb' 5 2 = 3#2 →
      ∃ t, exec (.shi k rd rs1 m) s = .next t ∧ Trapped k 1 (firstWord (.shi k rd rs1 m)) s t) ∧
    (∀ (p : BitVec 3) (off : BitVec 16), ∃ t, exec (.bp k p 3 off) s = .next t ∧ Trapped k 1 (firstWord (.bp k p 3 off)) s t) ∧
    (∀ (rd base : BitVec 5) (u : Bool) (off : BitVec 13),
      (∃ t, exec (.load k rd base 3 u off) s = .next t ∧ Trapped k 1 (firstWord (.load k rd base 3 u off)) s t) ∧
      (∃ t, exec (.store k rd base 3 u off) s = .next t ∧ Trapped k 1 (firstWord (.store k rd base 3 u off)) s t) ∧
      (∃ t, exec (.loadg k rd base 3 u off) s = .next t ∧ Trapped k 1 (firstWord (.loadg k rd base 3 u off)) s t) ∧
      (∃ t, exec (.storeg k rd base 3 u off) s = .next t ∧ Trapped k 1 (firstWord (.storeg k rd base 3 u off)) s t)) ∧
    (∀ (vd va vb : BitVec 5) (pg : BitVec 3), 16 ≤ vd.toNat ∨ 16 ≤ va.toNat ∨ 16 ≤ vb.toNat →
      ∃ t, exec (.vadd k vd va vb pg) s = .next t ∧ Trapped k 1 (firstWord (.vadd k vd va vb pg)) s t) ∧
    (∀ (w : Word) (rest : List (Nat × Word)), (s.tinker k).fetched = ((s.tinker k).pc.toNat, w) :: rest → decodeTinker k w 0 = none →
      ∃ t, exec (.instructionFetch k) s = .next t ∧ Trapped k 1 w s t)

/-- R84: the TRAP instruction takes the SOFT trap with its source register in tval. -/
def Sys2Proof.Claims.TrapInstructionTakesTheSoftTrap : Prop :=
  ∀ (k : Fin 25600) (rs1 : BitVec 5) (s : State), s.canRun k = true →
    ∃ t, exec (.trap k rs1) s = .next t ∧ Trapped k 5 ((s.tinker k).gr rs1.toNat) s t

/-- R84: RETT sets the pc to epc and clears INTRAP, and changes nothing else. -/
def Obligations.RettReturnsFromTheHandler : Prop :=
  ∀ (k : Fin 25600) (s : State), s.canRun k = true →
    ∃ t, exec (.rett k) s = .next t ∧ OnlyTinker k s t ∧
      t.tinker k = { s.tinker k with pc := (s.tinker k).epc &&& 0xFFFFFFFC#32, cstat := (t.tinker k).cstat, fetched := [] } ∧
      (t.tinker k).cstat.getLsbD 16 = false ∧
      ∀ i, i ≠ 16 → (t.tinker k).cstat.getLsbD i = (s.tinker k).cstat.getLsbD i

/-- R78, R107 and R108: CSRR and QDONE read what the register table gives; CSRW writes TRIM of cstat, and tvec, epc and tval, clears a
count by a zero and leaves the rest; CSRC clears the sticky flags that are set in its source, and nothing of the others. -/
def Obligations.ControlRegistersReadAndWriteAsTabled : Prop :=
  ∀ (k : Fin 25600) (s : State), s.canRun k = true →
    let a := s.tinker k
    (∀ (rd : BitVec 5) (c : BitVec 8), RunsG (.csrr k rd c) k s rd
      (if c = 0 then a.cstat else if c = 1 then a.tvec else if c = 2 then a.epc else if c = 3 then a.tval
        else if c = 4 then BitVec.ofNat 32 k.val else if c = 5 then BitVec.ofNat 32 (s.reg ((Fd.cycles .cell).reg (k.val / 100) 0)).toNat
        else if c = 6 then a.satc else if c = 7 then a.flsc else if c = 8 then a.narc else 0) 4) ∧
    (∀ (rd : BitVec 5) (q : BitVec 4), RunsG (.qdone k rd q) k s rd
      (BitVec.ofNat 32 (s.reg (Fd.cellSqDone.reg (k.val / 100) q.toNat)).toNat) 4) ∧
    (∀ (r : BitVec 5) (c : BitVec 8), ∃ t, exec (.csrw k r c) s = .next t ∧ OnlyTinker k s t ∧
      (let v := a.gr r.toNat
       let b := t.tinker k
       b = { a with
        cstat := if c = 0 then (a.cstat &&& 0xFFFF00FF#32) ||| (v &&& 0x0000FF00#32) else a.cstat
        tvec := if c = 1 then v else a.tvec
        epc := if c = 2 then v else a.epc
        tval := if c = 3 then v else a.tval
        satc := if c = 6 ∧ v = 0 then 0 else a.satc
        flsc := if c = 7 ∧ v = 0 then 0 else a.flsc
        narc := if c = 8 ∧ v = 0 then 0 else a.narc
        pc := a.pc + 4
        fetched := b.fetched })) ∧
    (∀ (r : BitVec 5) (c : BitVec 8), ∃ t, exec (.csrc k r c) s = .next t ∧ OnlyTinker k s t ∧
      t.tinker k = { a with cstat := (t.tinker k).cstat, pc := a.pc + 4, fetched := (t.tinker k).fetched } ∧
      ∀ i, i < 32 → (t.tinker k).cstat.getLsbD i = (a.cstat.getLsbD i && !(decide (c = 0) && decide (i < 4) && (a.gr r.toNat).getLsbD i)))

/-- R81, R82 and R83: FENCE.T goes on, IFLUSH empties the instruction buffer, HALT clears the Tinker's own RUN bit and no other; none
does anything else. -/
def Sys2Proof.Claims.FenceFlushAndHalt : Prop :=
  ∀ (k : Fin 25600) (s : State), s.canRun k = true →
    (∃ t, exec (.fenceT k) s = .next t ∧ OnlyTinker k s t ∧ MovesPc ((s.tinker k).pc + 4) (s.tinker k) (t.tinker k)) ∧
    (∃ t, exec (.iflush k) s = .next t ∧ OnlyTinker k s t ∧
      t.tinker k = { s.tinker k with ibuf := [], pc := (s.tinker k).pc + 4, fetched := (t.tinker k).fetched }) ∧
    (∃ t, exec (.halt k) s = .next t ∧ t = { s with tinkers := t.tinkers, regs := t.regs } ∧
      (∀ j, t.tinker j = if j = k.val then { s.tinker k with pc := (s.tinker k).pc + 4, fetched := (t.tinker k).fetched } else s.tinker j) ∧
      t.running k = false ∧ ∀ j, j < 25600 → j ≠ k.val → t.running j = s.running j)

/-- R107: WAITQ goes on where SQ_DONE less its target, as a signed 32-bit number, is not negative, and else waits at its own address;
WAITQ_RESUME lets a waiting Tinker go on once that holds. -/
def Sys2Proof.Claims.WaitqWaitsForItsCount : Prop :=
  ∀ (k : Fin 25600) (rs1 : BitVec 5) (q : BitVec 4) (s : State), s.canRun k = true →
    let target := (s.tinker k).gr rs1.toNat
    let done (z : State) : Prop := 0 ≤ (BitVec.ofNat 32 (z.fld Fd.cellSqDone (k.val / 100) q.toNat) - target).toInt
    (done s → ∃ t, exec (.waitq k rs1 q) s = .next t ∧ OnlyTinker k s t ∧ MovesPc ((s.tinker k).pc + 4) (s.tinker k) (t.tinker k)) ∧
    (¬ done s → ∃ t, exec (.waitq k rs1 q) s = .next t ∧ OnlyTinker k s t ∧
      t.tinker k = { s.tinker k with wait := .waitq q.toNat target }) ∧
    ∀ z : State, (z.tinker k).wait = .waitq q.toNat target → z.cellDead (k.val / 100) = false → done z →
      ∃ t, exec (.waitqResume k) z = .next t ∧ OnlyTinker k z t ∧
        t.tinker k = { z.tinker k with wait := .none, pc := (z.tinker k).pc + 4, fetched := (t.tinker k).fetched }

/-- R87, R106: ISSUE and ISSUE.L append their pointer to the queue and write 1 where the queue has room for it; on a full queue they
write 0, or with W = 1 wait; ISSUE_APPEND_RETRY appends for a waiting one once the queue has room. -/
def Sys2Proof.Claims.IssueAppendsOrWaits : Prop :=
  ∀ (k : Fin 25600) (rd : BitVec 5) (q : BitVec 4) (s : State), s.canRun k = true →
    let c := k.val / 100
    (∀ (i : Instr) (off : Nat) (len : Word) (w : Bool),
      (∃ rs1, i = .issue k rd rs1 q w ∧ off = ((s.tinker k).gr rs1.toNat).toNat ∧ len = 4) ∨
        (∃ m : BitVec 32, i = .issueL k rd q w m ∧ off = m.toNat ∧ len = 8) →
      (s.queueRoom c q.toNat = true → ∃ t, exec i s = .next t ∧ OnlyTinker k (s.append c q.toNat off) t ∧
        WritesG rd 1 len ((s.append c q.toNat off).tinker k) (t.tinker k)) ∧
      (s.queueRoom c q.toNat = false → w = false → RunsG i k s rd 0 len) ∧
      (s.queueRoom c q.toNat = false → w = true → ∃ t, exec i s = .next t ∧ OnlyTinker k s t ∧
        t.tinker k = { s.tinker k with wait := .issue rd.toNat off q.toNat len.toNat })) ∧
    ∀ (z : State) (off len : Nat), (z.tinker k).wait = .issue rd.toNat off q.toNat len → z.queueRoom c q.toNat = true →
      z.cellDead c = false →
      ∃ t, exec (.issueAppendRetry k) z = .next t ∧ OnlyTinker k (z.append c q.toNat off) t ∧
        WritesG rd 1 (BitVec.ofNat 32 len) { (z.append c q.toNat off).tinker k with wait := .none } (t.tinker k)

/-- R106: what appending a pointer to a descriptor that is not a CANCEL does: the queue has it last, at an offset whose bits below 64 are
ignored and which wraps in the cell store, and the next pointer has the next number. -/
def Sys2Proof.Claims.AppendedPointerIsLastInItsQueue : Prop :=
  ∀ (s : State) (c q off : Nat), fieldB ((s.storeRead c (off % 2 ^ 21 / 64 * 64) 2).1) 0 2 ≠ 0x0F01 →
    let t := s.append c q off
    (t.queue c q).map (fun e => e.off) = (s.queue c q).map (fun e => e.off) ++ [off % 2 ^ 21 / 64 * 64] ∧
    (∀ p, p ≠ q → t.queue c p = s.queue c p) ∧ (∀ d, d ≠ c → t.cell d = s.cell d) ∧
    (t.cell c).nextSeq = (s.cell c).nextSeq + 1 ∧ (t.cell c).cmds = (s.cell c).cmds ∧ t.stores = s.stores

/-- R82: one fetch takes the word at the pc, or the next one, from the local memory, from a line that the buffer holds, or from the
cell store into the buffer's entry a[11:6]; memory does not change. -/
def Obligations.FetchTakesTheNextWord : Prop :=
  ∀ (k : Fin 25600) (s : State), s.running k = true → s.cellDead (k.val / 100) = false → (s.tinker k).fetched.length < 2 →
    s.sramErr = [] → s.undefinedWord k = none →
    let a := ((s.tinker k).pc.toNat + 4 * (s.tinker k).fetched.length) % 2 ^ 32
    let line := a % 2 ^ 22 / 64 * 64
    ∃ t, exec (.instructionFetch k) s = .next t ∧ OnlyTinker k s t ∧
      (t.tinker k).pc = (s.tinker k).pc ∧ (t.tinker k).g = (s.tinker k).g ∧
      (isLocal a = true → (t.tinker k).ibuf = (s.tinker k).ibuf ∧ (t.tinker k).fetched = (s.tinker k).fetched ++
        [(a, BitVec.ofNat 32 (ofLe ((List.range 4).map (fun i => Mem.get s.locals (k.val * 2 ^ 15 + (a % 2 ^ 15 + i) % 2 ^ 15)))))]) ∧
      (∀ bs, isLocal a = false → Tab.get (fun _ => none) (s.tinker k).ibuf (a / 64 % 64) = some (line, bs, []) →
        (t.tinker k).ibuf = (s.tinker k).ibuf ∧
        (t.tinker k).fetched = (s.tinker k).fetched ++ [(a, BitVec.ofNat 32 (fieldB bs (a % 64) 4))]) ∧
      ((isLocal a = false ∧ ∀ x, Tab.get (fun _ => none) (s.tinker k).ibuf (a / 64 % 64) ≠ some (line, x)) →
        let bs := (List.range 64).map (fun i => Mem.get s.stores (k.val / 100 * 2 ^ 21 + (line % 2 ^ 21 + i) % 2 ^ 21))
        Tab.get (fun _ => none) (t.tinker k).ibuf (a / 64 % 64) = some (line, bs, []) ∧
        (∀ e, e ≠ a / 64 % 64 → Tab.get (fun _ => none) (t.tinker k).ibuf e = Tab.get (fun _ => none) (s.tinker k).ibuf e) ∧
        (t.tinker k).fetched = (s.tinker k).fetched ++ [(a, BitVec.ofNat 32 (fieldB bs (a % 64) 4))])

/-! ## Tinkers: memory instructions -/

/-- R79, R90: LOAD takes the byte, half or word at the short address, aligned by its width, and zero- or sign-extends it; memory and
every other register stay. -/
def Sys2Proof.Claims.LoadReadsTheShortAddress : Prop :=
  ∀ (k : Fin 25600) (rd base : BitVec 5) (w : BitVec 2) (u : Bool) (off : BitVec 13) (s : State), s.canRun k = true → w ≠ 3 →
    s.sramErr = [] →
    let n := 2 ^ w.toNat
    let a := (BitVec.ofInt 32 (((s.tinker k).gr base.toNat).toInt + off.toInt)).toNat / n * n
    RunsG (.load k rd base w u off) k s rd (loaded u (shortBytes s k a n)) 4

/-- R79, R90: STORE puts the low bytes of its register at the short address, the lowest first; every other byte of memory, every
register of the machine and every general register stays. -/
def Sys2Proof.Claims.StoreWritesTheShortAddress : Prop :=
  ∀ (k : Fin 25600) (rs base : BitVec 5) (w : BitVec 2) (u : Bool) (off : BitVec 13) (s : State), s.canRun k = true → w ≠ 3 →
    s.sramErr = [] →
    let n := 2 ^ w.toNat
    let a := (BitVec.ofInt 32 (((s.tinker k).gr base.toNat).toInt + off.toInt)).toNat / n * n
    ∃ t, exec (.store k rs base w u off) s = .next t ∧
      t = { s with tinkers := t.tinkers, locals := t.locals, stores := t.stores } ∧
      (∀ j, j ≠ k.val → t.tinker j = s.tinker j) ∧ MovesPc ((s.tinker k).pc + 4) (s.tinker k) (t.tinker k) ∧
      ShortStored k a ((List.range n).map (fun i => some (BitVec.ofNat 8 (((s.tinker k).gr rs.toNat).toNat / 256 ^ i)))) s t

/-- R91, R92, R93: VLD at a short address puts the element of each active lane into that lane, decoded with the exponent in rk where it
is a logarithmic code; inactive lanes and other registers stay. -/
def Sys2Proof.Claims.VectorLoadFillsActiveLanes : Prop :=
  ∀ (k : Fin 25600) (vd base rk : BitVec 5) (pg fmt : BitVec 3) (off : BitVec 4) (s : State), s.canRun k = true → vd.toNat < 16 →
    fmt.toNat ≤ 3 → s.sramErr = [] →
    let a := s.tinker k
    let n := vmBytes fmt.toNat
    let bs := shortBytes s k (BitVec.ofInt 32 ((a.gr base.toNat).toInt + off.toInt * n)).toNat n
    ∃ t, exec (.vld k vd base rk pg fmt false off) s = .next t ∧ t = { s with tinkers := t.tinkers, regs := t.regs } ∧
      (∀ o, o ≠ Fd.cellWrapCnt.reg (k.val / 100) 0 → t.reg o = s.reg o) ∧ (∀ j, j ≠ k.val → t.tinker j = s.tinker j) ∧
      (t.tinker k).pc = a.pc + 4 ∧ (t.tinker k).g = a.g ∧ (t.tinker k).p = a.p ∧ (t.tinker k).cstat = a.cstat ∧
      (∀ i, i < 8 → (t.tinker k).vr vd.toNat i = if (a.pr pg.toNat).getLsbD i then
        (vmLoadLane fmt.toNat (BitVec.ofNat 8 (a.gr rk.toNat).toNat).toInt (vmCode fmt.toNat bs i)).w else a.vr vd.toNat i) ∧
      ∀ r i, r ≠ vd.toNat → i < 8 → (t.tinker k).vr r i = a.vr r i

/-- R91, R92: VST at a short address stores the element of each active lane, and no byte of a lane that is inactive; every other
byte of memory stays. -/
def Sys2Proof.Claims.VectorStoreWritesActiveLanes : Prop :=
  ∀ (k : Fin 25600) (vd base rk : BitVec 5) (pg fmt : BitVec 3) (off : BitVec 4) (s : State), s.canRun k = true → vd.toNat < 16 →
    fmt.toNat ≤ 3 → s.sramErr = [] →
    let a := s.tinker k
    let n := vmBytes fmt.toNat
    let x := (BitVec.ofInt 32 ((a.gr base.toNat).toInt + off.toInt * n)).toNat
    let lane (i : Nat) : Option Nat := if (a.pr pg.toNat).getLsbD i then
      some (vmStoreLane fmt.toNat (BitVec.ofNat 8 (a.gr rk.toNat).toNat).toInt a.trim (a.vr vd.toNat i)).1 else none
    ∃ t, exec (.vst k vd base rk pg fmt false off) s = .next t ∧
      t = { s with tinkers := t.tinkers, regs := t.regs, locals := t.locals, stores := t.stores } ∧
      (∀ o, o ≠ Fd.cellWrapCnt.reg (k.val / 100) 0 → t.reg o = s.reg o) ∧ (∀ j, j ≠ k.val → t.tinker j = s.tinker j) ∧
      (t.tinker k).pc = a.pc + 4 ∧ (t.tinker k).g = a.g ∧ (t.tinker k).p = a.p ∧ (t.tinker k).v = a.v ∧
      (fmt = 0 → ShortStored k x ((List.range 32).map (fun i => (lane (i / 4)).map (fun v => BitVec.ofNat 8 (v / 256 ^ (i % 4))))) s t) ∧
      (fmt = 1 → ShortStored k x ((List.range 4).map (fun j => if lane (2 * j) = none ∧ lane (2 * j + 1) = none then none else
        let o := ((shortBytes s k x 4).getD j 0).toNat
        some (BitVec.ofNat 8 ((lane (2 * j)).getD o % 16 + 16 * ((lane (2 * j + 1)).getD (o / 16) % 16))))) s t) ∧
      (fmt = 2 → ShortStored k x ((List.range 8).map (fun i => (lane i).map (fun v => BitVec.ofNat 8 v))) s t) ∧
      (fmt = 3 → ShortStored k x ((List.range 16).map (fun i => (lane (i / 2)).map (fun v => BitVec.ofNat 8 (v / 256 ^ (i % 2))))) s t)

/-- R80, R84, R110: a global access outside the shared cache is performed when it is issued, and its answer reaches the Tinker with
GLOBAL_ACCESS_RESPONSE: the loaded value or lanes are written and the Tinker goes on, or it takes the GLOBAL_FAULT trap with the code in
tval and no memory is changed. -/
def Obligations.GlobalAccessesAnswerOrTrap : Prop :=
  ∀ (k : Fin 25600) (i : Instr) (x : TkAcc) (s : State), s.canRun k = true →
    ((∃ rd base w u off, i = .loadg k rd base w u off ∧ w ≠ 3 ∧
        x = ⟨rd.toNat, (s.tinker k).alignedGlobal base off (2 ^ w.toNat), .load (2 ^ w.toNat) u, none⟩) ∨
      (∃ rs base w u off, i = .storeg k rs base w u off ∧ w ≠ 3 ∧
        x = ⟨0, (s.tinker k).alignedGlobal base off (2 ^ w.toNat), .store (leBytes (2 ^ w.toNat) ((s.tinker k).gr rs.toNat).toNat), none⟩) ∨
      (∃ vd base rk pg fmt off, i = .vld k vd base rk pg fmt true off ∧ vd.toNat < 16 ∧ fmt.toNat ≤ 3 ∧
        x = ⟨0, (s.tinker k).globalAddr base (off.toInt * vmBytes fmt.toNat), .vload vd.toNat pg.toNat fmt.toNat ((s.tinker k).kOf rk), none⟩) ∨
      (∃ vd base rk pg fmt off, i = .vst k vd base rk pg fmt true off ∧ vd.toNat < 16 ∧ fmt.toNat ≤ 3 ∧
        let l := (s.tinker k).storeLanes vd.toNat pg.toNat fmt.toNat ((s.tinker k).kOf rk)
        x = ⟨0, (s.tinker k).globalAddr base (off.toInt * vmBytes fmt.toNat), .vstore fmt.toNat l.1 l.2, none⟩)) →
    (∀ o, placeOf x.addr ≠ .scache o) →
    let r := s.perform k x
    ∃ t, exec i s = .next t ∧ OnlyTinker k r.2 t ∧ t.tinker k = { r.2.tinker k with wait := .access { x with answer := some r.1 } } ∧
      (r.2.cellDead (k.val / 100) = false →
        (r.1.1 = 0 → ∃ u, exec (.globalAccessResponse k) t = .next u ∧ OnlyTinker k t u ∧
          u.tinker k = ({ (t.tinker k).complete x r.1.2 with wait := .none }.advance 4)) ∧
        (r.1.1 ≠ 0 → (t.bulk = s.bulk ∧ t.scache = s.scache ∧ t.stores = s.stores ∧ t.locals = s.locals) ∧
          ∃ u, exec (.globalAccessResponse k) t = .next u ∧ Trapped k 3 (BitVec.ofNat 32 r.1.1.toNat) t u))

/-- R102, R103: an atomic in the shared cache waits its turn at its slice, is performed there whole, and its Tinker receives the old word:
FAI adds 1, FAA adds rs2, CAS puts rs3 where the word equals rs2; no other byte of the shared cache changes. -/
def Sys2Proof.Claims.AtomicsActWholeAtTheirSlice : Prop :=
  ∀ (k : Fin 25600) (rd base rs2 rs3 : BitVec 5) (s : State) (o : Nat) (sl : Fin 64), s.canRun k = true → s.slices = [] →
    s.sramErr = [] → (s.tinker k).pairAddr base / 4 * 4 = 0x200000000000 + o → o < 0xC000000 → sl.val = o / 4096 % 64 →
    s.ownsSlice (s.cellWho (k.val / 100)) sl = true →
    let word (z : State) : Nat := ((List.range 4).map (fun i => (Mem.get z.scache (o + i)).toNat * 256 ^ i)).sum
    let a := (s.tinker k).gr rs2.toNat
    let b := (s.tinker k).gr rs3.toNat
    ∀ p ∈ [(Instr.fai k rd base, (word s + 1) % 2 ^ 32), (Instr.faa k rd base rs2, (word s + a.toNat) % 2 ^ 32),
        (Instr.cas k rd base rs2 rs3, if word s = a.toNat then b.toNat else word s)],
      ∃ t u v, exec p.1 s = .next t ∧ exec (.sharedCacheSliceOp sl) t = .next u ∧ exec (.globalAccessResponse k) u = .next v ∧
        word v = p.2 ∧ (∀ x, x < o ∨ o + 4 ≤ x → Mem.get v.scache x = Mem.get s.scache x) ∧
        v.slices = [] ∧ v.bulk = s.bulk ∧ v.stores = s.stores ∧ v.locals = s.locals ∧
        (∀ j, j ≠ k.val → v.tinker j = s.tinker j) ∧ WritesG rd (BitVec.ofNat 32 (word s)) 4 (s.tinker k) (v.tinker k)

/-- R105: HMERGE merges the signed rs2[23:0] into the history record of its address at its slice and gives 0; HPRED gives the block
exponent that the record predicts for the format in rs2[1:0], and changes no memory. -/
def Obligations.HistoryInstructionsActAtTheirSlice : Prop :=
  ∀ (k : Fin 25600) (rd base rs2 : BitVec 5) (s : State) (o : Nat) (sl : Fin 64), s.canRun k = true → s.slices = [] →
    s.sramErr = [] → (s.tinker k).pairAddr base / 4 * 4 = 0x200000000000 + o → o < 0xC000000 → sl.val = o / 4096 % 64 →
    s.ownsSlice (s.cellWho (k.val / 100)) sl = true →
    let rec_ := Hist.decode ((List.range 80).map (fun i => Mem.get s.scache (o / 128 * 128 + i)))
    let a := (s.tinker k).gr rs2.toNat
    (∃ t u v, exec (.hmerge k rd base rs2) s = .next t ∧ exec (.sharedCacheSliceOp sl) t = .next u ∧
      exec (.globalAccessResponse k) u = .next v ∧ WritesG rd 0 4 (s.tinker k) (v.tinker k) ∧
      (∀ x, x < o / 128 * 128 ∨ o / 128 * 128 + 80 ≤ x → Mem.get v.scache x = Mem.get s.scache x) ∧
      (rec_.freeze = true → v.scache = s.scache) ∧
      (rec_.freeze = false →
        let new := Hist.decode ((List.range 80).map (fun i => Mem.get v.scache (o / 128 * 128 + i)))
        new.cnt = min (rec_.cnt + 1) (2 ^ 32 - 1) ∧ new.cur = rec_.cur ∧ new.headroom = rec_.headroom ∧ new.initExp = rec_.initExp ∧
        histEntry (new.entries.getD rec_.cur 0) = some (match histEntry (rec_.entries.getD rec_.cur 0) with
          | none => clampMax (a.setWidth 24).toInt
          | some m => max m (clampMax (a.setWidth 24).toInt)) ∧
        ∀ j, j < 16 → j ≠ rec_.cur → new.entries.getD j 0 = rec_.entries.getD j 0)) ∧
    (∃ t u v, exec (.hpred k rd base rs2) s = .next t ∧ exec (.sharedCacheSliceOp sl) t = .next u ∧
      exec (.globalAccessResponse k) u = .next v ∧ v.scache = s.scache ∧
      WritesG rd (BitVec.ofInt 32 (rec_.predict (Fmt.ofField (a.toNat % 4)))) 4 (s.tinker k) (v.tinker k))

/-- R102, R84: an atomic or history instruction whose address is outside the shared cache takes the ATOMIC_ADDR trap and accesses
nothing. -/
def Sys2Proof.Claims.AtomicsOutsideTheSharedCacheTrap : Prop :=
  ∀ (k : Fin 25600) (rd base rs2 rs3 : BitVec 5) (s : State), s.canRun k = true →
    let a := (s.tinker k).pairAddr base / 4 * 4
    a < 0x200000000000 ∨ 0x20000C000000 ≤ a →
    ∀ i ∈ [Instr.fai k rd base, Instr.faa k rd base rs2, Instr.cas k rd base rs2 rs3, Instr.hmerge k rd base rs2, Instr.hpred k rd base rs2],
      ∃ t, exec i s = .next t ∧ Trapped k 4 (BitVec.ofNat 32 a) s t

/-! ## Tinkers: vector instructions -/

/-- R92, R94 to R98, R100: the vector instructions that write a vector register: each active lane receives what the operation gives
from its sources, and adds its flags and counts; inactive lanes and everything else stay. -/
def Obligations.VectorInstructionsRunLaneByLane : Prop :=
  ∀ (k : Fin 25600) (vd va vb : BitVec 5) (pg : BitVec 3) (s : State), s.canRun k = true → vd.toNat < 16 → va.toNat < 16 →
    vb.toNat < 16 →
    let x := (s.tinker k).vr va.toNat
    let y := (s.tinker k).vr vb.toNat
    (∀ p ∈ vectorOps2, LanesRun (p.1 k vd va vb pg) k s vd pg (fun j => p.2 (x j) (y j))) ∧
    (∀ p ∈ vectorOps1, LanesRun (p.1 k vd va pg) k s vd pg (fun j => p.2 (x j))) ∧
    (∀ p ∈ vectorOpsSf, ∀ xc, LanesRun (p.1 k vd va pg xc) k s vd pg (fun j => p.2 xc (x j))) ∧
    LanesRun (.vfma k vd va vb pg) k s vd pg (fun j => floating (fpFma .ne (x j) (y j) ((s.tinker k).vr vd.toNat j))) ∧
    ∀ ga : BitVec 5, LanesRun (.vbcast k vd ga pg) k s vd pg (fun _ => plain ((s.tinker k).gr ga.toNat))

/-- R93, R96: the lanes of LMUL, LDIV, LHALF and LNEGX by their codes: a NaR operand gives NaR; a product or quotient of finite values
has the sign of both and the sum or difference of their logarithms, where that stands between the smallest and the largest code; a zero
divisor, a negative half and an inverse of zero give NaR, counted once as a NaR result. -/
def Obligations.LogarithmicLanesByTheirCodes : Prop :=
  ∀ a b : Word, let e (w : Word) : Int := ((w.toNat % 2 ^ 31 : Nat) : Int)
    let sgn (w : Word) : Nat := w.toNat / 2 ^ 31
    let nar : Word := 0x80000000
    ((a = nar ∨ b = nar) → (lmulLane a b).w = nar ∧ (ldivLane a b).w = nar ∧ (laddLane a b).w = nar ∧ (lsubLane a b).w = nar ∧
      (lmulLane a b).c.narOp = b2n (decide (a = nar)) + b2n (decide (b = nar)) ∧ (lmulLane a b).c.narRes = 0) ∧
    (a ≠ nar → b ≠ nar →
      ((a = 0 ∨ b = 0) → (lmulLane a b).w = 0) ∧
      (b = 0 → (ldivLane a b).w = nar ∧ (ldivLane a b).c.narRes = 1 ∧ (ldivLane a b).c.narOp = 0) ∧
      (a ≠ 0 → b ≠ 0 → 1 ≤ e a + e b - 2 ^ 30 → e a + e b - 2 ^ 30 ≤ 2 ^ 31 - 1 →
        lmulLane a b = plain (BitVec.ofInt 32 (((sgn a + sgn b) % 2 : Nat) * 2 ^ 31 + (e a + e b - 2 ^ 30)))) ∧
      (a ≠ 0 → b ≠ 0 → 1 ≤ e a - e b + 2 ^ 30 → e a - e b + 2 ^ 30 ≤ 2 ^ 31 - 1 →
        ldivLane a b = plain (BitVec.ofInt 32 (((sgn a + sgn b) % 2 : Nat) * 2 ^ 31 + (e a - e b + 2 ^ 30)))) ∧
      (a = 0 → laddLane a b = plain b) ∧ (b = 0 → laddLane a b = plain a)) ∧
    (a = 0 → (lhalfLane a).w = 0 ∧ (lnegxLane a).w = nar ∧ (lnegxLane a).c.narRes = 1) ∧
    (a ≠ 0 → a ≠ nar → sgn a = 1 → (lhalfLane a).w = nar ∧ (lhalfLane a).c.narRes = 1) ∧
    (a ≠ 0 → a ≠ nar → lnegxLane a = plain (BitVec.ofInt 32 (sgn a * 2 ^ 31 + (2 ^ 31 - e a))))

/-- R92, R99: a compare writes bit i of its predicate to the relation of active lane i, and to 0 in an inactive lane; a write to p0 is
discarded; flags and counts come from the active lanes. -/
def Obligations.ComparesWriteTheirPredicate : Prop :=
  ∀ p ∈ compareOps, ∀ (k : Fin 25600) (pd va vb : BitVec 5) (pg : BitVec 3) (s : State), s.canRun k = true → pd.toNat < 8 →
    va.toNat < 16 → vb.toNat < 16 →
    ∃ t, exec (p.1 k pd va vb pg) s = .next t ∧ OnlyTinker k s t ∧
      let a := s.tinker k
      let b := t.tinker k
      let on := (List.range 8).filter (fun j => (a.pr pg.toNat).getLsbD j)
      let op (j : Nat) := p.2 (a.vr va.toNat j) (a.vr vb.toNat j)
      b = { a with p := b.p, pc := a.pc + 4, fetched := b.fetched, cstat := b.cstat, narc := b.narc } ∧
        (∀ r, r ≠ pd.toNat → b.pr r = a.pr r) ∧
        (∀ j, j < 8 → (b.pr pd.toNat).getLsbD j = (decide (pd = 0) || (decide (j ∈ on) && (op j).1))) ∧
        (∀ n, n < 32 → (b.cstat.getLsbD n = true ↔ a.cstat.getLsbD n = true ∨ (n < 4 ∧ ∃ j ∈ on, (op j).2.1.getLsbD n = true))) ∧
        b.narc.toNat = min (2 ^ 32 - 1) (a.narc.toNat + (on.map (fun j => (op j).2.2)).sum)

/-- R99, R100: PAND, POR, PXOR and PNOT combine predicates bit by bit, whatever pg holds, and GTOP takes the low byte of a general
register. -/
def Sys2Proof.Claims.PredicateInstructionsCombine : Prop :=
  ∀ (k : Fin 25600) (pd pa pb : BitVec 5) (s : State), s.canRun k = true → pd.toNat < 8 →
    let x := (s.tinker k).pr (pa.toNat % 8)
    let y := (s.tinker k).pr (pb.toNat % 8)
    RunsP (.pand k pd pa pb) k s pd (x &&& y) ∧ RunsP (.por k pd pa pb) k s pd (x ||| y) ∧
      RunsP (.pxor k pd pa pb) k s pd (x ^^^ y) ∧ RunsP (.pnot k pd pa) k s pd (~~~x)

/-- R100: VEXT, PTOG and GTOP move between the register files, whatever pg holds. -/
def Sys2Proof.Claims.MovesBetweenRegisterFiles : Prop :=
  ∀ (k : Fin 25600) (rd ra : BitVec 5) (lane : BitVec 3) (s : State), s.canRun k = true →
    (ra.toNat < 16 → RunsG (.vext k rd ra lane) k s rd ((s.tinker k).vr ra.toNat lane.toNat) 4) ∧
    RunsG (.ptog k rd ra) k s rd (BitVec.ofNat 32 ((s.tinker k).pr (ra.toNat % 8)).toNat) 4 ∧
    RunsP (.gtop k rd ra) k s rd (BitVec.ofNat 8 ((s.tinker k).gr ra.toNat).toNat)

/-- R100: VFRSUM, VFRMAX, VIRSUM and VLRMAX complete: the general register receives the eight lanes combined in the fixed tree, inactive
lanes giving the identity; g0 stays zero and every other register stays; VIRSUM and VLRMAX change no flag and no count, and VFRSUM and
VFRMAX set the flags of their seven operations and change no count. -/
def Obligations.ReductionsCombineInTheFixedTree : Prop :=
  ∀ (k : Fin 25600) (rd va : BitVec 5) (pg : BitVec 3) (s : State), s.canRun k = true → va.toNat < 16 →
    let a := s.tinker k
    let lane (identity : Word) (j : Nat) : Word := if (a.pr pg.toNat).getLsbD j then a.vr va.toNat j else identity
    (∃ t, exec (.vfrsum k rd va pg) s = .next t ∧ OnlyTinker k s t ∧ ReducesFp (fpAdd .ne) (lane 0) rd a (t.tinker k)) ∧
    (∃ t, exec (.vfrmax k rd va pg) s = .next t ∧ OnlyTinker k s t ∧
      ReducesFp (fpMinMax true) (lane 0xFF800000) rd a (t.tinker k)) ∧
    (∃ t, exec (.virsum k rd va pg) s = .next t ∧ OnlyTinker k s t ∧
      WritesG rd (BitVec.ofNat 32 (((List.range 8).map (fun j => (lane 0 j).toNat)).sum)) 4 a (t.tinker k)) ∧
    (∃ t, exec (.vlrmax k rd va pg) s = .next t ∧ OnlyTinker k s t ∧
      WritesG rd (if (List.range 8).any (fun j => lane 0 j == 0x80000000) then 0x80000000 else
        tree (fun x y => if lxKey x < lxKey y then y else x) (lane 0)) 4 a (t.tinker k))

/-! ## Tinkers: encodings -/

/-- R85 to R109: decoding the words of a well-formed Tinker instruction gives that instruction back, every field at every value. -/
def Obligations.DecodingInvertsEncoding : Prop :=
  ∀ (i : Instr) (w : BitVec 32) (w1 : Option (BitVec 32)), wellFormed i = true → encodeTinker i = some (w, w1) →
    ∃ k : Fin 25600, decodeTinker k w (w1.getD 0) = some i ∧ (isLongForm w = true ↔ w1 ≠ none)

/-- R85 to R109: a few words written out from the formats decode to their instructions. -/
def Obligations.WordsFromTheFormatsDecode : Prop :=
  ∀ k : Fin 25600,
    decodeTinker k 0b00000000001000100001100000000000#32 0 = some (.add k 1 2 3) ∧
    decodeTinker k 0x80611203#32 0 = some (.vfma k 3 1 2 2) ∧ decodeTinker k 0x50A80000#32 0 = some (.fai k 5 8) ∧
    decodeTinker k 0xC4893000#32 0 = some (.issue k 4 9 3 false) ∧
    decodeTinker k 0xFC600000#32 0x12345678#32 = some (.li k 3 0x12345678#32)

/-! ## Registers of control space -/

/-- R11 to R13, R109, R417, at one register of each access code: REGISTER_WRITE completes. In RISK_THRESH it stores the RW field and
leaves the RO one, by the bytes it addresses; in HOLE_CNT a full write of 0 clears the SAT counter and another value leaves it; in TK_TRAP0
a set bit clears a W1C bit, unless hardware sets it at the same time, which COINCIDE_CNT counts. Where R417 does not permit the write it
changes nothing but CTL_DENY_CNT. -/
def Obligations.RegisterWritesFollowTheAccessCodes : Prop :=
  ∀ (who : Who) (v hw : BitVec 64) (s : State),
    (let o := Fd.moduleRiskThresh.reg 0 0
     MayWrite s who o →
      (∃ t, exec (.registerWrite who (BitVec.ofNat 28 o) 3 v 0) s = .next t ∧ OnlyRegs [o] s t ∧
        t.reg o = (s.reg o &&& ~~~0xFF0#64) ||| (v &&& 0xFF0#64)) ∧
      (∃ t, exec (.registerWrite who (BitVec.ofNat 28 (o + 1)) 0 v 0) s = .next t ∧ OnlyRegs [o] s t ∧
        t.reg o = (s.reg o &&& ~~~0xF00#64) ||| ((v <<< 8) &&& 0xF00#64))) ∧
    (let o := Fd.moduleHoleCnt.reg 0 0
     MayWrite s who o → ∃ t, exec (.registerWrite who (BitVec.ofNat 28 o) 3 v 0) s = .next t ∧ OnlyRegs [o] s t ∧
      t.fld Fd.moduleHoleCnt = if v.toNat % 2 ^ Fd.moduleHoleCnt.w = 0 then 0 else s.fld Fd.moduleHoleCnt) ∧
    (∀ c : Fin 256, let o := Fd.cellTkTrap0.reg c 0
     MayWrite s who o → ∃ t, exec (.registerWrite who (BitVec.ofNat 28 o) 3 v hw) s = .next t ∧
      OnlyRegs [o, (Fd.coincideCnt .cell).reg c 0] s t ∧ t.reg o = (s.reg o &&& ~~~v) ||| hw ∧
      t.fld (Fd.coincideCnt .cell) c =
        min (2 ^ 32 - 1) (s.fld (Fd.coincideCnt .cell) c + ((List.range 64).filter (fun b => v.getLsbD b && hw.getLsbD b)).length)) ∧
    (let o := Fd.moduleRiskThresh.reg 0 0
     s.ctlPerm who o ≠ .full → ∃ t, exec (.registerWrite who (BitVec.ofNat 28 o) 3 v 0) s = .next t ∧
      OnlyRegs [Fd.ethCtlDenyCnt.reg 0 0] s t ∧ t.fld Fd.ethCtlDenyCnt = min (2 ^ 32 - 1) (s.fld Fd.ethCtlDenyCnt + 1))

/-- R83: TK_RUN_WRITE completes: the RUN bits in the bytes it addresses become the bits written; a halted Tinker without an outstanding
access starts at TK_ENTRY with INTRAP and CAUSE cleared, a stopped one abandons a WAITQ or a waiting ISSUE, and every other Tinker and all
other state of them stays. -/
def Obligations.RunBitsStartAndStopTinkers : Prop :=
  ∀ (who : Who) (c : Fin 256) (hi : Bool) (v : BitVec 64) (be : BitVec 8) (s : State),
    MayWrite s who ((if hi then Fd.cellTkRun1 else Fd.cellTkRun0).reg c 0) →
    ∃ t, exec (.tkRunWrite who c hi v be) s = .next t ∧ t = { s with regs := t.regs, tinkers := t.tinkers } ∧
      ∀ k, k < 25600 →
        let i := k % 100 - (if hi then 64 else 0)
        let named := k / 100 = c.val ∧ (hi = decide (64 ≤ k % 100)) ∧ be.getLsbD (i / 8) = true
        let a := s.tinker k
        let loads := match a.wait with | .access _ => true | _ => false
        (¬ named → t.running k = s.running k ∧ t.tinker k = a) ∧
        (named → t.running k = v.getLsbD i ∧
          t.tinker k = if s.running k = v.getLsbD i then a
            else if v.getLsbD i then (if loads = true ∨ a.stores ≠ [] then a else { a with
              pc := BitVec.ofNat 32 (s.fld Fd.cellTkEntry c) &&& 0xFFFFFFFC#32, cstat := a.cstat &&& 0x0000FFFF#32, fetched := [], wait := .none })
            else if loads = true then a else { a with wait := .none })

/-- R376, R377: a read of DRAW advances OFFSET by one and disarms the stream, or finds it skewed and marks SKEW; a write of SEED or of a
data position arms, one of OFFSET arms and clears SKEW. -/
def Obligations.StreamsDrawArmAndSkew : Prop :=
  ∀ (who : Who) (u : Fin 16) (st : Fin 4) (v : BitVec 64) (s : State), let i := 4 * u.val + st.val
    let cfg := Fd.moduleStreamCfgArmed.reg 0 i
    let off := Fd.moduleStreamOffset.reg 0 i
    let skewed := s.fld Fd.moduleStreamCfgSkew 0 i = 1
    let astray := s.fld Fd.moduleStreamCfgArmed 0 i = 1 ∧
      s.reg off ≠ BitVec.ofNat 64 (s.fld Fd.moduleStreamCfgRate 0 i) * (s.reg (Fd.moduleDataPos.reg 0 u) - s.reg (Fd.moduleStreamBase.reg 0 i))
    (MayWrite s who (Fd.moduleStreamDraw.reg 0 i) →
      (¬ skewed → ¬ astray → ∃ t, exec (.draw who u st) s = .next t ∧ OnlyRegs [cfg, off] s t ∧ t.reg off = s.reg off + 1 ∧
        t.fld Fd.moduleStreamCfgArmed 0 i = 0 ∧ t.fld Fd.moduleStreamCfgSkew 0 i = 0) ∧
      (¬ skewed → astray → ∃ t, exec (.draw who u st) s = .next t ∧ OnlyRegs [cfg] s t ∧ t.fld Fd.moduleStreamCfgSkew 0 i = 1) ∧
      (skewed → exec (.draw who u st) s = .next s)) ∧
    (MayWrite s who (Fd.moduleStreamSeed.reg 0 i) →
      ∃ t, exec (.streamArmWrite who (BitVec.ofNat 28 (Fd.moduleStreamSeed.reg 0 i)) 3 v) s = .next t ∧
        OnlyRegs [cfg, Fd.moduleStreamSeed.reg 0 i] s t ∧ t.reg (Fd.moduleStreamSeed.reg 0 i) = v ∧ t.fld Fd.moduleStreamCfgArmed 0 i = 1) ∧
    (MayWrite s who off → ∃ t, exec (.streamArmWrite who (BitVec.ofNat 28 off) 3 v) s = .next t ∧ OnlyRegs [cfg, off] s t ∧
      t.reg off = v ∧ t.fld Fd.moduleStreamCfgArmed 0 i = 1 ∧ t.fld Fd.moduleStreamCfgSkew 0 i = 0) ∧
    (MayWrite s who (Fd.moduleDataPos.reg 0 u) →
      ∃ t, exec (.streamArmWrite who (BitVec.ofNat 28 (Fd.moduleDataPos.reg 0 u)) 3 v) s = .next t ∧
        t.reg (Fd.moduleDataPos.reg 0 u) = v ∧ ∀ j, j < 4 → t.fld Fd.moduleStreamCfgArmed 0 (4 * u.val + j) = 1)

/-- R382: PARTNER_PAIR completes: it asks the partner with this module's FEED and clears the outcome; PAIR_ANSWER with another FEED, both
not 0, sets PAIRED without CO_FED; PAIR_TIMEOUT sets PAIR_FAIL. -/
def Obligations.PairingAsksAnswersAndTimesOut : Prop :=
  ∀ (who : Who) (u : Fin 16) (p feed : BitVec 16) (s : State),
    (MayWrite s who (Fd.modulePartnerId.reg 0 u) → ∃ t, exec (.partnerPair who u p) s = .next t ∧
      t.fld Fd.modulePartnerId 0 u = p.toNat ∧ t.fld Fd.modulePartnerPaired 0 u = 0 ∧ t.fld Fd.modulePartnerPairFail 0 u = 0 ∧
      t.fld Fd.modulePartnerCoFed 0 u = 0 ∧ u ∈ t.clk.pairing ∧
      Sends s p.toNat (.ctl (.pairAsk u (BitVec.ofNat 16 (s.fld Fd.moduleFeedFeedId)))) t ∧ t.out = s.out) ∧
    (u ∈ s.clk.pairing → let own := s.fld Fd.moduleFeedFeedId
      own ≠ 0 → feed ≠ 0 → own ≠ feed.toNat → ∃ t, exec (.pairAnswer u feed) s = .next t ∧ u ∉ t.clk.pairing ∧
        t.fld Fd.modulePartnerPaired 0 u = 1 ∧ t.fld Fd.modulePartnerPartnerFeed 0 u = feed.toNat ∧ t.fld Fd.modulePartnerCoFed 0 u = 0 ∧
        t.out = s.out) ∧
    (u ∈ s.clk.pairing → ∃ t, exec (.pairTimeout u) s = .next t ∧ u ∉ t.clk.pairing ∧ t.fld Fd.modulePartnerPairFail 0 u = 1 ∧
      OnlyRegs [Fd.modulePartnerPairFail.reg 0 u] { s with clk := t.clk } t)

/-- R50, R412: a doorbell on a queue with room appends its pointer as an ISSUE does; on a full queue it is discarded and counted, on a
fenced cell it is discarded and counted as such. -/
def Obligations.DoorbellsAppendOrCount : Prop :=
  ∀ (who : Who) (c : Fin 256) (q : Fin 16) (v : BitVec 64) (s : State), MayWrite s who (Fd.cellDoorbell.reg c q) →
    let off := v.toNat % 2 ^ 21 / 64 * 64
    (s.fenced c = false → s.queueRoom c q = true → fieldB ((s.storeRead c off 2).1) 0 2 ≠ 0x0F01 →
      ∃ t, exec (.doorbell who c q v) s = .next t ∧ (t.queue c q).map (fun e => e.off) = (s.queue c q).map (fun e => e.off) ++ [off] ∧
        (∀ p, p ≠ q.val → t.queue c p = s.queue c p) ∧ ∀ d, d ≠ c.val → t.cell d = s.cell d) ∧
    (s.fenced c = false → s.queueRoom c q = false → ∃ t, exec (.doorbell who c q v) s = .next t ∧ OnlyRegs [Fd.cellDbDropCnt.reg c 0] s t ∧
      t.fld Fd.cellDbDropCnt c = min (2 ^ Fd.cellDbDropCnt.w - 1) (s.fld Fd.cellDbDropCnt c + 1)) ∧
    (s.fenced c = true → ∃ t, exec (.doorbell who c q v) s = .next t ∧ OnlyRegs [Fd.moduleFenceDropCnt.reg 0 0] s t)

/-- R277, R278: in SERVICE mode a write to MS_GO changes no memory, sets FAULT = MEMSIDE_REFUSED and DONE and counts; in another mode the
five operations run (z is the state with MS_GO's register written back as it is), and MEMSIDE_DONE ends one with its fault and DONE. -/
def Obligations.MemorySideOperationsRunOrAreRefused : Prop :=
  ∀ (who : Who) (m : Fin 12) (imm : Bool) (s : State), MayWrite s who (Fd.stackMsGoKind.reg m 0) →
    (∀ p ∈ [(Instr.msAddInt32 who m imm, 0), (Instr.msAddInt64 who m imm, 1), (Instr.msAddFp32 who m imm, 2), (Instr.msAddL16 who m imm, 3),
        (Instr.msFill who m imm, 4)],
      (s.fld Fd.stackMode m = 0 → ∃ t, exec p.1 s = .next t ∧
        OnlyRegs [Fd.stackMsStatusFault.reg m 0, Fd.stackMsRefusedCnt.reg m 0] s t ∧ t.fld Fd.stackMsStatusFault m = 0x2006 ∧
        t.fld Fd.stackMsStatusDone m = 1 ∧ t.fld Fd.stackMsRefusedCnt m = min (2 ^ 32 - 1) (s.fld Fd.stackMsRefusedCnt m + 1)) ∧
      (s.fld Fd.stackMode m ≠ 0 → s.fld Fd.stackMsStatusBusy m = 0 → s.fld Fd.stackMsCount m ≠ 0 → ∃ t, exec p.1 s = .next t ∧
        t.fld Fd.stackMsStatusBusy m = 1 ∧
        let v := if p.2 = 1 then s.fld Fd.stackMsSrc m else s.fld Fd.stackMsSrc m % 2 ^ 32
        let z := s.setReg (Fd.stackMsGoKind.reg m 0) (s.reg (Fd.stackMsGoKind.reg m 0))
        let r := z.msRun ⟨who, none, none, none, none⟩ m p.2 (if imm then some v else none) (s.fld Fd.stackMsDst m) (s.fld Fd.stackMsSrc m)
          (s.fld Fd.stackMsCount m) 0
        t.bulk = r.2.bulk ∧ t.stk.ms = r.2.stk.ms ++ [⟨m, r.1⟩])) ∧
    ∀ op : MsOp, s.stk.ms.find? (fun o => decide (o.stack = m.val)) = some op → ∃ t, exec (.memsideDone m) s = .next t ∧
      t.fld Fd.stackMsStatusDone m = 1 ∧ t.fld Fd.stackMsStatusBusy m = 0 ∧ t.fld Fd.stackMsStatusFault m = op.fault.toNat ∧
      t.bulk = s.bulk ∧ ∀ o ∈ t.stk.ms, o.stack ≠ m.val

/-! ## Resets -/

/-- R431 to R433: what a full reset leaves. -/
def Sys2Proof.Claims.FullResetLeavesTheResetState : Prop :=
  ∀ (source : Nat) (s : State), source < 7 → FullReset source s (s.fullReset source)

/-- R431, R434, R435, R426, R466, R468: the sources that reset the module: power-on, a low level of 10 µs or more on MOD_RESET_N, the
watchdog, a sensor at its trip limit, an armed GO within 2^20 Clerk cycles, the owner's RESET, and an input that recovers. -/
def Sys2Proof.Claims.EverySourceResetsTheModule : Prop :=
  ∀ s : State,
    (s.clk.phase = .off → s.clk.inputSwitch = true → ∃ t, exec .powerOn s = .next t ∧ FullReset 0 s t ∧ t.clk.phase = .loading) ∧
    (∀ ns, s.powered = true → s.clk.phase ≠ .pinLow → 10000 ≤ ns →
      ∃ t, exec (.modResetNLow ns) s = .next t ∧ FullReset 1 s t ∧ t.clk.phase = .pinLow) ∧
    (∀ ns, ns < 1000 → exec (.modResetNLow ns) s = .next s) ∧
    (s.clk.phase = .pinLow → ∃ t, exec .modResetNRise s = .next t ∧ t = { s with clk := { s.clk with phase := .loading } }) ∧
    (∀ core : Fin 4, s.clerkRuns = true → ∃ t, exec (.watchdog core) s = .next t ∧ FullReset 2 s t ∧ t.clk.phase = .loading) ∧
    (∀ (i : Fin 39) (temp : BitVec 12), s.clerkRuns = true → s.fld Fd.moduleTempTrip 0 i ≤ temp.toNat →
      ∃ t, exec (.thermalTrip i temp) s = .next t ∧ t.bitOf Fd.resetCause 0 0 3 = true ∧ t.fld Fd.moduleTempCur 0 i = temp.toNat ∧
        t.tinkers = [] ∧ t.cells = [] ∧ t.bulk = [] ∧ t.stores = []) ∧
    (s.clk.phase = .holdup → s.clk.inputSwitch = true → ∃ t, exec (.holdupSequenceEnd true) s = .next t ∧ FullReset 0 s t) ∧
    (s.clk.phase = .holdup → ∃ t, exec (.holdupSequenceEnd false) s = .next t ∧ t = { s with clk := { s.clk with phase := .off } }) ∧
    (∀ (b : Bool), s.powered = true → ∃ t, exec (.powerLoss b) s = .next t ∧ FullReset 0 s t ∧ t.clk.phase = .holdup ∧
      t.clk.inputSwitch = (s.clk.inputSwitch && !b)) ∧
    (∃ t, exec .presentMate s = .next t ∧ t = { s with clk := { s.clk with inputSwitch := true } }) ∧
    (∀ (who : Who) (at_ : Nat), MayWrite s who (Fd.moduleSwResetArm.reg 0 0) →
      (∃ t, exec (.swResetArm who) s = .next t ∧ t.clk.armed = some (s.fld (Fd.cycles .clerk)) ∧ ∀ o, t.reg o = s.reg o) ∧
      (s.clk.armed = some at_ → (s.fld (Fd.cycles .clerk) + 2 ^ 64 - at_) % 2 ^ 64 ≤ 2 ^ 20 →
        ∃ t, exec (.swResetGo who) s = .next t ∧ FullReset 4 s t ∧ t.clk.phase = .loading) ∧
      (s.clk.armed = some at_ → 2 ^ 20 < (s.fld (Fd.cycles .clerk) + 2 ^ 64 - at_) % 2 ^ 64 →
        ∃ t, exec (.swResetGo who) s = .next t ∧ t.clk.armed = none ∧ t.cells = s.cells ∧ ∀ o, t.reg o = s.reg o)) ∧
    (∀ c : OwnerCmd, s.clk.accepted = some c → c.op = 4 → ∃ t, exec .reset s = .next t ∧ t.bitOf Fd.resetCause 0 0 (if c.src.relayed then 6 else 5) = true ∧
      t.tinkers = [] ∧ t.cells = [] ∧ t.bulk = [] ∧ t.stores = [] ∧
      ∀ p ip udp, c.src = .eth p ip udp → t.out.length = s.out.length + 1)

/-- R436, R437, R438: a set RESET bit of a cell or of a Scecy port holds it in reset: the cell's memories keep their contents, its commands and running
Tinkers are gone, the port is DOWN with nothing on it; leaving reset clears IN_RESET. -/
def Sys2Proof.Claims.UnitResetHoldsAndReleases : Prop :=
  ∀ (who : Who) (s : State),
    (∀ c : Fin 256, MayWrite s who ((Fd.swrstReset .cell).reg c 0) →
      ∃ t, exec (.swrst who (BitVec.ofNat 28 ((Fd.swrstReset .cell).reg c 0)) 1) s = .next t ∧ t.inReset .cell c = true ∧
        t.stores = s.stores ∧ t.locals = s.locals ∧ (t.cell c).cmds = [] ∧ ∀ k, k < 25600 → k / 100 = c.val → t.running k = false) ∧
    (∀ p : Fin 24, MayWrite s who ((Fd.swrstReset .scecy).reg p 0) →
      ∃ t, exec (.swrst who (BitVec.ofNat 28 ((Fd.swrstReset .scecy).reg p 0)) 1) s = .next t ∧ t.inReset .scecy p = true ∧
        t.fld Fd.scecyStateLink p = 0 ∧ t.port p = PortSt.init) ∧
    (∀ c : Fin 256, s.inReset .cell c = true → ∃ t, exec (.unitResetExit (.cell c)) s = .next t ∧ t.inReset .cell c = false ∧
      OnlyRegs [(Fd.swrstInReset .cell).reg c 0] s t) ∧
    (∀ p : Fin 24, s.inReset .scecy p = true → ∃ t, exec (.unitResetExit (.scecy p)) s = .next t ∧ t.inReset .scecy p = false ∧
      t.fld Fd.scecyStateLink p = if s.fld Fd.scecyCtrlEnable p = 1 then 1 else 3)

/-- R439: a memory-mode request puts the named stacks into RECOVERY or SERVICE, leaves the others, and sets DONE. -/
def Sys2Proof.Claims.MemoryModeRequestsSetTheNamedStacks : Prop :=
  ∀ (who : Who) (mask : BitVec 12) (rec_ : Bool) (s : State), MayWrite s who (Fd.moduleMemReqStacks.reg 0 0) →
    ∃ t, exec (.memReq who mask rec_) s = .next t ∧ t.fld Fd.moduleMemReqDone = 1 ∧
      (∀ m, m < 12 → t.fld Fd.stackMode m = if mask.getLsbD m then (if rec_ then 3 else 0) else s.fld Fd.stackMode m) ∧
      t = { s with regs := t.regs }

/-- R328, R329: a port that is not enabled is DISABLED with its traffic dropped; enabling one that is DOWN or DISABLED trains it; a trained
port is UP with its partner's names; a port that goes down drops its traffic. -/
def Obligations.ScecyPortsTrainAndGoDown : Prop :=
  ∀ (who : Who) (p : Fin 24) (v : BitVec 64) (pm : BitVec 16) (pp : BitVec 5) (s : State),
    (MayWrite s who (Fd.scecyCtrlEnable.reg p 0) → ∃ t, exec (.portEnable who p v) s = .next t ∧
      t.fld Fd.scecyCtrlEnable p = (v.toNat / 2 ^ Fd.scecyCtrlEnable.lo) % 2 ∧
      ((v.toNat / 2 ^ Fd.scecyCtrlEnable.lo) % 2 = 0 → t.fld Fd.scecyStateLink p = 3 ∧ (s.fld Fd.scecyStateLink p ≠ 3 → t.port p = PortSt.init)) ∧
      ((v.toNat / 2 ^ Fd.scecyCtrlEnable.lo) % 2 = 1 → (s.fld Fd.scecyStateLink p = 0 ∨ s.fld Fd.scecyStateLink p = 3) →
        t.fld Fd.scecyStateLink p = 1 ∧ t.port p = PortSt.init)) ∧
    (s.fld Fd.scecyStateLink p = 1 → (s.port p).retraining = false → s.inReset .scecy p = false →
      ∃ t, exec (.portTrained p pm pp) s = .next t ∧ t.fld Fd.scecyStateLink p = 2 ∧ t.fld Fd.scecyStatePartnerMod p = pm.toNat ∧
        t.fld Fd.scecyStatePartnerPort p = pp.toNat) ∧
    ((s.fld Fd.scecyStateLink p = 1 ∨ s.fld Fd.scecyStateLink p = 2) → ∃ t, exec (.portDown p) s = .next t ∧ t.fld Fd.scecyStateLink p = 0 ∧
      t.port p = PortSt.init) ∧
    ((s.port p).due = true → s.healthy p = true → ∃ t, exec (.portRetrain p) s = .next t ∧ t.fld Fd.scecyStateLink p = 1 ∧
      (t.port p).retraining = true ∧ (t.port p).due = false ∧ t.fld Fd.scecyRetrainCnt p = min (2 ^ 32 - 1) (s.fld Fd.scecyRetrainCnt p + 1)) ∧
    ((s.port p).retraining = true →
      (∃ t, exec (.retrainDone p true) s = .next t ∧ t.fld Fd.scecyStateLink p = 2 ∧ (t.port p).retraining = false) ∧
      (max 1 (s.fld Fd.scecyCtrlRetrainLimit p) ≤ (s.port p).fails + 1 →
        ∃ t, exec (.retrainDone p false) s = .next t ∧ t.fld Fd.scecyStateLink p = 0 ∧ t.port p = PortSt.init) ∧
      ((s.port p).fails + 1 < max 1 (s.fld Fd.scecyCtrlRetrainLimit p) →
        ∃ t, exec (.retrainDone p false) s = .next t ∧ (t.port p).fails = (s.port p).fails + 1 ∧ (t.port p).retraining = true))

/-! ## Stream queues -/

/-- R115, R116: where a condition of the head fails, COMMAND_START changes nothing; else it completes in the state that starting the head
gives. Where the head is a readable MOVE without CHAIN, TXN and work done ahead, it becomes the last started command, with the next number;
it leaves its queue, its record's 32 bytes are zero, and every other byte of the cell stores stays. -/
def Sys2Proof.Claims.CommandsStartFromTheHead : Prop :=
  ∀ (c : Fin 256) (q : Fin 16) (e : QEnt) (rest : List QEnt) (s : State), s.cellDead c = false → s.queue c q = e :: rest →
    e.cancelled = false →
    let h := s.headCmd c q e
    let may := s.unfenced c q h.1.fence e = true ∧ (h.1.tallyIn = 0 ∨ e.tallyTaken = true) ∧ s.accepts c h.1 = true
    h.1.opcode ≠ 0x0F01 →
    (¬ may → exec (.commandStart c q) s = .next s) ∧
    (may → exec (.commandStart c q) s = .next (h.2.2.startCmd c q e rest h.1 h.2.1)) ∧
    (may → s.sramErr = [] → h.2.1 = false → h.1.txn = false → e.early = none → h.1.chain = false → h.1.opcode = 0x0101 →
      ∃ t, exec (.commandStart c q) s = .next t ∧ t.queue c q = rest ∧ (t.cell c).cmds = (s.cell c).cmds ++ [h.1] ∧
        h.1.num = (s.cell c).nextNum ∧ (t.cell c).nextNum = (s.cell c).nextNum + 1 ∧
        (∀ j, j < 32 → Mem.get t.stores (c.val * 2 ^ 21 + (h.1.recordOff + j) % 2 ^ 21) = 0) ∧
        ∀ x, (∀ j, j < 32 → x ≠ c.val * 2 ^ 21 + (h.1.recordOff + j) % 2 ^ 21) → Mem.get t.stores x = Mem.get s.stores x)

/-- R113: BAD_OPCODE completes: a head whose opcode is not assigned leaves its queue and is a finished command at once, with code OK for
its record, and BADOP_CNT counts. -/
def Sys2Proof.Claims.UnassignedOpcodesCompleteAtOnce : Prop :=
  ∀ (c : Fin 256) (q : Fin 16) (e : QEnt) (rest : List QEnt) (s : State), s.cellDead c = false → s.sramErr = [] → s.queue c q = e :: rest →
    e.cancelled = false → e.desc = none → e.early = none →
    let h := s.headCmd c q e
    h.1.opcode ∉ assignedOpcodes → h.1.opcode ≠ 0x0F01 → h.1.chain = false → h.1.tallyIn = 0 →
    s.unfenced c q h.1.fence e = true → s.accepts c h.1 = true →
    ∃ t, exec (.badOpcode c q) s = .next t ∧ t.queue c q = rest ∧
      (∃ k ∈ (t.cell c).cmds, k.num = (s.cell c).nextNum ∧ k.finished = true ∧ k.code = 0) ∧
      t.fld Fd.cellBadopCnt c = min (2 ^ 32 - 1) (s.fld Fd.cellBadopCnt c + 1)

/-- R122: a local tally that is not zero is decremented and the head may start; at zero nothing happens. A shared one is consumed at its
slice, where a waiting request takes 1 from the word. -/
def Obligations.TalliesAreConsumed : Prop :=
  ∀ (c : Fin 256) (q : Fin 16) (e : QEnt) (rest : List QEnt) (s : State), s.cellDead c = false → s.queue c q = e :: rest →
    e.cancelled = false → e.tallyTaken = false →
    let k := (s.headCmd c q e).1
    k.opcode ≠ 0x0F01 → k.tallyIn ≠ 0 →
    (k.tallyIn < 256 →
      (s.fld Fd.cellTally c k.tallyIn = 0 → exec (.tallyConsume c q) s = .next s) ∧
      (s.fld Fd.cellTally c k.tallyIn ≠ 0 → ∃ t, exec (.tallyConsume c q) s = .next t ∧
        t.fld Fd.cellTally c k.tallyIn = s.fld Fd.cellTally c k.tallyIn - 1 ∧ t.queue c q = { e with tallyTaken := true } :: rest ∧
        (∀ o, o ≠ Fd.cellTally.reg c k.tallyIn → t.reg o = s.reg o) ∧ (t.cell c).cmds = (s.cell c).cmds)) ∧
    (256 ≤ k.tallyIn → s.slices = [] → s.sramErr = [] → s.ownsSlice (s.cellWho c) (sliceOf (s.tallyOff c k.tallyIn)) = true →
      ∀ sl : Fin 64, sl.val = sliceOf (s.tallyOff c k.tallyIn) →
      let o := s.tallyOff c k.tallyIn
      let word (z : State) : Nat := ((List.range 4).map (fun i => (Mem.get z.scache (o + i)).toNat * 256 ^ i)).sum
      ∃ t, exec (.tallyConsume c q) s = .next t ∧ t.queue c q = e :: rest ∧ t.slices ≠ [] ∧
        (word s = 0 → exec (.sharedCacheSliceOp sl) t = .next t) ∧
        (word s ≠ 0 → ∃ u, exec (.sharedCacheSliceOp sl) t = .next u ∧ u.slices = [] ∧ word u = word s - 1 ∧
          u.queue c q = { e with tallyTaken := true } :: rest))

/-- A command of cell c has completed in t: its 32-byte record stands in the cell store, its stall cycles a free value (log entry 25), SQ_DONE
of its queue has risen by one modulo 2^32, its tally-out has risen, and it is gone. -/
def Sys2Proof.Claims.Completed (c : Fin 256) (n : Nat) (k : Cmd) (s t : State) : Prop :=
  t.cmd c n = none ∧ t.fld Fd.cellSqDone c k.q = (s.fld Fd.cellSqDone c k.q + 1) % 2 ^ 32 ∧
    (k.tallyOut < 256 → (∃ v, (List.range 32).map (fun j => Mem.get t.stores (c.val * 2 ^ 21 + (k.recordOff + j) % 2 ^ 21)) =
        (k.stalled v).record) ∧
      ∀ x, (∀ j, j < 32 → x ≠ c.val * 2 ^ 21 + (k.recordOff + j) % 2 ^ 21) → Mem.get t.stores x = Mem.get s.stores x) ∧
    (k.tallyOut ≠ 0 → k.tallyOut < 256 → t.fld Fd.cellTally c k.tallyOut = (s.fld Fd.cellTally c k.tallyOut + 1) % 2 ^ 32) ∧
    ∀ d, d ≠ c.val → t.cell d = s.cell d

/-- R117, R118, R119: a finished command whose turn has come and that names no history record completes: its 32-byte record stands in the
cell store, its stall cycles a free value (log entry 25), SQ_DONE of its queue rises by one modulo 2^32, its tally-out rises, and it is
gone; CANCEL completes the same way. -/
def Obligations.CommandsCompleteWithTheirRecord : Prop :=
  ∀ (c : Fin 256) (n : Nat) (k : Cmd) (s : State), s.cellDead c = false → s.sramErr = [] → s.cmd c n = some k →
    s.mayComplete c k = true → k.histOff = none → k.txn = false → k.q < 16 →
    (∃ t, exec (.commandComplete c n) s = .next t ∧ Completed c n k s t) ∧
    (k.opcode = 0x0F01 → ∃ t, exec (.cancel c n) s = .next t ∧ Completed c n k s t)

/-- R139: FENCE has finished once every command appended before it to the queues it names has written its record, and waits until then. -/
def Obligations.FenceWaitsForEarlierCommands : Prop :=
  ∀ (c : Fin 256) (n : Nat) (k : Cmd) (s : State), s.cellDead c = false → s.cmd c n = some k → k.opcode = 0x0F02 → k.finished = false →
    k.num = n →
    let m := k.u 16 2
    let clear := (∀ y ∈ (s.cell c).cmds, m.testBit y.q = true → k.root < y.root ∨ (k.root = y.root ∧ n ≤ y.num)) ∧
      ∀ l ∈ (s.cell c).queues, m.testBit l.1 = true → ∀ e ∈ l.2, k.root ≤ e.root
    ∃ t, exec (.fence c n) s = .next t ∧ t.stores = s.stores ∧ t.bulk = s.bulk ∧ t.scache = s.scache ∧
      (clear → t.cmd c n = some { k with finished := true, kdone := true }) ∧ (¬ clear → t.cmd c n = some k)

/-! ## Engines of a cell -/

/-- R132, R134: MOVE completes in the state that the steps of its rows and its end give; CARTER_TRANSFER in the one that issuing its next
row gives, where the MOVE is the cell's one command and can issue it; TRANSFER_LANDED in the one that landing the row gives. -/
def Sys2Proof.Claims.MoveTakesItsRows : Prop :=
  ∀ (c : Fin 256) (n : Nat) (k : Cmd) (s : State), s.cellDead c = false → s.cmd c n = some k → k.opcode = 0x0101 → k.finished = false →
    exec (.move c n) s = .next ((State.steps (State.moveStep c n) (3 * k.u 36 4 + 3) s).work c n [0x0101] W.moveEnd) ∧
    (∀ q : Fin 16, q.val = k.chanq → (s.cell c).cmds = [k] → s.moveReady c k = true →
      exec (.carterTransfer c q) s = .next (W.mk s c k .go).moveIssue.keep) ∧
    (∀ (j : Nat) (x : Xfer), (s.cell c).xfers[j]? = some x → x.num = n → s.xferAway c n x.unit = false →
      exec (.transferLanded c j) s = .next ((W.mk s c k .go).moveLand x).moveEnd.keep)

/-- R132, R134, R144: a MOVE of one row inside its cell's store, at its start, the cell's one command. CARTER_TRANSFER reads the row into
an outstanding transfer and changes no byte; TRANSFER_LANDED then writes it; MOVE does both. After that the row's bytes stand at the
destination, every other byte of every memory stays, and the command has finished with the row's length in BYTES. -/
def Sys2Proof.Claims.MoveCopiesARow : Prop :=
  ∀ (c : Fin 256) (q : Fin 16) (n a b : Nat) (u : Fin 16) (k : Cmd) (s : State), Working s c n k 0x0101 → s.sramErr = [] →
    k.tenant = some u → s.cellTenant c = some u → k.txn = false → k.fault = none → k.cancelled = false → k.issued = 0 → k.bytes = 0 →
    (s.cell c).cmds = [k] → (s.cell c).xfers = [] → s.fab.outstanding = [] → q.val = k.chanq → s.depthRoom c k.chanq = true → k.u 36 4 = 1 →
    k.module 16 = s.moduleId → k.module 24 = s.moduleId → k.addr 16 = storeBase + c.val * 2 ^ 21 + a → k.addr 24 = storeBase + c.val * 2 ^ 21 + b →
    0 < k.u 32 4 → a + k.u 32 4 ≤ 2 ^ 21 → b + k.u 32 4 ≤ 2 ^ 21 →
    let copied (t : State) := (∃ y, t.cmd c n = some y ∧ y.finished = true ∧ y.fault = none ∧ y.bytes = k.u 32 4) ∧
      t.bulk = s.bulk ∧ t.scache = s.scache ∧ t.locals = s.locals ∧
      ∀ x, Mem.get t.stores x = if c.val * 2 ^ 21 + b ≤ x ∧ x < c.val * 2 ^ 21 + b + k.u 32 4 then
        Mem.get s.stores (x + a - b) else Mem.get s.stores x
    (∃ t, exec (.move c n) s = .next t ∧ copied t) ∧
    ∃ t, exec (.carterTransfer c q) s = .next t ∧ t.stores = s.stores ∧ t.bulk = s.bulk ∧ t.scache = s.scache ∧ t.locals = s.locals ∧
      (t.cell c).xfers = [⟨n, k.chanq, [(k.addr 24, (List.range (k.u 32 4)).map (fun i => Mem.get s.stores (c.val * 2 ^ 21 + a + i)))], 0, none⟩] ∧
      ∃ z, exec (.transferLanded c 0) t = .next z ∧ copied z

/-- R55, R125 to R131, R210: a GEMM and a GEMM_DW complete in the state that the steps of their chain and its end give, each step the first
that can go on. -/
def Sys2Proof.Claims.ChainsRun : Prop :=
  ∀ (c : Fin 256) (n : Nat) (k : Cmd) (s : State),
    (Working s c n k 0x0201 →
      exec (.gemm c n) s = .next (((State.steps (State.chainStep c n) k.chainFuel s).work c n [0x0201] W.millEnd).endAdds c)) ∧
    (Working s c n k 0x0202 →
      exec (.gemmDw c n) s = .next (((State.steps (State.chainStep c n) k.chainFuel s).work c n [0x0202] W.millEnd).endAdds c))

/-- R55, R126, R130, R212, R247, R249: each event of a GEMM's or GEMM_DW's chain completes where its condition holds. STAGE_HANDOVER passes
one tally or returns one credit. TILE_START opens the next bank, empty, for the next tile. TILE_KSTEPS_DONE, where no k-step is left to read,
closes its bank. BANK_DRAIN_ROW, TILL_SLOT_DRAIN, COMPRESS_STAGE_TILE and COOPER_PLACE_DECODE complete in the state that one row, one slot
drain, one output tile and one place give; BANK_FREE leaves its bank free. -/
def Sys2Proof.Claims.ChainEventsTakeOneStep : Prop :=
  ∀ (c : Fin 256) (n : Nat) (k : Cmd) (s : State) (op : Nat), Working s c n k op → (op = 0x0201 ∨ op = 0x0202) →
    (∀ (h : Handover) (credit : Bool), ∃ t, exec (.stageHandover c n h credit) s = .next t ∧
      t.cmd c n = some (k.onHand h (if credit then HandSt.giveBack else HandSt.pass)) ∧ t.stores = s.stores) ∧
    (k.maps.isSome = true → s.tileReady c k = true → k.kdone = false → let b := (s.cell c).nextBank % 2
      ∃ t x, exec (.tileStart c n) s = .next t ∧ t.bank c b = some x ∧ x.num = n ∧ x.ord = k.pos ∧ x.closed = false ∧ x.rows = 0 ∧ x.acc = [] ∧
        (t.cell c).nextBank = (b + 1) % 2 ∧ (∃ y, t.cmd c n = some y ∧ y.pos = k.pos + 1) ∧ t.stores = s.stores) ∧
    (∀ (b : Fin 2) (x : Bank), s.bank c b = some x → x.num = n →
      (s.openBank c n = some (b.val, x) → s.stepsReady c k = false → s.closeReady c k = true →
        ∃ t, exec (.tileKstepsDone c b) s = .next t ∧ t.bank c b = some { x with closed := true } ∧ t.stores = s.stores) ∧
      (s.drainReady c b = true → exec (.bankDrainRow c b) s = .next (s.millStep c n (fun w => w.drainRow b)).1) ∧
      (s.freeReady c b = true → (s.cell c).cmds = [k] → k.tiles = none → ∃ t, exec (.bankFree c b) s = .next t ∧ t.bank c b = none ∧
        t = ((W.mk s c k .go).bankFree b).millEnd.keep) ∧
      (s.slotReady c b = true → exec (.tillSlotDrain c b) s = .next (s.millStep c n (fun w => w.slotDrain b)).1)) ∧
    (k.compressReady = true → exec (.compressStageTile c n) s = .next (s.millStep c n W.compressTile).1) ∧
    ((s.cell c).cmds = [k] → s.placeAReady c k = true →
      exec (.cooperPlaceDecode c 0) s = .next (s.millStep c n W.placeA).1) ∧
    ((s.cell c).cmds = [k] → s.placeBReady c k = true →
      exec (.cooperPlaceDecode c 1) s = .next (s.millStep c n W.placeB).1)

/-- R55, R125 to R131, R210, R212, R247, R249: GEMM and GEMM_DW complete in the state that the steps of their chain and its end give, and each
single event of the chain completes where its condition holds. -/
def Obligations.ChainsTakeTheirSteps : Prop := ChainsRun ∧ ChainEventsTakeOneStep

/-- R204, R205: where a half of the Turner is ready, of the cell's one command, TURNER_SQUARE completes; where it can read the operand, the
half holds one more square, of the unit and the k-steps that come next. -/
def Obligations.TurnersSquareTheirUnit : Prop :=
  ∀ (c : Fin 256) (port : Fin 2) (k : Cmd) (s : State) (op : Nat), Working s c k.num k op → (op = 0x0201 ∨ op = 0x0202) →
    (s.cell c).cmds = [k] → s.squareReady c port k = true → k.kdone = false →
    let x := s.turnerOf c port k.num
    let g := k.geo
    exec (.turnerSquare c port) s = .next (s.millStep c k.num (W.readSquare port)).1 ∧
    (((W.mk s c k .go).readSquare port).halt = .go → ∃ t, exec (.turnerSquare c port) s = .next t ∧
      ∃ u q, k.turnUnit g port x.unit = some u ∧ (t.turnerOf c port k.num).bufs = x.bufs ++ [q] ∧ q.unit = x.unit ∧
        q.lo = u.2.2.2.1 + x.next ∧ q.hi = min u.2.2.2.2 (q.lo + squareSteps (if port = 0 then g.fa else g.fb)))

/-- R65: the leader of a die-row multicast takes one more credit of a member that has returned one. -/
def Sys2Proof.Claims.MulticastMembersGiveCredits : Prop :=
  ∀ (c m : Fin 256) (k : Cmd) (s : State), s.cellDead c = false → (s.cell c).cmds = [k] → (k.opcode = 0x0201 ∨ k.opcode = 0x0202) →
    k.finished = false → 1 < (k.members c).length → m.val ∈ k.members c →
    let have_ := max k.issued (Tab.get (fun _ => 0) k.mcCredit m.val)
    (have_ < s.memberCredit m (k.u 36 2) → ∃ t, exec (.mcastMemberCredit c m) s = .next t ∧ t = { s with cells := t.cells } ∧
      ∃ y, (t.cell c).cmds = [y] ∧ Tab.get (fun _ => 0) y.mcCredit m.val = have_ + 1 ∧ y = { k with mcCredit := y.mcCredit }) ∧
    (s.memberCredit m (k.u 36 2) ≤ have_ → exec (.mcastMemberCredit c m) s = .next s)

/-- R136, R137: SUCCESSOR_PROLOGUE completes: a GEMM's successor at the head of its queue may fetch ahead once its predecessor has fetched
everything; the head keeps what the prologue fetched, and the cell's started commands are those that the prologue leaves. -/
def Sys2Proof.Claims.SuccessorsFetchAhead : Prop :=
  ∀ (c : Fin 256) (n : Nat) (k : Cmd) (e : QEnt) (es : List QEnt) (s : State), s.cellDead c = false → s.cmd c n = some k →
    s.queue c k.q = e :: es → e.pred = some n → e.cancelled = false → k.pastFetch = true → isMill k.opcode = true →
    let h := s.headCmd c k.q e
    let y := h.1.resume e.early
    h.2.1 = false → (y.opcode = 0x0201 ∨ y.opcode = 0x0202) → y.fence = false → y.tallyIn = 0 → y.finished = false →
    let w := (W.mk h.2.2 c y .go).prologue (y.ring + 3)
    ∃ t, exec (.successorPrologue c n) s = .next t ∧
      t.queue c k.q = { e with early := some { w.k with kdone := false, hand := w.k.settle.hand } } :: es ∧ (t.cell c).cmds = (w.s.cell c).cmds

/-! ## The Till -/

/-- R213, R216, R219: TILL_ADD_DONE completes: the add at the head, once added, is gone; its slot, which nothing else holds, is free and
empty, and TILL_ADD_CNT counts. TILL_PAGE_ADD completes in the state that the engine's next add gives. -/
def Sys2Proof.Claims.TillAddsEnd : Prop :=
  ∀ (c : Fin 256) (s : State),
    (∀ (a : TillAdd) (as : List TillAdd), s.cellDead c = false → (s.cell c).tillAdds = a :: as → a.added = true → a.slot < 8 →
      a.slot ∉ (s.cell c).tillHeld → (∀ y ∈ as, y.slot ≠ a.slot) →
      ∃ t, exec (.tillAddDone c) s = .next t ∧ (t.cell c).tillAdds = as ∧ t.fld Fd.cellTillSlotBusy c a.slot = 0 ∧
        t.fld Fd.cellTillSlotValid c a.slot = 0 ∧ (∀ e ∈ (t.cell c).till, e.1 / 16384 ≠ a.slot) ∧
        t.fld Fd.cellTillAddCnt c = min (2 ^ Fd.cellTillAddCnt.w - 1) (s.fld Fd.cellTillAddCnt c + 1)) ∧
    exec (.tillPageAdd c) s = .next (s.pageStep c).1

/-- R218, R219: the modes of a TILL_FLUSH that no earlier command of the Till engine holds up complete. TILL_ADD_SLOTS queues and runs the
adds of the slots it names. TILL_CLEAR_SLOTS leaves the slots it names empty, and has finished. TILL_CLEAR_TILES, TILL_READ and TILL_MERGE do
their tiles in order; of one tile, each does it with all of its effect on memory, and has finished. A MODE of 5 or more completes at once. -/
def Sys2Proof.Claims.TillModesRun : Prop :=
  ∀ (c : Fin 256) (n : Nat) (k : Cmd) (s : State), Working s c n k 0x0203 →
    (5 ≤ k.u 16 1 % 8 → ∃ t, exec (.tillRead c n) s = .next t ∧ t.cmd c n = some { k with finished := true, kdone := true } ∧ t.stores = s.stores ∧
      t.bulk = s.bulk) ∧
    (s.tillBefore c n = false →
      (k.u 16 1 % 8 = 0 → exec (.tillAddSlots c n) s = .next (((s.runCmd c n 0x0203 1 W.addSlots).runAdds c).endAdds c)) ∧
      (k.u 16 1 % 8 = 1 → ∃ t, exec (.tillClearSlots c n) s = .next t ∧ t.cmd c n = some { k with finished := true, kdone := true } ∧
        (∀ j, j < 8 → k.slotsNamed j = true → t.fld Fd.cellTillSlotValid c j = 0 ∧ ∀ e ∈ (t.cell c).till, e.1 / 16384 ≠ j) ∧
        t.stores = s.stores ∧ t.bulk = s.bulk) ∧
      (k.u 20 4 ≠ 0 →
        (k.u 16 1 % 8 = 2 → exec (.tillClearTiles c n) s = .next (s.runCmd c n 0x0203 (k.u 20 4 + 1) (W.rowStep (k.u 20 4) (fun w =>
          if w.s.tileClaimed w.c (w.k.addr 32) (w.k.u 24 4 + w.k.pos) then { w with halt := .wait }
          else w.writeTile (w.k.addr 32) (w.k.u 24 4 + w.k.pos) (-128) (List.replicate 16384 0))))) ∧
        (k.u 16 1 % 8 = 3 → exec (.tillRead c n) s = .next (s.runCmd c n 0x0203 (k.u 20 4 + 1) (W.rowStep (k.u 20 4) W.readOut))) ∧
        (k.u 16 1 % 8 = 4 → exec (.tillMerge c n) s = .next (s.runCmd c n 0x0203 (k.u 20 4 + 1) (W.rowStep (k.u 20 4) W.mergeTile)))) ∧
      (k.u 20 4 = 1 → k.pos = 0 → k.cancelled = false →
        (k.u 16 1 % 8 = 2 → s.tileClaimed c (k.addr 32) (k.u 24 4) = false →
          DoesItsRow (.tillClearTiles c n) s c n k (fun w => w.writeTile (k.addr 32) (k.u 24 4) (-128) (List.replicate 16384 0))) ∧
        (k.u 16 1 % 8 = 3 → DoesItsRow (.tillRead c n) s c n k W.readOut) ∧
        (k.u 16 1 % 8 = 4 → DoesItsRow (.tillMerge c n) s c n k W.mergeTile)))

/-- R213, R216, R218, R219: the Till's adds and the modes of TILL_FLUSH complete. -/
def Obligations.TillCommandsDoTheirModes : Prop := TillAddsEnd ∧ TillModesRun

/-! ## Attention, activations, statistics -/

/-- R187, R188, R190, R196, R201: ATTN_FWD, ATTN_BWD and ATTN_DECODE, started and with their checks done, complete in the state that the events
of their rows and tiles give. KEY_TILE_DRAIN, where a row tile has a key tile left, completes in the state that this key tile gives;
ATTN_ROW_FINISH, where a row tile is in drain, in the one that its next row gives, and of an ATTN_BWD whose row tile has read its key tiles, in
the one that adding its query gradient, and the next row in drain if there is one, gives. -/
def Obligations.AttentionTakesItsSteps : Prop :=
  ∀ (c : Fin 256) (n : Nat) (k : Cmd) (s : State), k.issued = 1 →
    (Working s c n k 0x0301 → exec (.attnFwd c n) s = .next (State.steps (fun z => z.attnEvent c n) k.attnFuel s)) ∧
    (Working s c n k 0x0302 → exec (.attnBwd c n) s = .next (State.steps (fun z => z.attnEvent c n) k.attnFuel s)) ∧
    (Working s c n k 0x0303 → exec (.attnDecode c n) s = .next (State.steps (fun z => z.attnEvent c n) k.attnFuel s)) ∧
    ∀ op, (op = 0x0301 ∨ op = 0x0302 ∨ op = 0x0303) → Working s c n k op →
      (k.cancelled = false → k.fault = none → (k.loads = 1 ∨ k.loads = 2) → k.pos < k.allTiles → k.sub < (k.keyTiles k.curTile).length →
        exec (.keyTileDrain c n) s = .next (s.attnTry c n (fun _ => true) W.keyTile).1) ∧
      (k.out.isSome = true → exec (.attnRowFinish c n) s = .next (s.attnTry c n (fun _ => true) W.finishRow).1) ∧
      (op = 0x0302 → k.cancelled = false → k.fault = none → k.out = none → k.loads = 3 → k.pos < k.allTiles →
        exec (.attnRowFinish c n) s =
          .next (((s.attnTry c n (fun _ => true) W.gradStep).1).attnTry c n (fun y => y.out.isSome) W.finishRow).1)

/-- R153 to R163, R165: ACT_FUSED and NORM_STATS complete in the state that their rows in ascending order and their end give. Of one row: where
the row goes on, the command does it with all of its effect on memory, and has finished. -/
def Obligations.OutputStageDoesItsRows : Prop :=
  ∀ (c : Fin 256) (n : Nat) (k : Cmd) (s : State),
    (Working s c n k 0x0402 → exec (.actFused c n) s =
      .next ((State.steps (State.actStep c n) (2 * k.actRows + 2) s).work c n [0x0402] W.actEnd)) ∧
    (Working s c n k 0x0401 → let rows := if k.u 20 4 = 0 then 0 else k.u 16 4
      exec (.normStats c n) s = .next (s.runCmd c n 0x0401 (rows + 1) (W.rowStep rows W.normRow))) ∧
    (k.u 16 4 = 1 → k.u 20 4 ≠ 0 → k.pos = 0 → k.cancelled = false →
      (Working s c n k 0x0401 → DoesItsRow (.normStats c n) s c n k W.normRow) ∧
      (Working s c n k 0x0402 → k.issued = 0 → k.fault = none → (s.cell c).cmds = [k] → (s.cell c).xfers = [] → s.depthRoom c k.chanq = true →
        let s1 := ((W.mk s c { k with issued := 1 } .go).begin ⟨n, k.chanq, [], 0, none⟩).keep
        let r := (W.mk s1 c { k with issued := 1 } .go).actRow
        RowWent r c n 0x0402 → (r.s.cell c).xfers = (s1.cell c).xfers → r.k.actLeft = false → ∃ t, exec (.actFused c n) s = .next t ∧
          (∃ y, t.cmd c n = some y ∧ y.finished = true ∧ y.pos = 1) ∧ t.stores = r.s.stores ∧ t.bulk = r.s.bulk ∧ t.scache = r.s.scache ∧
          (t.cell c).xfers = []))

/-! ## The Cooper -/

/-- R253 to R255: a requested swap takes place at a port once the slot has no table loading: the port reads the other bank, and when the
last port has swapped, ACTIVE names that bank and PENDING is clear; TABLE_SWAP has finished once all its swaps have. -/
def Sys2Proof.Claims.TableSwapsApplyPortByPort : Prop :=
  ∀ (c : Fin 256) (n : Nat) (slot : Fin 16) (port : Fin 3) (x : Swap) (s : State), s.cellDead c = false → (s.cell c).swaps = [x] →
    x.slot = slot.val → port.val ∈ x.ports → s.fld Fd.cellTableSlotLoading c slot = 0 →
    let left := x.ports.filter (fun p => decide (p ≠ port.val))
    ∃ t, exec (.tableSwapApply c slot port) s = .next t ∧ (t.cell c).cmds = (s.cell c).cmds ∧ t.stores = s.stores ∧
      Tab.get (fun _ => 0) (t.cell c).portBank (3 * slot + port) = 1 - s.fld Fd.cellTableSlotActive c slot ∧
      (left ≠ [] → (t.cell c).swaps = [{ x with ports := left }] ∧ t.fld Fd.cellTableSlotActive c slot = s.fld Fd.cellTableSlotActive c slot) ∧
      (left = [] → (t.cell c).swaps = [] ∧ t.fld Fd.cellTableSlotActive c slot = 1 - s.fld Fd.cellTableSlotActive c slot ∧
        t.fld Fd.cellTableSlotPending c slot = 0) ∧
      ∀ k : Cmd, Working t c n k 0x0502 → (t.cell c).swaps = [] →
        ∃ u, exec (.tableSwap c n) t = .next u ∧ u.cmd c n = some { k with finished := true, kdone := true } ∧ u.stores = t.stores

/-- R240 to R246: TABLE_BUILD of FORM BUILD completes with the table of the lengths it builds from what it reads, TABLE_LOAD with the lengths it
reads, each where no swap is pending; where the write of the image has to wait, the command is taken up again. TABLE_BUILD of FORM 2 and 3
completes at once. COMPRESS_UNITS and EXPAND_UNITS complete in the state that their units give, in order; of one unit, each does it and has
finished. -/
def Sys2Proof.Claims.CoderCommandsDoTheirForms : Prop :=
  ∀ (c : Fin 256) (n : Nat) (k : Cmd) (s : State),
    (Working s c n k 0x0501 → (s.cell c).swaps = [] →
      let w := W.mk s c k .go
      (k.u 16 1 % 4 = 0 →
        let r := w.read (k.addr 24) (k.u 20 4)
        let z := (r.2.moved (if r.2.on then k.u 20 4 else 0)).putTable (buildLens (histogram r.1)) (k.u 18 1)
        exec (.tableBuild c n) s = .next (if z.halt = .wait then w.back z else z.finish).keep) ∧
      (k.u 16 1 % 4 = 1 →
        let r := w.read (k.addr 24) 264
        let z := (r.2.moved (if r.2.on then 264 else 0)).putTable ((r.1.take 256).map BitVec.toNat) (fieldB r.1 256 1)
        exec (.tableLoad c n) s = .next (if z.halt = .wait then w.back z else z.finish).keep) ∧
      (2 ≤ k.u 16 1 % 4 → ∃ t, exec (.tableBuild c n) s = .next t ∧ t.cmd c n = some { k with finished := true, kdone := true })) ∧
    (Working s c n k 0x0503 →
      let units := fun (f : W → W) => State.steps (fun z => match z.cmd c n with
        | some y => if y.finished ∨ y.opcode ≠ 0x0503 then (z, false) else ((W.mk z c y .go).compressStep f).step
        | none => (z, false)) (k.u 16 4 + 1) s
      (k.u 24 1 % 2 = 0 → exec (.compressUnits c n) s = .next (units W.compressUnit)) ∧
      (k.u 24 1 % 2 = 1 → exec (.expandUnits c n) s = .next (units W.expandNext))) ∧
    (Working s c n k 0x0503 → k.u 16 4 = 1 → k.pos = 0 → k.unitBytes ≠ 0 → k.cancelled = false →
      (k.u 24 1 % 2 = 0 → let r := (W.mk s c k .go).compressUnit
        RowWent r c n 0x0503 → r.k.pos = 1 → r.k.unitBytes ≠ 0 → r.k.u 16 4 = 1 → ∃ t, exec (.compressUnits c n) s = .next t ∧
          t.cmd c n = some { r.k with finished := true, kdone := true } ∧ t.stores = r.s.stores ∧ t.bulk = r.s.bulk) ∧
      (k.u 24 1 % 2 = 1 → let r := (W.mk s c k .go).expandNext
        RowWent r c n 0x0503 → r.k.pos = 1 → r.k.unitBytes ≠ 0 → r.k.u 16 4 = 1 → ∃ t, exec (.expandUnits c n) s = .next t ∧
          t.cmd c n = some { r.k with finished := true, kdone := true } ∧ t.stores = r.s.stores ∧ t.bulk = r.s.bulk))

/-! ## The pool -/

namespace Sys2Proof.Claims

/-- The memories, the stacks, the pool, the flash, the record of what was sent and the registers but MILL_BUSY are as in state z; the command
is y. -/
def LeavesAs (t z : State) (c n : Nat) (y : Cmd) : Prop :=
  t.cmd c n = some y ∧ t.stores = z.stores ∧ t.bulk = z.bulk ∧ t.scache = z.scache ∧ t.locals = z.locals ∧
    t.stk = z.stk ∧ t.pool = z.pool ∧ t.flash = z.flash ∧ t.out = z.out ∧ ∀ o, o ≠ Fd.cellStateMillBusy.reg c 0 → t.reg o = z.reg o

/-- A started command of one page at its start, on a page of its tenant's table that no earlier operation holds and whose entry can be
read. -/
def OnePage (s : State) (c n : Nat) (k : Cmd) (op : Nat) (t : Fin 16) (tpn : Nat) : Prop :=
  Working s c n k op ∧ k.tenant = some t ∧ k.u 20 4 = 1 ∧ k.u 16 4 = tpn ∧ k.pos = 0 ∧ k.cancelled = false ∧
    s.inTable t.val tpn = true ∧ s.pageBusy c n t tpn = false ∧
    (s.readPte t.val tpn).fault = none ∧ (s.readPte t.val tpn).warn = none ∧ (s.readPte t.val tpn).wait = false

/-- A command that has done its one row. -/
def rowDone (k : Cmd) : Cmd := { k with pos := 1, finished := true, kdone := true }

/-- A command that has ended with a code. -/
def endedBy (k : Cmd) (code : Code) : Cmd := { k.report code with finished := true, kdone := true }

/-- A valid entry of one reference in a frame. -/
def freshPte (t : Fin 16) (f : Nat) : Pte := { Pte.invalid with valid := true, ref := 1, owner := t.val, frame := 65536 * f }

/-- A transfer of a command's Carter queue is counted as begun. -/
def begun (s : State) (c : Nat) (k : Cmd) : State :=
  s.setFld Fd.cellQueueOutst c k.chanq (s.fld Fd.cellQueueOutst c k.chanq + 1)

/-- A flash operation has been asked for. -/
def flashAsked (s : State) (o : FlashOp) : State := { s with flash := { s.flash with ops := s.flash.ops ++ [o] } }

end Sys2Proof.Claims

/-- R285: PAGE_MAP on one page without PIN and ENTRY completes. PAGE_MAP_ALLOC keeps a page that is in its frame and gives an invalid one the
frame that R285 chooses; with OP 3 it does nothing (R284). PAGE_MAP_REF adds a reference, or ends with PAGE_OWNER on a page that is not
valid or has a shadow. PAGE_MAP_UNPIN unpins a valid page. -/
def Sys2Proof.Claims.PageMapActsOnItsPage : Prop :=
  ∀ (c : Fin 256) (n : Nat) (k : Cmd) (t : Fin 16) (tpn : Nat) (s : State), OnePage s c n k 0x0801 t tpn → k.bit 25 0 = false →
    k.bit 25 2 = true → let z := (s.readPte t.val tpn).st
    let p := z.pte t.val tpn
    (k.u 24 1 % 4 = 0 → p.valid = true → p.res = 0 → ∃ u, exec (.pageMapAlloc c n) s = .next u ∧ LeavesAs u z c n (rowDone k)) ∧
    (k.u 24 1 % 4 = 0 → p.valid = false → z.pool.waiters = [] → ∀ f, z.chooseFrame k.hint (some c.val) = some f →
      ∃ u b, exec (.pageMapAlloc c n) s = .next u ∧ LeavesAs u
        (((z.setFld Fd.poolFree 0 0 (z.fld Fd.poolFree - 1)).takeFrame t tpn f (k.bit 25 1)).1.setPte t.val tpn (freshPte t f)) c n
        { rowDone k with bytes := b }) ∧
    (k.u 24 1 % 4 = 3 → ∃ u y, exec (.pageMapAlloc c n) s = .next u ∧ LeavesAs u s c n y ∧ y.finished = true ∧ y.fault = k.fault) ∧
    (k.u 24 1 % 4 = 1 → p.valid = true → p.shadow = false →
      ∃ u, exec (.pageMapRef c n) s = .next u ∧ LeavesAs u (z.addRef t tpn) c n (rowDone k)) ∧
    (k.u 24 1 % 4 = 1 → p.valid = false ∨ p.shadow = true →
      ∃ u, exec (.pageMapRef c n) s = .next u ∧ LeavesAs u z c n (endedBy k cPageOwner)) ∧
    (k.u 24 1 % 4 = 2 → ∃ u, exec (.pageMapUnpin c n) s = .next u ∧
      LeavesAs u (if p.valid then z.unpinPage t tpn else z) c n (rowDone k))

/-- R286, R287, R288: PAGE_FREE on one page completes: it takes one reference of a valid page, or counts in FREE_NOP_CNT. PAGE_COW completes: it
asks for a page that lies in flash, and once its copy has come maps the copy and takes one reference of the source. A TIER_MOVE of one
valid page completes: PROMOTE brings a page on tier 2 into the frame R285 chooses and leaves one that is in its frame; DEMOTE asks for the
write of a page in its frame, or counts in DEMOTE_SKIP_CNT a page that is not; TIER_READ asks for the read of a page that is not in its
frame. -/
def Sys2Proof.Claims.PageFreeCowAndTierMoveActOnTheirPage : Prop :=
  ∀ (c : Fin 256) (n : Nat) (k : Cmd) (t : Fin 16) (tpn : Nat) (s : State), let z := (s.readPte t.val tpn).st
    let p := z.pte t.val tpn
    (OnePage s c n k 0x0803 t tpn → ∃ u, exec (.pageFree c n) s = .next u ∧
      LeavesAs u (if p.valid then z.unref t tpn else z.bump Fd.poolFreeNopCnt) c n (rowDone k)) ∧
    (Working s c n k 0x0802 → k.tenant = some t → k.u 16 4 = tpn → k.bit 24 0 = false →
      (k.issued = 0 → s.inTable t.val tpn = true → s.pageBusy c n t tpn = false → (s.readPte t.val tpn).fault = none →
        (s.readPte t.val tpn).warn = none → (s.readPte t.val tpn).wait = false → z.inTable t.val (k.u 20 4) = true →
        z.pageBusy c n t (k.u 20 4) = false → p.valid = true → p.res = 1 → p.lost = false → (z.pte t.val (k.u 20 4)).valid = false →
        z.inReset .flash 0 = false → z.pool.waiters = [] →
        ∀ f, z.chooseFrame none (some c.val) = some f → ∃ u, exec (.pageCow c n) s = .next u ∧ u.bulk = s.bulk ∧
          u.cmd c n = some { k with issued := 1, words := [(f : Int)] } ∧ u.frame f = ⟨t.val, false, (z.frame f).refd, k.u 20 4⟩ ∧
          u.flash.ops = s.flash.ops ++ [⟨false, 1, some (c.val, n), t, tpn, p.frame, f, 0, none⟩]) ∧
      (∀ f : Nat, k.issued = 1 → k.outcome = some [true] → k.words = [(f : Int)] → k.bit 24 1 = true →
        ∃ u, exec (.pageCow c n) s = .next u ∧ LeavesAs u ((s.setPte t.val (k.u 20 4) (freshPte t f)).unref t tpn) c n
          { k with bytes := satTo (2 ^ 48 - 1) (k.bytes + 65536), finished := true, kdone := true })) ∧
    (OnePage s c n k 0x0804 t tpn → p.valid = true →
      (k.u 24 1 % 4 = 0 → p.res = 0 → ∃ u, exec (.promote c n) s = .next u ∧ LeavesAs u z c n (rowDone k)) ∧
      (k.u 24 1 % 4 = 0 → p.res = 1 → p.lost = false → z.inReset .flash 0 = false → z.depthRoom c k.chanq = true → z.pool.waiters = [] →
        ∀ f, z.chooseFrame none (some c.val) = some f → ∃ u, exec (.promote c n) s = .next u ∧ LeavesAs u (begun (flashAsked
          (((z.setFld Fd.poolFree 0 0 (z.fld Fd.poolFree - 1)).setFrame f ⟨t.val, p.cow, (z.frame f).refd, tpn⟩).setPte t.val tpn
            { p with res := 2, frame := f * 65536 }) ⟨false, 0, some (c.val, n), t, tpn, p.frame, f, 0, none⟩) c k) c n (rowDone k)) ∧
      (k.u 24 1 % 4 = 1 → p.res ≠ 0 → ∃ u, exec (.demote c n) s = .next u ∧ LeavesAs u (z.bump Fd.poolDemoteSkipCnt) c n (rowDone k)) ∧
      (k.u 24 1 % 4 = 1 → p.res = 0 → p.pin = false → p.shadow = false → p.evac = false → z.flashRoom = true →
        z.inReset .flash 0 = false → z.depthRoom c k.chanq = true → ∃ u, exec (.demote c n) s = .next u ∧
        LeavesAs u (begun (z.startDemote 3 (some (c.val, n)) t tpn) c k) c n (rowDone k)) ∧
      (k.u 24 1 % 4 = 2 → p.res ≠ 0 → p.lost = false → z.inReset .flash 0 = false → z.depthRoom c k.chanq = true →
        ∃ u, exec (.tierRead c n) s = .next u ∧
        LeavesAs u (begun (flashAsked z ⟨false, 2, some (c.val, n), t, tpn, p.frame, 0, 0, none⟩) c k) c n (rowDone k)))

/-- R291: a stamped frame is released once its window is drained. -/
def Sys2Proof.Claims.StampedFramesAreReleased : Prop :=
  ∀ (i : Nat) (x : Stamped) (s : State), s.pool.stamped[i]? = some x →
    (s.drained x.t x.epoch 64 = false → exec (.frameRelease i) s = .next s) ∧
    (s.drained x.t x.epoch 64 = true → ∃ t, exec (.frameRelease i) s = .next t ∧ t.pool.stamped = s.pool.stamped.erase x ∧
      t.frame x.frame = ⟨if x.keep then 48 + x.t.val else 32, false, false, 0⟩ ∧ (∀ f, f ≠ x.frame → t.frame f = s.frame f) ∧
      t.fld Fd.poolEpochPending 0 x.t.val = s.fld Fd.poolEpochPending 0 x.t.val - 1 ∧ t.bulk = s.bulk)

/-- R293: a sweep ages the page of a frame, or clears the frame's referenced bit. -/
def Sys2Proof.Claims.SweepsAgePages : Prop :=
  ∀ s : State, (s.fld Fd.poolAgePeriod = 0 → exec .ageSweep s = .next s) ∧
    (s.fld Fd.poolAgePeriod ≠ 0 → ∀ (f : Nat) (x : FrameInfo), s.pool.frames = [(f, x)] → x.tag < 16 → let p := s.pte x.tag x.tpn
      p.valid = true → p.res = 0 → p.frame = 65536 * f → p.pin = false → p.shadow = false →
      exec .ageSweep s = .next (if x.refd then (s.setPte x.tag x.tpn { p with age := 0 }).setFrame f { x with refd := false }
        else s.setPte x.tag x.tpn { p with age := min 255 (p.age + 1) }))

/-- R294: the pool evicts while fewer frames are free than FREE_TARGET. -/
def Sys2Proof.Claims.ThePoolEvicts : Prop :=
  ∀ s : State, let wants := s.fld Fd.poolFree < s.fld Fd.poolFreeTarget ∧ s.flashRoom = true
    (¬ wants → exec .eviction s = .next s) ∧ (wants → s.victim = none → exec .eviction s = .next s) ∧
    (wants → s.inReset .flash 0 = false → ∀ (a b : Nat) (t : Fin 16) (tpn : Nat), s.victim = some (a, t, tpn, b) →
      ∃ u, exec .eviction s = .next u ∧
        u.flash.ops = s.flash.ops ++ [⟨true, 4, none, t, tpn, s.freeLpn, (s.pte t.val tpn).frame / 65536, 0, none⟩] ∧
        u.bulk = (s.setPte t.val tpn { s.pte t.val tpn with res := 2, frame := s.freeLpn }).bulk)

/-- R298: a page leaves a retiring region for the frame the pool chooses. -/
def Sys2Proof.Claims.PagesLeaveARetiringRegion : Prop :=
  ∀ (m : Fin 12) (r : Fin 8) (s : State), (s.retiring m r = false → exec (.regionEvacuate m r) s = .next s) ∧
    (s.retiring m r = true → ∀ (f g : Nat) (x : FrameInfo) (h : x.tag < 16), s.pool.frames = [(f, x)] → s.flash.ops = [] →
      s.pool.shadows = [] → s.stk.bursts = [] → (∀ c, c < 128 → s.lostPins m c = []) → s.inReset .stack m = false →
      inRegion m r f = true → (∀ u, u < 16 → (List.range (tableFrames (s.fld Fd.poolPtEntries 0 u))).all
        (fun i => !inRegion m r (s.fld Fd.poolPtBase 0 u / 65536 + i)) = true) → let p := s.pte x.tag x.tpn
      p.valid = true → p.res = 0 → p.frame = 65536 * f → p.shadow = false → p.pin = false →
      s.syncPool.chooseFrame none none = some g → g ≠ f →
      ∃ t, exec (.regionEvacuate m r) s = .next t ∧ t.frame g = { x with refd := true } ∧
        t.pool.stamped = s.pool.stamped ++ [⟨f, ⟨x.tag, h⟩, s.epoch ⟨x.tag, h⟩, true⟩] ∧
        t.bulk = ({ s with bulk := s.bulk.copyFrom s.bulk (f * 65536) (g * 65536) 65536 }.setPte x.tag x.tpn
          { p with evac := false, frame := 65536 * g }).bulk)

/-- R266: a retiring region that is empty, or a broken one, retires. -/
def Sys2Proof.Claims.RegionsRetire : Prop :=
  ∀ (m : Fin 12) (r : Fin 8) (s : State),
    let due := (s.retiring m r && s.regionEmpty m r) || (!s.bitOf Fd.stackStateRetired m 0 r && s.regionBroken m r)
    (due = false → exec (.regionRetire m r) s = .next s) ∧
    (due = true → ∃ t, exec (.regionRetire m r) s = .next t ∧ t.bitOf Fd.stackStateInService m 0 r = false ∧
      t.bitOf Fd.stackStateRetiring m 0 r = false ∧ t.bitOf Fd.stackStateRetired m 0 r = true ∧
      t.fld Fd.stackCapacity m = s.fld Fd.stackCapacity m - (if s.bitOf Fd.stackStateInService m 0 r then 131072 else 0))

/-- R271: the scrubber goes on by one burst. -/
def Sys2Proof.Claims.TheScrubberGoesOn : Prop :=
  ∀ (m : Fin 12) (s : State), (s.fld Fd.stackScrubPeriod m = 0 ∨ s.inReset .stack m = true → exec (.scrubRead m) s = .next s) ∧
    (s.fld Fd.stackScrubPeriod m ≠ 0 → s.inReset .stack m = false → s.stk.scrubAt = [] → s.bitOf Fd.stackStateInService m 0 0 = true →
      s.bitOf Fd.stackStateRetired m 0 0 = false → s.stk.bursts = [] → (∀ c, c < 128 → s.lostPins m c = []) →
      ∃ t, exec (.scrubRead m) s = .next t ∧ t.bulk = s.bulk ∧ Tab.get (fun _ => 0) t.stk.scrubAt m = 64)

/-- R266, R271, R291, R293, R294, R298: a stamped frame is released once its window is drained; a sweep ages the page of a frame or
clears its referenced bit; the pool evicts while fewer frames are free than FREE_TARGET; a page leaves a retiring region; a region that
is empty or broken retires; the scrubber goes on by one burst. Else each leaves the state as it is. -/
def Obligations.ThePoolKeepsItsFrames : Prop :=
  StampedFramesAreReleased ∧ SweepsAgePages ∧ ThePoolEvicts ∧ PagesLeaveARetiringRegion ∧ RegionsRetire ∧ TheScrubberGoesOn

/-! ## The flash -/

/-- R288, R303: a read delivers its page, is tried again, or fails after the eighth level. -/
def Sys2Proof.Claims.FlashReadsEnd : Prop :=
  ∀ (i : Nat) (o : FlashOp) (s : State), s.flash.ops[i]? = some o → o.write = false → o.cmd = none → o.purpose = 0 →
    (∃ t, exec (.flashReadDone i true) s = .next t ∧ t.flash.ops = s.flash.ops.erase o ∧ Tab.get (fun _ => none) t.flash.map o.lpn = none ∧
      t.fld Fd.poolFaultinCnt = min (2 ^ Fd.poolFaultinCnt.w - 1) (s.fld Fd.poolFaultinCnt + 1) ∧
      t.bulk = ((s.fillFrame o.frame (s.flashPage o.lpn)).setPte o.t.val o.tpn
        { s.pte o.t.val o.tpn with res := 0, frame := 65536 * o.frame }).bulk) ∧
    (o.level < 8 → ∃ t, exec (.flashReadDone i false) s = .next t ∧ t.flash.ops = s.flash.ops.set i { o with level := o.level + 1 } ∧
      t.bulk = s.bulk ∧ t.fld Fd.flashRetryCnt = min (2 ^ Fd.flashRetryCnt.w - 1) (s.fld Fd.flashRetryCnt + if o.level = 0 then 1 else 0)) ∧
    (8 ≤ o.level → ∃ t, exec (.flashReadDone i false) s = .next t ∧ t.flash.ops = s.flash.ops.erase o ∧
      t.fld Fd.flashReadFailCnt = min (2 ^ Fd.flashReadFailCnt.w - 1) (s.fld Fd.flashReadFailCnt + 1) ∧ t.bulk = (s.undoFlash o true).bulk)

/-- R288, R294: a write maps its page and stamps its frame, or leaves the page where it was. -/
def Sys2Proof.Claims.FlashWritesEnd : Prop :=
  ∀ (i : Nat) (o : FlashOp) (s : State), s.flash.ops[i]? = some o → o.write = true → o.cmd = none → o.purpose = 4 →
    (∃ t, exec (.flashWriteDone i false) s = .next t ∧ t.flash.ops = s.flash.ops.erase o ∧ t.flash.map = s.flash.map ∧
      t.pool.stamped = s.pool.stamped ∧ t.bulk = (s.undoFlash o false).bulk) ∧
    (∀ b, (s.endFlash o).openBlock flashBlocks = some b → s.fld Fd.flashInUse < s.fld Fd.flashCapacity →
      ((s.endFlash o).frameRead o.frame).fault = none →
      ∃ t, exec (.flashWriteDone i true) s = .next t ∧ t.flash.ops = s.flash.ops.erase o ∧
        Tab.get (fun _ => none) t.flash.map o.lpn = some b ∧ t.fld Fd.flashInUse = s.fld Fd.flashInUse + 1 ∧
        t.fld Fd.poolEvictCnt = min (2 ^ Fd.poolEvictCnt.w - 1) (s.fld Fd.poolEvictCnt + 1) ∧
        t.pool.stamped = s.pool.stamped ++ [⟨o.frame, o.t, s.epoch o.t, true⟩])

/-- R301: the pages of the least-erased block move to the most-erased one that is empty. -/
def Sys2Proof.Claims.WearIsLevelled : Prop :=
  ∀ s : State, let spread := s.fld Fd.flashWearEraseMax - s.fld Fd.flashWearEraseMin
    (spread ≤ s.fld Fd.flashWearSpread → exec .wearLevelMove s = .next s) ∧
    (s.fld Fd.flashWearSpread < spread → ∀ a b,
      s.pickBlock (fun x y => decide (x < y)) (s.knownBlocks.filter (fun b => !(s.pagesIn b).isEmpty)) = some a →
      s.pickBlock (fun x y => decide (y < x)) (s.knownBlocks.filter (fun b => (s.pagesIn b).isEmpty && !s.flash.failing.contains b)) = some b →
      ∃ t, exec .wearLevelMove s = .next t ∧ t.erased a = min (2 ^ 16 - 1) (s.erased a + 1) ∧ t.bulk = s.bulk ∧
        ∀ l, Tab.get (fun _ => none) t.flash.map l = if l ∈ s.pagesIn a then some b else Tab.get (fun _ => none) s.flash.map l)

/-- R302: a block with 100,000 reads is rewritten and erased. -/
def Sys2Proof.Claims.ReadBlocksAreRefreshed : Prop :=
  ∀ (b : Nat) (s : State), let reads := Tab.get (fun _ => 0) s.flash.readCnt b
    (reads < 100000 → exec (.readDisturbRefresh b) s = .next s) ∧
    (100000 ≤ reads → ∃ t, exec (.readDisturbRefresh b) s = .next t ∧ Tab.get (fun _ => 0) t.flash.readCnt b = 0 ∧
      t.erased b = min (2 ^ 16 - 1) (s.erased b + 1) ∧ t.flash.data = s.flash.data ∧
      t.fld Fd.flashRefreshCnt = min (2 ^ Fd.flashRefreshCnt.w - 1) (s.fld Fd.flashRefreshCnt + 1))

/-- R304: a block whose write failed, or whose read reached the last level, retires with its capacity, and one that holds no page after an
erase (log entry 66). -/
def Sys2Proof.Claims.BlocksRetire : Prop :=
  ∀ (b : Nat) (s : State), let due := b ∈ s.flash.failing ∨ (0 < s.erased b ∧ s.pagesIn b = [])
    (b ∈ s.flash.retired ∨ flashBlocks ≤ b ∨ ¬ due → exec (.flashBlockRetire b) s = .next s) ∧
    (b ∉ s.flash.retired → b < flashBlocks → due → ∃ t, exec (.flashBlockRetire b) s = .next t ∧ t.flash.retired = s.flash.retired ++ [b] ∧
      t.fld Fd.flashRetiredBlocks = (s.fld Fd.flashRetiredBlocks + 1) % 2 ^ 32 ∧
      t.fld Fd.flashCapacity = s.fld Fd.flashCapacity - 256 ∧ t.flash.data = s.flash.data)

/-- R288, R301 to R304: the end of a flash read or write of the pool's own, with the retries and the failure of a read; wear levelling,
refresh and retirement of a block. Else each leaves the state as it is. -/
def Obligations.TheFlashEndsItsOperations : Prop :=
  FlashReadsEnd ∧ FlashWritesEnd ∧ WearIsLevelled ∧ ReadBlocksAreRefreshed ∧ BlocksRetire

/-! ## The fabric -/

/-- R309 to R312: FLIT_RECEIVE, NAK_RECEIVE and REPLAY_TIMEOUT complete. A port that is not healthy takes nothing. A flit with a byte in a codeword
that could not be corrected, a wrong CRC or a reserved kind counts in CRC_ERR_CNT and is discarded. The next flit of its channel is
accepted, where nothing waits on the port: it counts in RX_FLITS, a first flit begins a packet in its pool, and a later one joins the packet
that is arriving. A NAK and REPLAY_TIMEOUT send every unacknowledged flit of a channel once more, in order. -/
def Obligations.PortsTakeAndReplayFlits : Prop :=
  ∀ (p : Fin 24) (s : State), let x := s.port p
    (s.healthy p = false → (∀ bs a b, exec (.flitReceive p bs a b) s = .next s) ∧ (∀ vc ack, exec (.nakReceive p vc ack) s = .next s) ∧
      ∀ vc, exec (.replayTimeout p vc) s = .next s) ∧
    (s.healthy p = true → ∀ (bs : List Byte) (a : Nat) (b : FecLoss),
      let h := fieldB bs 0 6
      let kind := bitsOf h 30 28
      let good := b.here = false ∧ bs.length = 256 ∧ crc16 (sliceB bs 0 254) = ofBe (sliceB bs 254 2) ∧ kind < 6
      let vc := bitsOf h 25 24
      let seq := bitsOf h 11 0
      let pool := poolOf vc (if vc = 1 ∨ vc = 3 then bitsOf h 41 41 else 0)
      (¬ good → ∃ t, exec (.flitReceive p bs a b) s = .next t ∧ t.fab.transit = s.fab.transit ∧ (t.port p).lastSeq = x.lastSeq ∧
        t.fld Fd.scecyCrcErrCnt p = min (2 ^ Fd.scecyCrcErrCnt.w - 1) (s.fld Fd.scecyCrcErrCnt p + 1)) ∧
      (good → 1 ≤ kind → kind ≤ 4 → seq = (x.lastAt vc + 1) % 4096 → x.waiting = [] →
        ∃ t, exec (.flitReceive p bs a b) s = .next t ∧ (t.port p).lastAt vc = seq ∧
          t.fld Fd.scecyRxFlits p = min (2 ^ Fd.scecyRxFlits.w - 1) (s.fld Fd.scecyRxFlits p + 1) ∧
          (kind = 1 ∨ kind = 4 → s.arriving p pool = none → ∃ y, t.fab.transit = s.fab.transit ++ [y] ∧ y.id = s.fab.nextId ∧
            y.port = some p.val ∧ y.vc = vc ∧ y.bodies = [(kind, sliceB bs 6 248)] ∧ y.whole = decide (kind = 4) ∧ y.entry = none) ∧
          (kind = 2 ∨ kind = 3 → ∀ y, s.arriving p pool = some y → y.here = false → y.drop = false → y.out = none →
            t.fab.transit = s.fab.transit.map (fun z => if z.id = y.id then
              { y with bodies := y.bodies ++ [(kind, sliceB bs 6 248)], whole := decide (kind = 3) } else z)))) ∧
    (s.healthy p = true → x.waiting = [] → (∀ q, q < 24 → (s.port q).owed = []) → ∀ (vc : Fin 4) (ack : BitVec 12),
      (let l := (x.acked vc ack.toNat).sentAt vc
        ∃ t, exec (.nakReceive p vc ack) s = .next t ∧ (t.port p).sentAt vc = l.map (fun f => { f with tries := f.tries + 1 }) ∧
          t.fld Fd.scecyReplayCnt p = min (2 ^ Fd.scecyReplayCnt.w - 1) (s.fld Fd.scecyReplayCnt p + l.length) ∧
          t.out.length = s.out.length + l.length) ∧
      (let l := x.sentAt vc
        ∃ t, exec (.replayTimeout p vc) s = .next t ∧ (t.port p).sentAt vc = l.map (fun f => { f with tries := f.tries + 1 }) ∧
          t.fld Fd.scecyReplayCnt p = min (2 ^ Fd.scecyReplayCnt.w - 1) (s.fld Fd.scecyReplayCnt p + l.length) ∧
          t.out.length = s.out.length + l.length))

/-- R315, R317, R320: PACKET_ROUTE and ESCAPE_WAIT_EXPIRY complete on a whole packet that has no port yet. One of a reserved OP is dropped and counts
in AGE_DROP_CNT; a read, a write or a response for this module arrives; one whose table entry is not valid is dropped and counts in
NOROUTE_CNT. -/
def Sys2Proof.Claims.PacketsArriveOrAreDropped : Prop :=
  ∀ (i : Nat) (x : Transit) (s : State), s.fab.transit[i]? = some x → x.whole = true → x.out = none → x.here = false → x.drop = false →
    x.via = none → let others := s.fab.transit.filter (fun y => decide (y.id ≠ x.id))
    let q := Packet.ofBytes (x.bodies.map Prod.snd).flatten
    (8 ≤ x.pkt.op →
      (∃ t, exec (.packetRoute i) s = .next t ∧ t.fab.transit = others ∧ t.fab.arrived = s.fab.arrived ∧
        t.fld Fd.fabAgeDropCnt = min (2 ^ Fd.fabAgeDropCnt.w - 1) (s.fld Fd.fabAgeDropCnt + 1)) ∧
      ∃ t, exec (.escapeWaitExpiry i) s = .next t ∧ t.fab.transit = others ∧
        t.fld Fd.fabAgeDropCnt = min (2 ^ Fd.fabAgeDropCnt.w - 1) (s.fld Fd.fabAgeDropCnt + 1)) ∧
    (x.pkt.op < 8 → q.op < 4 → x.pkt.dst = s.moduleId →
      (∃ t, exec (.packetRoute i) s = .next t ∧ t.fab.transit = others ∧ t.fab.arrived = s.fab.arrived ++ [q]) ∧
      ∃ t, exec (.escapeWaitExpiry i) s = .next t ∧ t.fab.transit = others ∧ t.fab.arrived = s.fab.arrived ++ [q]) ∧
    (x.pkt.op < 8 → x.pkt.dst ≠ s.moduleId → x.pkt.hops < 255 → s.fab.outstanding = [] → s.weav.insts = [] →
      (x.entry.getD (s.routeEntry x.pkt.dst)).getLsbD 63 = false →
      (∃ t, exec (.packetRoute i) s = .next t ∧ t.fab.transit = others ∧
        t.fld Fd.fabNorouteCnt = min (2 ^ Fd.fabNorouteCnt.w - 1) (s.fld Fd.fabNorouteCnt + 1)) ∧
      ∃ t, exec (.escapeWaitExpiry i) s = .next t ∧ t.fab.transit = others ∧
        t.fld Fd.fabNorouteCnt = min (2 ^ Fd.fabNorouteCnt.w - 1) (s.fld Fd.fabNorouteCnt + 1))

/-- R318: a packet on an adaptive channel that has read its entry is placed on the ADAPT port with the most credits; where none has a
credit it stays, and ESCAPE_WAIT_EXPIRY sends it on in dimension order, not to return to the adaptive channel. -/
def Sys2Proof.Claims.PacketsTakeAPortOrEscape : Prop :=
  ∀ (i : Nat) (x : Transit) (e : BitVec 64) (s : State), s.fab.transit[i]? = some x → x.pkt.op < 8 → x.pkt.dst ≠ s.moduleId → x.pkt.hops < 255 →
    x.out = none → x.here = false → x.drop = false → x.via = none → x.esc = false →
    x.entry = some e → e.getLsbD 63 = true → x.vc = 0 ∨ x.vc = 2 → let z := s.putPacket x
    let ports := z.healthyOf ((List.range 24).filter (fun p => e.toNat.testBit p))
    (∀ p, z.mostCredits (2 * x.vc) ports = some p → exec (.packetRoute i) s = .next (z.putOn x p x.vc 0)) ∧
    (z.mostCredits (2 * x.vc) ports = none → ports ≠ [] → exec (.packetRoute i) s = .next z ∧ let u := { x with esc := true }
      exec (.escapeWaitExpiry i) s = .next ((z.putPacket u).routeOrdered u e.toNat 3 false))

/-- R316, R322: READ_REQ and WRITE complete: a request is served at its target, and its answer, with the request's own tag, stands at the
router. READ_RESP and WRITE_ACK complete: a response without a request is dropped, one with a request ends the access: data joins the
transfer that waits for it, a fault ends its command. -/
def Sys2Proof.Claims.RequestsAreServedAndAnswered : Prop :=
  ∀ (i : Nat) (p : Packet) (s : State), s.fab.arrived[i]? = some p → let z := { s with fab := { s.fab with arrived := s.fab.arrived.eraseIdx i } }
    (p.op = 0 → let g := (z.slicesBefore p.addr p.len).globalRead p.ctx p.addr p.len
      let r : Packet := ⟨p.src, g.st.moduleId, p.tenant, 2, 0, p.tag, (g.fault.getD 0).toNat, g.bytes.length, g.bytes⟩
      g.wait = false → ∃ t y, exec (.readReq i) s = .next t ∧ t.bulk = g.st.bulk ∧ t.stores = g.st.stores ∧ t.scache = g.st.scache ∧
        t.regs = g.st.regs ∧ t.fab.transit = g.st.fab.transit ++ [y] ∧ y.pkt = { r with data := [] } ∧ y.bodies = r.bodies ∧ y.vc = 1 ∧
        y.whole = true) ∧
    (p.op = 1 → let g := (z.slicesBefore p.addr p.data.length).globalWrite p.ctx p.addr p.data
      let r : Packet := ⟨p.src, g.st.moduleId, p.tenant, 3, 0, p.tag, (g.fault.getD 0).toNat, g.bytes.length, []⟩
      g.wait = false → ∃ t y, exec (.write i) s = .next t ∧ t.bulk = g.st.bulk ∧ t.stores = g.st.stores ∧ t.scache = g.st.scache ∧
        t.regs = g.st.regs ∧ t.fab.transit = g.st.fab.transit ++ [y] ∧ y.pkt = r ∧ y.bodies = r.bodies ∧ y.vc = 1 ∧ y.whole = true) ∧
    (p.op = 2 → (s.byTag p.tag = none → exec (.readResp i) s = .next z) ∧
      ∀ (a : RemAcc) (c n u q : Nat), s.byTag p.tag = some a → a.kind = .fetch c n u q → (∃ y ∈ (s.cell c).xfers, y.num = n ∧ y.unit = u) →
        ∃ t, exec (.readResp i) s = .next t ∧ t.fab.outstanding = s.fab.outstanding.erase a ∧
          (t.cell c).xfers = (s.cell c).xfers.map (fun y => if y.num = n ∧ y.unit = u then y.answered q p.data p.fault else y)) ∧
    (p.op = 3 → (s.byTag p.tag = none → exec (.writeAck i) s = .next z) ∧
      ∀ (a : RemAcc) (c n u q : Nat), s.byTag p.tag = some a → a.kind = .store c n u q → ∃ t, exec (.writeAck i) s = .next t ∧
        t.fab.outstanding = s.fab.outstanding.erase a ∧
        (∀ k, p.fault = none → s.cmd c n = some k → t.cmd c n = some k) ∧
        (∀ k f, p.fault = some f → s.cmd c n = some k → t.cmd c n = some (k.report f)))

/-- R322: RESP_TIMEOUT completes: an access without a response ends with LINK_DOWN and counts in TIMEOUT_CNT. -/
def Sys2Proof.Claims.AccessesTimeOut : Prop :=
  ∀ (tag : BitVec 16) (s : State), (s.byTag tag.toNat = none → exec (.respTimeout tag) s = .next s) ∧
    ∀ (a : RemAcc) (c n u q : Nat), s.byTag tag.toNat = some a → a.kind = .fetch c n u q → (∃ y ∈ (s.cell c).xfers, y.num = n ∧ y.unit = u) →
      ∃ t, exec (.respTimeout tag) s = .next t ∧ t.fab.outstanding = s.fab.outstanding.erase a ∧
        t.fld Fd.fabTimeoutCnt = min (2 ^ Fd.fabTimeoutCnt.w - 1) (s.fld Fd.fabTimeoutCnt + 1) ∧
        (t.cell c).xfers = (s.cell c).xfers.map (fun y => if y.num = n ∧ y.unit = u then y.answered q [] (some cLinkDown) else y)

/-- R333, R382, R429: CONTROL completes: it answers the question for a FEED, relays the reply to an owner command to where the command
came from, and ends the instance that an abort names with its code. -/
def Sys2Proof.Claims.ControlPacketsAct : Prop :=
  ∀ (src : BitVec 16) (t : Fin 16) (feed : BitVec 16) (op st : BitVec 16) (seq : BitVec 64) (s : State),
    exec (.control src (.pairAsk t feed)) s =
      .next (s.sendMsg src.toNat (.ctl (.pairAnswer t (BitVec.ofNat 16 (s.fld Fd.moduleFeedFeedId)))) none none) ∧
    exec (.control src (.ownerReply op seq st)) s = .next (s.relayReply src.toNat op.toNat seq.toNat st) ∧
    ∀ (ch : Fin 16) (num : Nat) (code : Code) (x : Inst) (k : Cmd), s.weav.insts = [x] → x.t = t → x.ch = ch → x.num = num →
      x.opcode ≠ 0x0603 → s.cmd x.cell x.cmd = some k → k.opcode ≠ 0x0702 → ∃ u, exec (.control src (.abort t ch num code false)) s = .next u ∧
        u.weav.insts = [] ∧ u.cmd x.cell x.cmd = some { k with finished := true, fault := k.fault <|> some code } ∧
        u.fld Fd.weaverAbortCnt = min (2 ^ Fd.weaverAbortCnt.w - 1) (s.fld Fd.weaverAbortCnt + 1)

/-- R315 to R322, R333, R382, R429: what routing, a request, a response, its timeout and a CONTROL packet do. -/
def Obligations.PacketsAreRoutedServedAndAnswered : Prop :=
  PacketsArriveOrAreDropped ∧ PacketsTakeAPortOrEscape ∧ RequestsAreServedAndAnswered ∧ AccessesTimeOut ∧ ControlPacketsAct

/-! ## The Weaver -/

namespace Sys2Proof.Claims

/-- The one running instance of a module, of an opcode, in a phase, with nothing waiting to be taken up or to be sent. -/
def AtPhase (s : State) (x : Inst) (k : Cmd) (c : Fin 256) (op ph : Nat) : Prop :=
  s.weav.insts = [x] ∧ x.opcode = op ∧ x.phase = ph ∧ x.inbox = [] ∧ x.mbox = [] ∧ x.held = [] ∧ x.cell = c.val ∧
    s.cmd c.val x.cmd = some k ∧ k.num = x.cmd ∧ k.opcode = op ∧ k.cancelled = false ∧ s.cellDead c.val = false

/-- An access from a state went through, and touched neither the running instances nor what the cells hold. -/
def WentThrough (g : Got) (z : State) : Prop :=
  g.fault = none ∧ g.warn = none ∧ g.wait = false ∧ g.st.weav = z.weav ∧ g.st.cells = z.cells

/-- In t, an instance and its command y have ended; memory, the fabric, the record of what was sent and, but for the count of running
instances, the registers are as in z. -/
def InstEnded (t z : State) (x : Inst) (y : Cmd) : Prop :=
  t.weav.insts = [] ∧ t.cmd x.cell x.cmd = some { y with finished := true } ∧ t.bulk = z.bulk ∧ t.stores = z.stores ∧
    t.scache = z.scache ∧ t.fab = z.fab ∧ t.out = z.out ∧ ∀ o, o ≠ Fd.weaverChanInflight.reg 0 (16 * x.t.val + x.ch.val) → t.reg o = z.reg o

/-- In t, an instance stays, changed to y, and nothing of memory or registers has. -/
def InstKept (t s : State) (y : Inst) : Prop :=
  t.weav.insts = [y] ∧ t.regs = s.regs ∧ t.bulk = s.bulk ∧ t.stores = s.stores ∧ t.scache = s.scache

/-- A command that has moved some bytes. -/
def movedBy (k : Cmd) (n : Nat) : Cmd := { k with bytes := satTo (2 ^ 48 - 1) (k.bytes + n) }

end Sys2Proof.Claims

/-- R339, R346, R347, R351, R353: a Weaver command whose exchange is done completes with its end. VOTE writes its words at DST; GATHER ends once
its shard has left for every member and every tag has been handled, and stays as it is before that; PERMUTE without moves sets the layout
epoch, and PERMUTE_PHASE2 does after the landing vote; MCAST writes its detach list; REDUCE writes its flag, and counts it where it is set. -/
def Sys2Proof.Claims.WeaverCommandsEnd : Prop :=
  ∀ (c : Fin 256) (x : Inst) (k : Cmd) (s : State),
    (AtPhase s x k c 0x0605 4 → let bs := x.words.flatMap (fun v => leBytes 8 v.toNat)
      let g := (s.slicesBefore (k.addr 48) bs.length).globalWrite (k.ctx c) (k.addr 48) bs
      WentThrough g s → ∃ t, exec (.vote c x.cmd) s = .next t ∧ InstEnded t g.st x (movedBy k bs.length)) ∧
    (AtPhase s x k c 0x0602 2 → x.nextPeer = none → let all := x.landed.length = x.group.length ∧ x.passed.length = x.peers.length
      (all → ∃ t, exec (.gather c x.cmd) s = .next t ∧ InstEnded t s x k) ∧
      (¬ all → ∃ t, exec (.gather c x.cmd) s = .next t ∧ InstKept t s x)) ∧
    (AtPhase s x k c 0x0603 1 → k.u 32 4 = 0 → x.words = [] →
      ∃ t, exec (.permute c x.cmd) s = .next t ∧ InstEnded t (s.setFld Fd.weaverLayoutEpoch 0 x.t (k.u 36 4)) x k) ∧
    (AtPhase s x k c 0x0603 4 → x.words = [] →
      ∃ t, exec (.permutePhase2 x.t x.ch x.num) s = .next t ∧ InstEnded t (s.setFld Fd.weaverLayoutEpoch 0 x.t (k.u 36 4)) x k) ∧
    (∀ ph, AtPhase s x k c 0x0604 ph → ph ≠ 0 → x.me = 0 → x.sent = k.u 32 5 → k.u 32 5 ≤ x.leastCredit (k.u 32 5) →
      let g := (s.slicesBefore (k.addr 56) x.detachList.length).globalWrite (k.ctx c) (k.addr 56) x.detachList
      WentThrough g s → ∃ t, exec (.mcast c x.cmd) s = .next t ∧ InstEnded t g.st x k) ∧
    (AtPhase s x k c 0x0601 6 → (WI.mk (W.mk s c k .go) x).redSend = WI.mk (W.mk s c k .go) x → x.allPassed k = true →
      let g := (s.slicesBefore (k.addr 88) 4).globalWrite (k.ctx c) (k.addr 88) (leBytes 4 (b2n x.flag))
      WentThrough g s → ∃ t, exec (.reduce c x.cmd) s = .next t ∧
        InstEnded t (if x.flag then g.st.bump Fd.weaverNonfiniteCnt else g.st) x k)

/-- R323, R332, R345, R349: what arrives for a running instance completes. WEAVER_CREDIT_GRANT notes the grant of its opcode, counts another one
in SEQ_MISMATCH_CNT, and keeps one for an instance that is still to come. SHARD_LANDED with LOGMODE 0 notes that a tag has been handled.
COLLECTIVE notes a vote from below. MCAST_DATA writes a packet in its place and sends the count of bytes written from the start; without its
instance it counts in MCAST_DISCARD_CNT. MCAST_CREDIT notes the count of a receiver. -/
def Sys2Proof.Claims.WeaverPacketsAreNoted : Prop :=
  ∀ (c : Fin 256) (x : Inst) (k : Cmd) (s : State), (∀ u, u < 2 → s.inReset .weaver 0 u = false) →
    (AtPhase s x k c 0x0602 2 → x.nextPeer = none →
      (∀ (m : Nat) (op : BitVec 16),
        (op = 0x0602 → (m ∈ x.passed ∨ m ∉ x.peers) → ¬ (x.landed.length = x.group.length ∧ x.passed.length = x.peers.length) →
          ∃ t, exec (.weaverCreditGrant x.t x.ch x.num m op) s = .next t ∧
            InstKept t s { x with grants := m :: x.grants.filter (fun y => decide (y ≠ m)) }) ∧
        (op ≠ 0x0602 → ¬ (x.landed.length = x.group.length ∧ x.passed.length = x.peers.length) →
          ∃ t, exec (.weaverCreditGrant x.t x.ch x.num m op) s = .next t ∧ t.weav = s.weav ∧
            t.fld Fd.weaverSeqMismatchCnt = min (2 ^ Fd.weaverSeqMismatchCnt.w - 1) (s.fld Fd.weaverSeqMismatchCnt + 1))) ∧
      (∀ (j : Nat) (tag : Nat × Nat × Nat × Nat), x.tags.find? (fun y => decide (y.1 = j)) = some tag → k.u 72 1 % 4 = 0 →
        ¬ (x.landed.length + 1 = x.group.length ∧ x.passed.length = x.peers.length) →
        ∃ t, exec (.shardLanded x.t x.ch x.num j) s = .next t ∧
          InstKept t s { x with landed := x.landed ++ [j], tags := x.tags.filter (fun y => decide (y.1 ≠ j)) })) ∧
    (AtPhase s x k c 0x0603 2 → x.inbound.all (fun e => x.landed.contains e) = false → x.outbound.all (fun e => x.passed.contains e) = true →
      ∀ m : CollMsg, m.t = x.t → m.ch = x.ch → m.num = x.num →
      m.epoch.toNat = s.layoutEpoch x.t → m.body = .landed true → x.above.map (fun e => e.2) ≠ some m.sender →
      ∃ t, exec (.collective m) s = .next t ∧ InstKept t s { x with got := x.got ++ [(m.stage, voteShard, m.sender)] }) ∧
    (∀ (ph : Nat) (m : McastMsg), AtPhase s x k c 0x0604 ph → ph ≠ 0 → m.t = x.t → m.ch = x.ch → m.num = x.num → x.me ≠ 0 →
      x.children m.fanout x.me = [] → m.epoch.toNat = s.layoutEpoch x.t → x.ranges = [] →
      let got := if m.off = 0 then m.bytes.length else 0
      let z := s.putInst { x with mbox := [m] }
      let a := (k.addr 40 + m.off) % 2 ^ 48
      let g := (z.slicesBefore a m.bytes.length).globalWrite (k.ctx c) a m.bytes
      got < k.u 32 5 → WentThrough g z → ∃ t, exec (.mcastData m) s = .next t ∧ t.bulk = g.st.bulk ∧ t.stores = g.st.stores ∧
        t.scache = g.st.scache ∧ t.fab.transit = (g.st.sendMsg (x.module 0) (.credit ⟨x.t, x.ch, x.num, x.me, got⟩) none (some (x.cell, x.cmd))).fab.transit ∧
        t.weav.insts = [{ x with ranges := [(m.off, m.off + m.bytes.length)] }] ∧ t.cmd c x.cmd = some { k with bytes := got }) ∧
    (∀ (ph : Nat) (m : McastCreditMsg), AtPhase s x k c 0x0604 ph → ph ≠ 0 → x.me = 0 → x.sent = k.u 32 5 → m.t = x.t → m.ch = x.ch →
      m.num = x.num → m.member ∈ x.attached →
      let y := { x with credits := Tab.set (fun _ => 0) x.credits m.member (max (x.creditOf m.member) m.count) }
      y.leastCredit (k.u 32 5) < k.u 32 5 → ∃ t, exec (.mcastCredit m) s = .next t ∧ InstKept t s y) ∧
    (s.weav.insts = [] → ∀ (t ch : Fin 16) (num m : Nat) (op : BitVec 16) (d : McastMsg),
      ((num + 2 ^ 32 - s.fld Fd.weaverChanSeq 0 (16 * t.val + ch.val)) % 2 ^ 32 < 2 ^ 31 → exec (.weaverCreditGrant t ch num m op) s =
        .next { s with weav := { s.weav with early := s.weav.early ++ [(t, ch, num, m, op)] } }) ∧
      (∃ u, exec (.mcastData d) s = .next u ∧
        u.fld Fd.fabMcastDiscardCnt = min (2 ^ Fd.fabMcastDiscardCnt.w - 1) (s.fld Fd.fabMcastDiscardCnt + 1)))

/-- R324, R333: DETACH_TIMEOUT completes: it detaches the one receiver that holds the stream back, tells it, and the MCAST ends with its detach
list. COLL_TIMEOUT completes: an instance that waits for a peer ends with LINK_DOWN and sends the abort to its peers. -/
def Sys2Proof.Claims.WeaverTimeoutsEnd : Prop :=
  ∀ (c : Fin 256) (x : Inst) (k : Cmd) (s : State),
    (∀ (ph m : Nat), AtPhase s x k c 0x0604 ph → ph ≠ 0 → x.me = 0 → x.sent = k.u 32 5 → x.holdsBack k m = true → x.attached = [m] →
      isBelow k.mcFanout m (x.group.length + 1) m = true →
      let y := { x with detached := x.detached ++ [(m, x.creditOf m)] }
      let z := ((s.bump Fd.fabDetachCnt).sendMsg (x.module m) (.ctl (.detach x.t x.ch x.num)) none (some (x.cell, x.cmd))).putInst y
      let g := (z.slicesBefore (k.addr 56) y.detachList.length).globalWrite (k.ctx c) (k.addr 56) y.detachList
      y.attached = [] → WentThrough g z → ∃ t, exec (.detachTimeout x.t x.ch x.num m) s = .next t ∧ InstEnded t g.st x k) ∧
    (∀ op ph, AtPhase s x k c op ph → op ≠ 0x0702 → x.waitsPeer k = true →
      ∃ t, exec (.collTimeout x.t x.ch x.num) s = .next t ∧ t.weav.insts = [] ∧
        t.cmd c x.cmd = some { k with finished := true, fault := k.fault <|> some cLinkDown } ∧
        t.fab.transit = (s.sendAborts x cLinkDown false).fab.transit)

/-- R323, R324, R332, R333, R339, R345 to R349, R351, R353: how the Weaver's commands end, and what grants, packets, tags and timeouts do to a
running instance. -/
def Obligations.TheWeaverEndsAndNotes : Prop := WeaverCommandsEnd ∧ WeaverPacketsAreNoted ∧ WeaverTimeoutsEnd

/-! ## Transactions and snapshots -/

/-- R359, R365 to R367, R370: TXN_BEGIN completes: it opens the lowest free slot, or ends with TXN_ABORT on a name in use and with TXN_FOOTPRINT
where eight are not closed. TXN_COMMIT_LOCAL, TXN_COMMIT_VOTE, TXN_COMMIT_FORCE and COMMIT_FLIP complete where the outcome is known: the
epoch advances and the named transactions flip at it, or they are aborted; COMMIT_FLIP before that leaves the commit waiting. TXN_ABORT
completes: it aborts the transaction and carries its REASON. -/
def Sys2Proof.Claims.TransactionCommandsAct : Prop :=
  ∀ (c : Fin 256) (n : Nat) (k : Cmd) (t : Fin 16) (s : State), k.tenant = some t → let w := W.mk s c k .go
    (Working s c n k 0x0701 → k.sub = 0 →
      ((s.txnSlot t k.txnId).isSome = true → ∃ u, exec (.txnBegin c n) s = .next u ∧ LeavesAs u s c n (endedBy k cTxnAbort)) ∧
      (s.txnSlot t k.txnId = none → 8 ≤ s.openTxns t → ∃ u, exec (.txnBegin c n) s = .next u ∧ LeavesAs u s c n (endedBy k cTxnFootprint)) ∧
      (s.txnSlot t k.txnId = none → s.openTxns t < 8 → k.u 20 4 = 0 → ∀ j, s.freeTxn t = some j → ∃ u, exec (.txnBegin c n) s = .next u ∧
        LeavesAs u (((s.setTxnState t j 1).setFld Fd.poolTxnSlotId 0 (8 * t.val + j) k.txnId).setFld Fd.poolTxnSlotShadows 0
          (8 * t.val + j) 0) c n { k with sub := 1, issued := j, finished := true, kdone := true })) ∧
    (Working s c n k 0x0702 → s.instAt c n = none →
      let m := k.u 32 1 % 4
      let flipped := fun (states : List Nat) => (w.namedSlots states).foldl
        (fun z x => z.flipTxn x.1 x.2 ((s.advanceEpoch t).1.epoch t)) (s.advanceEpoch t).1
      let aborted := (w.namedSlots [1, 2]).foldl (fun z x => z.abortTxn x.1 x.2) s
      let y := { k with finished := true, kdone := true }
      (k.outcome = some [true, false, false] → (s.advanceEpoch t).2 = true →
        (m = 0 → ∃ u, exec (.txnCommitLocal c n) s = .next u ∧ LeavesAs u (flipped [1, 2]) c n y) ∧
        (m = 1 → ∃ u, exec (.txnCommitVote c n) s = .next u ∧ LeavesAs u (flipped [1, 2]) c n y) ∧
        (m = 2 → ∃ u, exec (.txnCommitForce c n) s = .next u ∧ LeavesAs u (flipped [3]) c n y) ∧
        (m ≠ 3 → ∃ u, exec (.commitFlip c n) s = .next u ∧ LeavesAs u (flipped (if m = 2 then [3] else [1, 2])) c n y)) ∧
      (∀ d, k.outcome = some [false, d, false] →
        (m = 0 → ∃ u, exec (.txnCommitLocal c n) s = .next u ∧ LeavesAs u aborted c n (endedBy k (if d then cTxnAbort else cNonfiniteGrad))) ∧
        (m = 1 → ∃ u, exec (.txnCommitVote c n) s = .next u ∧ LeavesAs u aborted c n (endedBy k (if d then cTxnAbort else cNonfiniteGrad)))) ∧
      (k.outcome = none → ∃ u, exec (.commitFlip c n) s = .next u ∧ u.pool = s.pool ∧ u.cmd c n = some k)) ∧
    (Working s c n k 0x0703 → let y := { k with
        fault := some (if k.u 16 2 = 0 then cTxnAbort else BitVec.ofNat 16 (k.u 16 2)), finished := true, kdone := true }
      (s.txnSlot t k.txnId = none → ∃ u, exec (.txnAbort c n) s = .next u ∧ LeavesAs u s c n y) ∧
      (∀ j, s.txnSlot t k.txnId = some j → ∃ u, exec (.txnAbort c n) s = .next u ∧ LeavesAs u (s.abortTxn t j) c n y))

/-- R360: SHADOW_MAKE completes: a page in its frame gets a shadow in the frame that R285 chooses, from its own region first. -/
def Sys2Proof.Claims.ShadowsAreMade : Prop :=
  ∀ (t : Fin 16) (j : Fin 8) (tpn g : Nat) (s : State), s.txnState t j = 1 → s.inTable t.val tpn = true → s.pageBusy 256 0 t tpn = false →
    (s.readPte t.val tpn).fault = none → let z := (s.readPte t.val tpn).st
    let p := z.pte t.val tpn
    p.valid = true → p.ref < 2 → z.shadowOf t tpn = none → z.fld Fd.poolTxnSlotShadows 0 (8 * t.val + j.val) < 65536 → z.pinRoom t = true →
    p.res = 0 → z.pool.waiters = [] → z.stk.bursts = [] → (∀ c, c < 128 → z.lostPins (stackOf p.frame) c = []) →
    z.inReset .stack (stackOf (p.frame / 65536 * 65536)) = false → z.retired (p.frame / 65536 * 65536) = false → z.inTable t.val tpn = true →
    z.chooseFrame (some (stackOf p.frame, regionOf p.frame)) none = some g →
    ∃ u, exec (.shadowMake t j tpn) s = .next u ∧ u.pool.shadows = s.pool.shadows ++ [⟨t, j.val, tpn, p.frame / 65536, g, none⟩] ∧
      u.frame g = ⟨t.val, false, true, tpn⟩

/-- R368: COPY_BACK completes: a flipped shadow that can be read is copied into its page's frame once its window is drained, and its own frame
enters deferred release. -/
def Sys2Proof.Claims.ShadowsAreCopiedBack : Prop :=
  ∀ (i : Nat) (x : Shadow) (e : Nat) (s : State), s.pool.shadows[i]? = some x → x.flip = some e →
    let through := s.drained x.t ((e + 2 ^ 32 - 1) % 2 ^ 32) 64
    let g := s.copyFrame x.shadow x.frame
    (through = false → exec (.copyBack i) s = .next s) ∧
    (through = true → g.fault = none → ∃ u, exec (.copyBack i) s = .next u ∧ u.pool.shadows = s.pool.shadows.filter (fun y => decide (y ≠ x)) ∧
      u.pool.stamped = s.pool.stamped ++ [⟨x.shadow, x.t, s.epoch x.t, true⟩] ∧
      u.bulk = (g.st.setPte x.t.val x.tpn { g.st.pte x.t.val x.tpn with shadow := false }).bulk)

/-- R359, R360, R365 to R368, R370: what TXN_BEGIN, SHADOW_MAKE, the commits, COPY_BACK and TXN_ABORT do. -/
def Obligations.TransactionsOpenCommitAndAbort : Prop :=
  TransactionCommandsAct ∧ ShadowsAreMade ∧ ShadowsAreCopiedBack

/-- R384 to R388, R394: SNAP_SAVE with MODE 2 or 3 completes at once; to the flash alone it completes with the header not valid, the body, and the
header valid written, where the partition has room, and else with POOL_EXHAUSTED. SNAP_RESTORE from the flash completes: it asks for the
slot, ends with TXN_ABORT on an image that does not check, and restores the registers of one without regions that does. -/
def Obligations.SnapshotsSaveAndRestore : Prop :=
  ∀ (c : Fin 256) (n : Nat) (k : Cmd) (s : State), Working s c n k 0x0704 → let w := W.mk s c k .go
    (2 ≤ k.u 16 1 % 4 → ∃ u, exec (.snapSave c n) s = .next u ∧ LeavesAs u s c n { k with finished := true, kdone := true }) ∧
    (k.u 16 1 % 4 = 0 → k.issued = 0 → k.bit 16 2 = true → k.bit 16 3 = false → let man := w.snapRead (k.addr 24) (16 * k.u 20 4)
      let r := man.2.snapBody man.1
      let len := bodySize (k.u 20 4) man.1
      let sum := bytesCsum r.1
      (s.fld Fd.moduleSnapSlot * 65536 < 512 + 16 * k.u 20 4 →
        ∃ u, exec (.snapSave c n) s = .next u ∧ LeavesAs u s c n (endedBy k cPoolExhausted)) ∧
      (512 + 16 * k.u 20 4 ≤ s.fld Fd.moduleSnapSlot * 65536 → man.2.halt = .go → man.2.c = c.val → man.2.k.num = n →
        (man.2.s.cmd c n).isSome = true →
        (s.fld Fd.moduleSnapSlot * 65536 < 512 + len →
          ∃ u, exec (.snapSave c n) s = .next u ∧ LeavesAs u man.2.s c n (endedBy man.2.k cPoolExhausted)) ∧
        (512 + len ≤ s.fld Fd.moduleSnapSlot * 65536 → r.2.halt = .go → r.2.c = c.val → r.2.k.num = n → r.2.k.bit 16 2 = true →
          r.2.k.bit 16 3 = false → (r.2.s.cmd c n).isSome = true → r.2.s.inReset .flash 0 = false → r.2.s.fld Fd.moduleSnapSlot = s.fld Fd.moduleSnapSlot →
          ∃ u, exec (.snapSave c n) s = .next u ∧ LeavesAs u
            (((r.2.s.snapWrite r.2.k.snapBase (r.2.s.imageHeader r.2.k false false len sum)).snapWrite (r.2.k.snapBase + 512) r.1).snapWrite
              r.2.k.snapBase (r.2.s.imageHeader r.2.k true false len sum)) c n { movedBy r.2.k (512 + len) with finished := true, kdone := true }))) ∧
    (k.u 16 1 % 4 = 1 → k.bit 16 2 = true →
      (∀ t : Fin 16, k.tenantNo = t.val → k.outcome = none → k.issued = 0 → s.inReset .flash 0 = false →
        ∃ u, exec (.snapRestore c n) s = .next u ∧
          u.cmd c n = some { k with issued := 1 } ∧ u.flash.ops = s.flash.ops ++ [⟨false, 7, some (c.val, n), t, 2 ^ 40, 2 ^ 40, 0, 0, none⟩]) ∧
      (k.outcome = some [true] → let hdr := s.flash.snap.bytes k.snapBase 512
        let body := s.flash.snap.bytes (k.snapBase + 512) (if fieldB hdr 0 4 = 1 then fieldB hdr 32 8 else 0)
        (imageValid hdr body = false → ∃ u, exec (.snapRestore c n) s = .next u ∧ LeavesAs u s c n (endedBy k cTxnAbort)) ∧
        (imageValid hdr body = true → k.u 20 4 = 0 → fieldB hdr 24 4 = 0 →
          ∃ u, exec (.snapRestore c n) s = .next u ∧ LeavesAs u (w.restoreRegs hdr).s c n { k with finished := true, kdone := true })))

/-! ## Hosts -/

/-- R395, R398, R400, R408: ETH_FRAME_RECEIVE completes: a frame on a port that is UP is counted, one marked CE too; one that asks for the port's
address is answered; one that is not for the port or not supported is counted and discarded, and so is one of another version or kind; a
HELLO or a FINISH of one segment, without others under way, waits for the Clerk where the queue of 32 has room. On a port that is not UP it
changes nothing. -/
def Sys2Proof.Claims.FramesAreChecked : Prop :=
  ∀ (e : Fin 4) (f : EthFrame) (s : State), (s.ethUp e = false → exec (.ethFrameReceive e f) s = .next s) ∧
    (s.ethUp e = true → let s0 := s.bump Fd.ethRxFrames e
      let s1 := if f.ce = true then s0.bump Fd.ethCeRxCnt e else s0
      (s1.asks e f = true →
        ∃ t, exec (.ethFrameReceive e f) s = .next t ∧ t.regs = (s1.bump Fd.ethTxFrames e).regs ∧ t.out = s.out ++ [.arp e.val]) ∧
      (s1.asks e f = false → s1.takes e f = false → exec (.ethFrameReceive e f) s = .next (s1.bump Fd.ethNonroceCnt e)) ∧
      (s1.asks e f = false → s1.takes e f = true →
        (fieldB f.hdr 0 1 % 16 ≠ 1 ∨ 3 ≤ fieldB f.hdr 0 1 / 16 → exec (.ethFrameReceive e f) s = .next (s1.bump Fd.ethStrangerCnt e)) ∧
        (∀ (msg : Byte) (bs : List Byte), fieldB f.hdr 0 1 = 0x11 → (fieldB f.hdr 1 1).testBit 1 = false → msg = 0 ∨ msg = 2 →
          bs.length < 2 ^ 32 → f.body = [msg, 0, 1, 0] ++ beBytes 4 bs.length ++ bs → s.eth.joins = [] →
          s.eth.passed.contains ⟨0, msg.toNat, bs⟩ = false → s.eth.passed.countP (fun p => decide (p.conn = 0)) < 32 →
          exec (.ethFrameReceive e f) s = .next { s1 with eth := { s1.eth with passed := s1.eth.passed ++ [⟨0, msg.toNat, bs⟩] } })))

/-- R404, R419: a port that trains is UP; one that goes down takes its queue pairs with it. -/
def Sys2Proof.Claims.PortsComeAndGo : Prop :=
  ∀ (e : Fin 4) (s : State), (s.inReset .eth e = false → exec (.ethPortTrained e) s = .next (s.setFld Fd.ethState e 0 2)) ∧
    (s.fld Fd.ethState e = 2 → ∃ t, exec (.ethPortDown e) s = .next t ∧ t.fld Fd.ethState e = 0 ∧
      t.eth.qps = s.eth.qps.map (fun q => if q.port = e.val then { q with err := true } else q))

/-- R400, R423: HELLO completes: it is taken off the queue and begins a handshake in place of one whose REPORT is signed, or is dropped and
counted; on a port that is not UP it does nothing more. -/
def Sys2Proof.Claims.HellosBeginHandshakes : Prop :=
  ∀ (e : Fin 4) (m : HelloMsg) (s : State), let z := s.takePassed 0 msgHello
    (s.ethUp e = false → exec (.hello e m) s = .next z) ∧
    (s.ethUp e = true →
      (16 ≤ m.tenant.toNat → exec (.hello e m) s = .next (z.bump Fd.ethHelloDropCnt e)) ∧
      (∀ t : Fin 16, m.tenant.toNat = t.val → let takes := s.flag Fd.resetLockBootLock = true ∧ s.admitted t = true ∧
          (s.recentHellos e).length < 16 ∧ (s.session t).hs.any (fun y => !y.signed) = false
        (¬ takes → exec (.hello e m) s = .next (z.bump Fd.ethHelloDropCnt e)) ∧
        (takes → ∃ u, exec (.hello e m) s = .next u ∧ u.sessState t = 1 ∧
          (u.session t).hs = some ⟨m, e.val, s.freeCtr, false, [], ((s.session t).hs.map (fun y => y.prev)).getD (s.sessState t), 0, SeqWin.init, 1⟩ ∧
          u.freeCtr = s.freeCtr + 1)))

/-- R400 to R402: REPORT completes: it is signed and sent. HANDSHAKE_TIMEOUT completes: REPORT is sent again and counted, or given up. FINISH
completes: it opens the session, or refuses it, counts that and sends CLOSE. -/
def Sys2Proof.Claims.HandshakesReportAndFinish : Prop :=
  ∀ (t : Fin 16) (h : Handshake) (s : State), (s.session t).hs = some h → h.port < 4 →
    (h.signed = false → let bs := s.reportBytes t h
      ∃ u, exec (.report t) s = .next u ∧
        (u.session t).hs = some { h with signed := true, report := bs, tries := 1, txSeq := h.txSeq + segments bs.length } ∧
        u.out = (s.sendHandshake h false msgReport bs).out) ∧
    (h.signed = true → let last := max 1 (s.fld Fd.ethRetransRetry) ≤ h.tries
      (last → h.prev < 4 → ∃ u, exec (.handshakeTimeout t) s = .next u ∧ (u.session t).hs = none ∧ u.sessState t = h.prev ∧
        u.fld Fd.ethSessionLastFault 0 t = cLinkDown.toNat) ∧
      (¬ last → let n := segments h.report.length
        ∃ u, exec (.handshakeTimeout t) s = .next u ∧ (u.session t).hs = some { h with tries := h.tries + 1, txSeq := h.txSeq + n } ∧
          u.fld Fd.ethRetxCnt h.port = min (2 ^ Fd.ethRetxCnt.w - 1) (s.fld Fd.ethRetxCnt h.port + n) ∧
          u.out = (s.sendHandshake h false msgReport h.report).out)) ∧
    (h.signed = true → h.prev < 4 → ∀ rk sk rs ss : List Byte, let t2 := Config.sha384 (helloBytes h.hello ++ h.report)
      let good := Config.sha384 (rk ++ sk) = (s.session t).hostKey ∧ Config.rsaVerify rk t2 rs = true ∧ Config.slhVerify sk t2 ss = true
      ∃ u, exec (.finish t rk sk rs ss) s = .next u ∧ (u.session t).hs = none ∧
        (good → u.sessState t = 2 ∧ (u.session t).ip = h.hello.srcIp ∧ (u.session t).port = h.port ∧
          ∀ q ∈ u.eth.qps, q.t = t → q.err = true) ∧
        (¬ good → u.sessState t = h.prev ∧ u.eth.qps = s.eth.qps ∧ u.fld Fd.ethSessionLastFault 0 t = cConnUnauth.toNat ∧
          u.out = (s.sendHandshake h true msgClose []).out ∧
          u.fld Fd.ethAuthFailCnt = min (2 ^ Fd.ethAuthFailCnt.w - 1) (s.fld Fd.ethAuthFailCnt + 1)))

/-- R400, R404: queue pairs open on the port of their entry, close by name, and end with their session. -/
def Sys2Proof.Claims.QueuePairsOpenAndClose : Prop :=
  ∀ (t : Fin 16) (s : State), s.sessOpen t = true →
    (∀ (m : QpEntry) (e : Nat), s.openQps (fun q => decide (q.t = t)) < s.fld Fd.ethAdmitMaxQp 0 t → s.openQps (fun _ => true) < 4096 →
      s.qpPort t m.port.toNat = some e → ∃ u q old, exec (.qpOpen t [m]) s = .next u ∧ u.eth.qps = old ++ [q] ∧
        old = s.eth.qps.filter (fun y => decide (y.qpn ≠ q.qpn)) ∧ q.t = t ∧ q.port = e ∧ q.err = false ∧ q.hostQpn = m.hostQpn.toNat ∧
        q.hostIp = m.hostIp ∧ q.expPsn = m.startPsn.toNat ∧ u.out.length = s.out.length + 1) ∧
    (∀ qpns : List (BitVec 24), ∃ u, exec (.qpClose t qpns) s = .next u ∧ u.eth.qps = s.eth.qps.map (fun q =>
      if q.t = t ∧ (∃ x ∈ qpns, x.toNat = q.qpn) then { q with err := true } else q)) ∧
    (∃ u, exec (.close t) s = .next u ∧ u.eth.qps = s.eth.qps.map (fun q => if q.t = t then { q with err := true } else q) ∧
      ((s.session t).hs = none → u.sessState t = 0))

/-- R395 to R404, R419: what a frame, a port and each message of a session do. A frame is counted and checked in the order of R398; HELLO
begins a handshake or is dropped and counted; REPORT is sent, repeated after a timeout, and given up; FINISH opens the session or refuses
it; queue pairs open, close, and go to the error state with their port or their session. -/
def Obligations.SessionsOpenAndClose : Prop :=
  FramesAreChecked ∧ PortsComeAndGo ∧ HellosBeginHandshakes ∧ HandshakesReportAndFinish ∧ QueuePairsOpenAndClose

namespace Sys2Proof.Claims

/-- The packets sent between z and t: on a queue pair's port, to its host, marked ECT(0), with these contents. -/
def SentOn (q : Qp) (z t : State) (ms : List EthMsg) : Prop :=
  ∃ ps : List EthPacket, t.out = z.out ++ ps.map Out.eth ∧ ps.map (fun p => p.content) = ms ∧
    ∀ p ∈ ps, p.port = q.port ∧ p.ip = q.hostIp ∧ p.udp = q.hostUdp ∧ p.ecn = 2

/-- The packets of an answer with data: parts of the path MTU with PSNs from one on (R405). -/
def dataOf (q : Qp) (psn : Nat) (bs : List Byte) : List EthMsg :=
  (List.range (max 1 (ceilDiv bs.length q.pmtu))).map (fun i =>
    .data ((psn + i) % 2 ^ 24) (sliceB bs (q.pmtu * i) (min q.pmtu (bs.length - q.pmtu * i))))

/-- A memory of the module holds what a write left there. -/
def SameMemory (t z : State) : Prop := t.bulk = z.bulk ∧ t.scache = z.scache ∧ t.stores = z.stores

/-- What a request with a PSN on an open queue pair gives (R405, R407, R411), where nothing has been received beyond it: in turn, it is
performed and answered, a WRITE with an ACK, the others with their data; one refused, or not valid, is answered with a NAK and puts the
queue pair into the error state; one that waits for a page is kept under its epoch, and taken once. A duplicate changes no memory and is
answered. One out of order without the extension is dropped and answered with the PSN expected. -/
def RequestGives (s : State) (q : Qp) (psn : Nat) (op : HostOp) (t : State) : Prop :=
  let d := (psn + 2 ^ 24 - q.expPsn) % 2 ^ 24
  let z := s.takePassed q.qpn 0
  let r := z.hostRun q.t (s.epoch q.t) op
  let base := if q.sack then q.expPsn else 0
  let failed := fun (kind : Nat) => SameMemory t r.2 ∧ (∀ y ∈ t.eth.qps, y.qpn = q.qpn → y.err = true) ∧
    (q.txSeq ≤ 2 ^ 48 → SentOn q r.2 t [.ack psn kind base (if q.sack then List.replicate 256 false else [])])
  (d = 0 → s.hostHas q psn = true → t = z) ∧
  (d = 0 → s.hostHas q psn = false → q.beyond = [] → q.held = [] → r.2.eth = z.eth →
    (∀ bs, r.1 = .ok bs →
      let ms := match op with
        | .write _ _ _ => [.ack psn 0 (if q.sack then (psn + 1) % 2 ^ 24 else 0) (if q.sack then List.replicate 256 false else [])]
        | _ => dataOf q psn bs
      q.txSeq + ms.length ≤ 2 ^ 48 → SameMemory t r.2 ∧ SentOn q r.2 t ms ∧
        ∃ y ∈ t.eth.qps, y.qpn = q.qpn ∧ y.err = false ∧ y.expPsn = (psn + op.span q.pmtu) % 2 ^ 24 ∧ y.txSeq = q.txSeq + ms.length) ∧
    (∀ c, r.1 = .access c → failed 2 ∧ ∀ code, c = some code → t.fld Fd.ethSessionLastFault 0 q.t = code.toNat) ∧
    (r.1 = .invalid → failed 3) ∧
    (r.1 = .wait → t = r.2.hostHold q (s.epoch q.t) psn op)) ∧
  (2 ^ 23 ≤ d → SameMemory t s ∧ let ms := match q.answers.find? (fun a => decide (a.1 = psn)) with
      | some a => dataOf q psn a.2
      | none => [.ack psn 0 base (if q.sack then q.bitmap else [])]
    (q.txSeq + ms.length ≤ 2 ^ 48 → SentOn q z t ms)) ∧
  (0 < d → d < 2 ^ 23 → q.sack = false → s.eth.waiting = [] → q.txSeq ≤ 2 ^ 48 → SameMemory t s ∧ SentOn q z t [.ack q.expPsn 1 0 []])

/-- An open queue pair of a port that is UP, found by its number. -/
def OpenQp (s : State) (qpn : Nat) (q : Qp) : Prop :=
  s.eth.qps.find? (fun y => decide (y.qpn = qpn) && !y.err) = some q ∧ s.ethUp q.port = true

end Sys2Proof.Claims

/-- R405 to R408, R411: RDMA_WRITE, RDMA_READ, FETCH_ADD and CMP_SWAP on an open queue pair complete: in PSN order they are performed once and
answered; one that is refused is answered with a NAK and its queue pair goes to the error state; a duplicate changes no memory; one out of
order without the extension is answered with the PSN expected. An acknowledgement ends what it covers, and a NAK or a SACK block has what
is missing sent again; a timeout sends the oldest request again or ends the queue pair; a CNP lowers the rate by an eighth and recovery
raises it by 10 Gb/s, between 1 and 400 Gb/s. -/
def Obligations.HostRequestsRunInOrder : Prop :=
  ∀ (qpn psn : BitVec 24) (q : Qp) (s : State), OpenQp s qpn.toNat q → q.qpn = qpn.toNat →
    (∀ (rkey : BitVec 32) (off : BitVec 64) (bs : List Byte), ∃ t, exec (.rdmaWrite qpn psn rkey off bs) s = .next t ∧
      RequestGives s q psn.toNat (.write rkey.toNat off.toNat bs) t) ∧
    (∀ (rkey : BitVec 32) (off : BitVec 64) (len : BitVec 32), ∃ t, exec (.rdmaRead qpn psn rkey off len) s = .next t ∧
      RequestGives s q psn.toNat (.read rkey.toNat off.toNat len.toNat) t) ∧
    (∀ (rkey : BitVec 32) (off v : BitVec 64), ∃ t, exec (.fetchAdd qpn psn rkey off v) s = .next t ∧
      RequestGives s q psn.toNat (.fetchAdd rkey.toNat off.toNat v.toNat) t) ∧
    (∀ (rkey : BitVec 32) (off x y : BitVec 64), ∃ t, exec (.cmpSwap qpn psn rkey off x y) s = .next t ∧
      RequestGives s q psn.toNat (.cmpSwap rkey.toNat off.toNat x.toNat y.toNat) t) ∧
    (∀ (base : BitVec 24) (bits : List Bool), q.sack = false →
      exec (.roceAckReceive qpn psn false base bits) s =
        .next (s.putQp { q with unacked := q.unacked.filter (fun r => !psnUpTo r.psn psn.toNat) }) ∧
      let left := q.unacked.filter (fun r => psnUpTo psn.toNat r.psn)
      (q.txSeq + left.length ≤ 2 ^ 48 → ∃ t, exec (.roceAckReceive qpn psn true base bits) s = .next t ∧
        SentOn q s t (left.map (fun r => .notice r.psn r.va r.rkey r.imm r.record)) ∧
        ∃ y ∈ t.eth.qps, y.qpn = q.qpn ∧ y.unacked = left ∧ y.err = false)) ∧
    (∀ (nak : Bool) (base : BitVec 24) (bits : List Bool), q.sack = true → let marks := sackMarks base.toNat bits
      let left := q.unacked.filter (fun r => psnUpTo base.toNat r.psn && !marks.contains r.psn)
      let missing := left.filter (fun r => marks.any (fun m => psnUpTo r.psn m))
      q.txSeq + missing.length ≤ 2 ^ 48 → ∃ t, exec (.roceAckReceive qpn psn nak base bits) s = .next t ∧
        SentOn q s t (missing.map (fun r => .notice r.psn r.va r.rkey r.imm r.record)) ∧
        ∃ y ∈ t.eth.qps, y.qpn = q.qpn ∧ y.unacked = left ∧ y.err = false) ∧
    (∀ (r : TxReq) (rest : List TxReq), q.unacked = r :: rest → let limit := max 1 (s.fld Fd.ethRetransRetry)
      (limit ≤ r.tries + 1 → ∃ t, exec (.ackTimeout qpn) s = .next t ∧ (∀ y ∈ t.eth.qps, y.qpn = q.qpn → y.err = true) ∧ t.out = s.out) ∧
      (r.tries + 1 < limit → q.txSeq ≤ 2 ^ 48 → ∃ t, exec (.ackTimeout qpn) s = .next t ∧
        SentOn q s t [.notice r.psn r.va r.rkey r.imm r.record])) ∧
    ((∀ x, q.cutAt = some x → x + 40000 ≤ s.clerkNow) → ∃ t y, exec (.cnp qpn) s = .next t ∧ y ∈ t.eth.qps ∧ y.qpn = q.qpn ∧
      y.rate = max 1000000 (q.rate * 7 / 8) ∧ t.fld Fd.ethCnpRxCnt q.port = min (2 ^ Fd.ethCnpRxCnt.w - 1) (s.fld Fd.ethCnpRxCnt q.port + 1)) ∧
    (∃ t y, exec (.rateRecovery qpn) s = .next t ∧ y ∈ t.eth.qps ∧ y.qpn = q.qpn ∧ y.rate = min 400000000 (q.rate + 10000000) ∧ t.regs = s.regs)

/-! ## The Clerk -/

namespace Sys2Proof.Claims

/-- An accepted owner command, from one of the four ports or from a module. -/
def Accepted (s : State) (op : Nat) (a : OwnerCmd) : Prop :=
  s.clk.accepted = some a ∧ a.op = op ∧ ∀ p ip udp, a.src = .eth p ip udp → p < 4

/-- The reply of an accepted command has been sent to where it came from, a message to the port's host or a CONTROL packet to the module
that relayed it, and the Clerk takes the next. -/
def Replied (a : OwnerCmd) (code : Code) (t : State) : Prop :=
  t.clk.accepted = none ∧
    (∀ p ip udp, a.src = .eth p ip udp → ∃ x : EthPacket, t.out.getLast? = some (.eth x) ∧ x.port = p ∧ x.ip = ip ∧ x.udp = udp ∧
      x.content = .segment (segmentBytes 0x11 (beBytes 2 a.op ++ beBytes 8 a.seq ++ beBytes 2 code.toNat) 0)) ∧
    (∀ m, a.src = .module m → ∃ y : Transit, t.fab.transit.getLast? = some y ∧ y.pkt.dst = m ∧ y.pkt.op = 7)

/-- No register but the counts of frames that the Ethernet ports have sent is other than in s. -/
def RegsButFrames (s t : State) : Prop := ∀ o, (∀ e, e < 4 → o ≠ Fd.ethTxFrames.reg e 0) → t.reg o = s.reg o

/-- What has been sent, the packets here and the registers are as in z. -/
def SentAs (t z : State) : Prop := t.out = z.out ∧ t.fab.transit = z.fab.transit ∧ t.regs = z.regs

end Sys2Proof.Claims

/-- R427 to R429: OWNER_COMMAND and OWNER_RELAY complete: a command is dropped and counted, taken, refused, or relayed. Its source is that of its
place in the queue; that of one that was not queued is a free value (log entry 70). -/
def Sys2Proof.Claims.OwnerCommandsAreTaken : Prop :=
  ∀ (nb : Bool) (msg : List Byte) (s : State), let op := ownOp msg
    let r := s.ownerFrom nb msg
    let q := s.ownerFrom false msg
    (s.ownerTaken = false → exec (.ownerCommand nb msg) s = .next (r.2.bump Fd.moduleOwnerDropCnt) ∧ exec (.ownerRelay msg) s = .next s) ∧
    (s.ownerTaken = true → ownTarget msg = s.moduleId → op ≠ 8 → s.clk.accepted = none → ∃ t, exec (.ownerCommand nb msg) s = .next t ∧
      if s.opAccepted op = true ∧ ownSerial msg = Config.fuseSerial ∧ ownSigned msg = true ∧ s.cfgTable.ownerSeq < ownSeq msg then
        t.clk.accepted = some ⟨op, ownSeq msg, ownBody msg, r.1⟩ ∧ t.cfgTable.ownerSeq = ownSeq msg ∧ SentAs t s
      else t.clk.accepted = none ∧ SentAs t (r.2.reply (some r.1) op (ownSeq msg) cSigFail)) ∧
    (s.ownerTaken = true → ownTarget msg ≠ s.moduleId →
      (∀ p, s.wayTo (ownTarget msg) = some p → ∃ t, exec (.ownerRelay msg) s = .next t ∧
        t.clk.relays = s.clk.relays ++ [(q.1, op, ownSeq msg, ownTarget msg)] ∧
        SentAs t (q.2.sendMsg (ownTarget msg) (.ctl (.ownerCmd msg)) p none)) ∧
      (s.wayTo (ownTarget msg) = none → ∃ t, exec (.ownerRelay msg) s = .next t ∧
        SentAs t (q.2.reply (some q.1) op (ownSeq msg) cRouteUnreachable)))

/-- R399, R418, R428, R448: an accepted command has its effect and is answered. -/
def Sys2Proof.Claims.AcceptedCommandsAct : Prop :=
  ∀ (a : OwnerCmd) (s : State),
    (Accepted s 1 a → let b := AdmitBody.ofBytes a.body
      (s.flag Fd.resetStrapSingle = true → ∃ t, exec .admitTenant s = .next t ∧ RegsButFrames s t ∧ Replied a cAdmitSingleTenancy t) ∧
      (s.flag Fd.resetStrapSingle = false → b.tenant < 16 → ∀ f, s.admitRefusal b = none → s.tableRun (tableFrames b.entries) = some f →
        ∃ t, exec .admitTenant s = .next t ∧ t.fld Fd.ethAdmitAdmitted 0 b.tenant = 1 ∧ t.fld Fd.ethAdmitManager 0 b.tenant = b2n b.manager ∧
          t.fld Fd.ethAdmitCgMask 0 b.tenant = b.mask % 2 ^ 16 ∧ t.fld Fd.poolPtBase 0 b.tenant = 65536 * f % 2 ^ Fd.poolPtBase.w ∧ Replied a cOK t) ∧
      (s.flag Fd.resetStrapSingle = false → b.tenant < 16 → ∀ code, s.admitRefusal b = some code → ∃ t, exec .admitTenant s = .next t ∧
        RegsButFrames s t ∧ Replied a code t)) ∧
    (Accepted s 2 a → ∀ u : Fin 16, fieldB a.body 0 1 = u.val → ∃ t, exec .release s = .next t ∧ t.fld Fd.ethAdmitAdmitted 0 u = 0 ∧ Replied a cOK t) ∧
    (Accepted s 3 a → let on := (fieldB a.body 0 1).testBit 0
      ∃ t, exec .lock s = .next t ∧ t.fld Fd.resetLockOwnerLock = b2n on ∧ t.cfgTable.lock = on ∧ Replied a cOK t) ∧
    (Accepted s 5 a → ∃ t, exec .clearCause s = .next t ∧ Replied a cOK t ∧
      ∀ i, i < 7 → t.bitOf Fd.resetCause 0 0 i = (s.bitOf Fd.resetCause 0 0 i && !(fieldB a.body 0 1).testBit i)) ∧
    (Accepted s 6 a → ∃ t, exec .config s = .next t ∧ RegsButFrames s t ∧ Replied a cOK t ∧
      t.flash.cfg = (Config.cfgOf a.body).map (fun n => { n with ownerSeq := max n.ownerSeq a.seq })) ∧
    (Accepted s 7 a → (s.clk.phase ≠ .hold → ∃ t, exec .resume s = .next t ∧ RegsButFrames s t ∧ Replied a cOK t) ∧
      (∀ o, s.clk.phase = .hold → s.clk.obs = some o → s.fld Fd.resetStrapSingle = 0 → ∃ t, exec .resume s = .next t ∧
        t.clk.phase = .running ∧ t.fld Fd.resetLockBootLock = 1 ∧ Replied a cOK t))

/-- R448: a segment of a recovery image is taken in a recovery boot, and dropped in another. -/
def Sys2Proof.Claims.ImageSegmentsAreTaken : Prop :=
  ∀ (off : BitVec 32) (bs : List Byte) (s : State),
    (s.clk.phase ≠ .recovery → exec (.imageSeg off bs) s = .next (s.bump Fd.moduleOwnerDropCnt)) ∧
    (s.clk.phase = .recovery → s.clk.taken = [] → 0 < off.toNat → off.toNat + bs.length ≤ imageMax → ∃ t, exec (.imageSeg off bs) s = .next t ∧
      t.clk.taken = [(off.toNat, off.toNat + bs.length)] ∧ t.clk.image = s.clk.image.setBytes off.toNat bs ∧ t.regs = s.regs)

/-- R455: segments that make no whole command are discarded. -/
def Sys2Proof.Claims.IncompleteCommandsAreAbandoned : Prop :=
  ∀ s : State, exec .incompleteCommandAbandon s = .next { s with eth := { s.eth with joins := s.eth.joins.filter (fun j => decide (j.msg ≠ 0x10)) } }

/-- R399, R418, R427 to R429, R448, R455: the Clerk takes a command that is permitted, names this module, is signed and is newer than the
last, and refuses another with SIG_FAIL; each command has its effect and is answered. -/
def Obligations.OwnerCommandsActAndAreAnswered : Prop :=
  OwnerCommandsAreTaken ∧ AcceptedCommandsAct ∧ ImageSegmentsAreTaken ∧ IncompleteCommandsAreAbandoned

/-- R441 to R443: option loading keeps the window of the samples that agree, or none. -/
def Sys2Proof.Claims.OptionsAreLoaded : Prop :=
  ∀ (xs : List (List (BitVec 6))) (s : State), s.clk.phase = .loading → s.clk.source ≠ 3 →
    (∀ x, decideStrap xs = some x → ∃ t, exec (.optionLoading xs) s = .next t ∧ t.clk.phase = .loaded ∧ t.fld Fd.resetOptDone = 1 ∧
      t.fld Fd.resetStrapWindow = (x.headD 0).toNat / 4 ∧ t.freeCtr = s.freeCtr + 1) ∧
    (decideStrap xs = none → (xs.length < 16 → exec (.optionLoading xs) s = .next s) ∧
      (16 ≤ xs.length → ∃ t, exec (.optionLoading xs) s = .next t ∧ t.clk.phase = .loaded ∧ t.fld Fd.resetOptDone = 1 ∧
        t.fld Fd.resetStrapWindow = 0 ∧ t.fld Fd.resetStrapBad = 1))

/-- R441, R447, R448: a boot ends running, held, or in recovery. -/
def Sys2Proof.Claims.BootsEndInTheirPhase : Prop :=
  ∀ (o : BootObs) (s : State), (s.clk.phase ≠ .loaded → exec (.boot o) s = .next s) ∧
    (s.clk.phase = .loaded → s.fld Fd.resetStrapWindow = 2 →
      if Config.fieldModule = true then ∃ t, exec (.boot o) s = .next t else exec (.boot o) s = .fault .outsideManual) ∧
    (s.clk.phase = .loaded → s.fld Fd.resetStrapWindow ≠ 2 → let policy := s.fld Fd.resetStrapPolicy
      let ok := (s.bootFirmware (decide (policy = 1))).2
      ∃ t, exec (.boot o) s = .next t ∧ t.clk.phase = (if ok = false ∨ policy = 2 then .recovery else if policy = 3 then .hold else .running) ∧
        t.fld Fd.moduleBootFault = (if ok = false then cSigFail.toNat else if s.clk.source = 2 then cWatchdog.toNat else 0) ∧
        (t.clk.phase = .running → t.clk.ready = true ∧ t.fld Fd.resetLockBootLock = 1 ∧ t.fld Fd.moduleBootCause = s.fld Fd.resetCause ∧
          ∀ m, m < 12 → t.fld Fd.stackMode m = 0))

/-- R450 to R452: an image is staged or refused at its position, and the results go back at the end of the chain. -/
def Sys2Proof.Claims.ImagesAreHandledInTheChain : Prop :=
  ∀ (img : List Byte) (chain : List (BitVec 16)) (rs : List (BitVec 16 × BitVec 16)) (pos : Nat) (s : State),
    let results := rs.map (fun r => (r.1.toNat, r.2.toNat))
    let code := if s.imageOk img = false then cSigFail else s.stageRefusal.getD cOK
    (s.flag Fd.moduleUpdateCtrlBusy = true ∨ s.managed = false → exec (.updateImageArrive img chain rs pos) s = .next s) ∧
    (s.flag Fd.moduleUpdateCtrlBusy = false → s.managed = true → chain.length ≤ pos + 1 →
      ∃ t, exec (.updateImageArrive img chain rs pos) s = .next t ∧ t.clk.update = none ∧ t.fld Fd.moduleUpdateCtrlBusy = 0 ∧
        (code = cOK → t.flash.staging.image = img) ∧ (code ≠ cOK → t.flash = s.flash) ∧
        Sends s (((results ++ [(s.moduleId, code.toNat)]).headD (0, 0)).1) (.results (results ++ [(s.moduleId, code.toNat)])) t)

/-- R449 to R451: a forward is given up after its time, and an update ends at its originator. -/
def Sys2Proof.Claims.UpdatesEnd : Prop :=
  ∀ (u : UpdSt) (s : State), s.clk.update = some u →
    (u.next = 0 → exec .updateForwardTimeout s = .next s) ∧
    (u.next ≠ 0 → u.origin = false → u.chain.length ≤ u.next + 1 → let rs := u.results ++ [(u.chain.getD u.next 0, cLinkDown.toNat)]
      ∃ t, exec .updateForwardTimeout s = .next t ∧ t.clk.update = none ∧ Sends s ((rs.headD (0, 0)).1) (.results rs) t) ∧
    (u.origin = false → exec .updateTimeout s = .next s ∧ ∀ rs, exec (.updateResultReturn rs) s = .next s) ∧
    (u.origin = true → let put := fun (l : List (Nat × Nat)) => (s.globalWrite s.managerCtx (s.fld Fd.moduleUpdateResult) (resultBytes l)).st
      (∃ t, exec .updateTimeout s = .next t ∧ SameMemory t (put u.results) ∧ t.fld Fd.moduleUpdateCtrlDone = 1 ∧
        t.fld Fd.moduleUpdateCtrlFault = cLinkDown.toNat ∧ t.fld Fd.moduleUpdateCtrlBusy = 0 ∧ t.clk.update = none) ∧
      ∀ rs : List (BitVec 16 × BitVec 16), ∃ t, exec (.updateResultReturn rs) s = .next t ∧
        SameMemory t (put (rs.map (fun r => (r.1.toNat, r.2.toNat)))) ∧ t.fld Fd.moduleUpdateCtrlDone = 1 ∧
        t.fld Fd.moduleUpdateCtrlFault = 0 ∧ t.fld Fd.moduleUpdateCtrlBusy = 0 ∧ t.clk.update = none) ∧
    (s.updateWaits = true → ∀ who, ∃ t, exec (.updateStart who) s = .next t ∧ t = s.beginUpdate)

/-- R425: telemetry changes the shared cache and its own registers. -/
def Sys2Proof.Claims.TelemetryWritesTheSharedCacheOnly : Prop :=
  ∀ s : State, (s.flag Fd.moduleTelemEnable = false → exec .telemetryPeriod s = .next s) ∧
    (∃ t, exec .telemetryPeriod s = .next t ∧ t.stores = s.stores ∧ t.bulk = s.bulk ∧ t.locals = s.locals ∧ t.cells = s.cells ∧
      t.tinkers = s.tinkers ∧ t.flash = s.flash ∧ t.eth = s.eth)

/-- R425, R430, R441 to R454: option loading keeps the strap's window and ends OPT_DONE; a boot ends running, held, or in recovery as its
policy and its firmware say, and on a part that is no field module window 2 leaves the manual; an update is handled at each position of
its chain, gives up a position after its time, and ends at its originator, which writes the results and sets DONE; telemetry writes the
shared cache alone. -/
def Obligations.BootsAndUpdatesRunTheirSteps : Prop :=
  OptionsAreLoaded ∧ BootsEndInTheirPhase ∧ ImagesAreHandledInTheChain ∧ UpdatesEnd ∧ TelemetryWritesTheSharedCacheOnly

/-- R464: the cell clock steps down and up by the windows of power. -/
def Sys2Proof.Claims.TheCellClockSteps : Prop :=
  ∀ (w : BitVec 16) (s : State), s.managed = true →
    (∀ i, i < 39 → s.fld Fd.moduleTempCur 0 i < s.fld Fd.moduleTempTrip 0 i) → let mhz := s.fld Fd.modulePowerCellMhz
    ∃ t, exec (.powerWindow w []) s = .next t ∧ t.fld Fd.modulePowerInputW = w.toNat ∧
      (2400 < w.toNat ∨ s.anyHot = true → t.clk.below = 0 ∧ t.fld Fd.modulePowerCellMhz = (if mhz ≤ 550 then mhz else mhz - 50)) ∧
      (w.toNat ≤ 2400 → s.anyHot = false → w.toNat < 2300 → s.allCool = true →
        (s.clk.below < 99 → t.clk.below = s.clk.below + 1 ∧ t.fld Fd.modulePowerCellMhz = mhz) ∧
        (99 ≤ s.clk.below → t.clk.below = 0 ∧ t.fld Fd.modulePowerCellMhz = min 1100 (mhz + 50))) ∧
      (2300 ≤ w.toNat → w.toNat ≤ 2400 → s.anyHot = false → t.clk.below = 0 ∧ t.fld Fd.modulePowerCellMhz = mhz)

/-- R466: a bank that gives less than 48 J is FAILED. -/
def Sys2Proof.Claims.TheBankIsTested : Prop :=
  ∀ (j : Nat) (s : State), s.managed = true → ∃ t, exec (.holdupTest j) s = .next t ∧ t.fld Fd.moduleHoldupFailed = (if j < 48 then 1 else 0) ∧
    t.fld Fd.moduleHoldupTests = (s.fld Fd.moduleHoldupTests + 1) % 2 ^ Fd.moduleHoldupTests.w

/-- R466, R473: the charge of the bank, in per cent. -/
def Sys2Proof.Claims.TheChargeIsRecorded : Prop :=
  ∀ (p : BitVec 8) (b : Bool) (s : State), s.clerkRuns = true → ∃ t, exec (.holdupCharge p b) s = .next t ∧
    t.fld Fd.moduleHoldupCharge = min 100 p.toNat ∧ t.fld Fd.moduleHoldupCharging = b2n b

/-- R459: a level that two samples agree on is taken. -/
def Sys2Proof.Claims.TheSidebandIsSampled : Prop :=
  ∀ (a b : Bool) (s : State), s.managed = true → ∃ t, exec (.sidebandSample a b) s = .next t ∧ t.clk.lastTray = a ∧ t.clk.lastFeed = b ∧
    t.fld Fd.moduleSidebandTrayMove = (if a = s.clk.lastTray then b2n (!a) else s.fld Fd.moduleSidebandTrayMove) ∧
    t.fld Fd.moduleSidebandFeedAlarm = (if b = s.clk.lastFeed then b2n (!b) else s.fld Fd.moduleSidebandFeedAlarm)

/-- R378, R379: a risk period scores its inputs, and arms or keeps RISK_EVENT. -/
def Sys2Proof.Claims.TheRiskIsScored : Prop :=
  ∀ s : State, let now := s.riskCounts
    let sc := s.scores (fun i => now.getD i 0 - s.clk.risk.getD i 0)
    let level := riskLevel (s.fld Fd.moduleRiskWeight) sc
    let crosses := s.fld Fd.moduleRiskThresh ≤ level ∧ s.flag Fd.moduleRiskArmed = true
    ¬ crosses → ∃ t, exec .riskPeriod s = .next t ∧ t.clk.risk = now ∧ t.clk.sramUe = false ∧ t.fld Fd.moduleRiskLevel = level ∧
      t.fld Fd.moduleRiskScores = packScores sc ∧
      t.fld Fd.moduleRiskArmed = (if level + s.fld Fd.moduleRiskHyst < s.fld Fd.moduleRiskThresh then 1 else s.fld Fd.moduleRiskArmed)

/-- R378, R379, R381, R459, R464, R466: a window above 2,400 W or with a sensor above its limit steps the cell clock down by 50 MHz, to 550
at least; the hundredth window below 2,300 W with every sensor cool steps it up, to 1,100 at most; the hold-up bank is FAILED where a test
finds less than 48 J; a sideband level is taken where two samples agree; a risk period scores its inputs and disarms or arms RISK_EVENT. -/
def Obligations.ClocksTestsAndSamplesAreTaken : Prop :=
  TheCellClockSteps ∧ TheBankIsTested ∧ TheChargeIsRecorded ∧ TheSidebandIsSampled ∧ TheRiskIsScored

/-! ## Reset and memory -/

/-- R431, R432, R473: the reset state holds every register at its reset value, lists no byte of memory, runs no Tinker, holds no command, and
has its memories in their canonical form. That unlisted bytes read as zero is the model's choice (log entry 2). -/
def Obligations.ResetLeavesTheStatedState : Prop :=
  (∀ o, State.reset.reg o = resetValue o) ∧ MemoriesWf State.reset ∧ State.reset.pending = [] ∧ State.reset.cells = [] ∧
    State.reset.tinkers = [] ∧ State.reset.bulk = [] ∧ State.reset.stores = [] ∧ State.reset.locals = [] ∧ State.reset.scache = [] ∧
    (∀ k, k < 25600 → State.reset.running k = false) ∧ State.reset.out = []

/-- The canonical form of the memories and of the register table, from any state that has it, is kept by every Tinker command whose access
stays inside its cell, from every state. -/
def Obligations.TinkersKeepTheMemoriesCanonical : Prop :=
  ∀ (i : Instr) (s t : State), insideCell i = true → MemoriesWf s → exec i s = .next t → MemoriesWf t

/-! ## Statements of two parts -/

/-- R84, R86: an undefined encoding takes the illegal-instruction trap, and TRAP the soft trap, each with what R84 saves. -/
def Obligations.TrapsSaveStateAndEnterTheHandler : Prop := UndefinedEncodingsTakeTheIllegalTrap ∧ TrapInstructionTakesTheSoftTrap

/-- R99, R100: the predicate instructions combine predicates, and the moves copy between the register files. -/
def Obligations.PredicatesAndMovesWriteTheirRegister : Prop := PredicateInstructionsCombine ∧ MovesBetweenRegisterFiles

/-- R81, R82, R83, R107: FENCE, FLUSH and HALT have their effects, and WAITQ goes on once its count is reached. -/
def Obligations.TinkersFenceFlushHaltAndWait : Prop := FenceFlushAndHalt ∧ WaitqWaitsForItsCount

/-- R84, R102, R103: the atomics act at their slice as one, and trap outside the shared cache. -/
def Obligations.AtomicsActAtTheirSliceOrTrap : Prop := AtomicsActWholeAtTheirSlice ∧ AtomicsOutsideTheSharedCacheTrap

/-- R87, R106: ISSUE appends to its queue, last, or waits for room. -/
def Obligations.IssueAppendsLastOrWaits : Prop := IssueAppendsOrWaits ∧ AppendedPointerIsLastInItsQueue

/-- R113, R115, R116: a head that may start starts as the next command; one whose opcode is not assigned completes at once. -/
def Obligations.HeadsStartOrCompleteAtOnce : Prop := CommandsStartFromTheHead ∧ UnassignedOpcodesCompleteAtOnce

/-- R284 to R288: the page commands act on their page. -/
def Obligations.PageCommandsActOnTheirPage : Prop := PageMapActsOnItsPage ∧ PageFreeCowAndTierMoveActOnTheirPage

/-- R65, R136, R137: units of a successor arrive ahead, and members of a multicast unit give their credits. -/
def Obligations.UnitsArriveAheadAndByMulticast : Prop := SuccessorsFetchAhead ∧ MulticastMembersGiveCredits

/-- R431, R432: every source of a reset resets the whole module, and a full reset leaves the state that R432 names. -/
def Obligations.EveryResetLeavesTheResetState : Prop := FullResetLeavesTheResetState ∧ EverySourceResetsTheModule

/-- R132, R144: MOVE moves its rows, in order; a row inside a cell store is copied byte by byte. -/
def Obligations.MoveMovesItsRows : Prop := MoveTakesItsRows ∧ MoveCopiesARow

/-- R79, R90: loads and stores at a short address read and write its bytes, and no others. -/
def Obligations.ShortAccessesReadAndWriteTheirBytes : Prop := LoadReadsTheShortAddress ∧ StoreWritesTheShortAddress

/-- R91, R92, R93: vector loads fill, and vector stores write, the active lanes alone. -/
def Obligations.VectorAccessesReadAndWriteActiveLanes : Prop := VectorLoadFillsActiveLanes ∧ VectorStoreWritesActiveLanes

/-- R436 to R439: a unit reset holds its unit and releases it; a memory-mode request sets the stacks it names. -/
def Obligations.UnitResetsAndMemoryModesAct : Prop := UnitResetHoldsAndReleases ∧ MemoryModeRequestsSetTheNamedStacks

/-- R241 to R255: tables are built, loaded and swapped port by port, and coders run in their own forms. -/
def Obligations.TablesSwapAndCodersRun : Prop := TableSwapsApplyPortByPort ∧ CoderCommandsDoTheirForms
end

