-- ==== Sys2Proof/Laws/Holes.lean ====
section
/-! SUPPORT. Laws of accesses to holes (R7, R8): a run that lies above control space is served, changes nothing but HOLE_CNT, and the
work that makes it goes on. -/

namespace Sys2Proof.Laws

open Sys2Proof Sys2Proof.Machine

/-- An address above the control space, where nothing lies (R7). -/
def inHole (a n : Nat) : Prop := 0x500000000000 ≤ a ∧ a + n < 2 ^ 48

theorem place_hole {a n i : Nat} (h : inHole a n) (hi : i < n) : placeOf (byteAddr a i) = .hole := by
  obtain ⟨h1, h2⟩ := h
  have e : byteAddr a i = a + i := by
    unfold byteAddr inStores storeBase
    rw [if_neg (by simp; omega), if_neg (by omega)]
    omega
  rw [e]
  unfold placeOf storeBase
  rw [if_neg (by omega), if_neg (by omega), if_neg (by omega), if_neg (by omega), if_neg (by omega)]

/-- What an access to holes leaves: nothing refused, and the cells and the Weaver as they were. -/
def Through (g : Got) (s : State) : Prop := g.fault = none ∧ g.warn = none ∧ g.wait = false ∧ g.st.cells = s.cells ∧ g.st.weav = s.weav

theorem count_hole_cells (s : State) (a i : Nat) (p : Bool) : (s.countHole a i p).1.cells = s.cells := by
  unfold State.countHole; split
  · cases p <;> rfl
  · rfl

theorem count_hole_weav (s : State) (a i : Nat) (p : Bool) : (s.countHole a i p).1.weav = s.weav := by
  unfold State.countHole; split
  · cases p <;> rfl
  · rfl

theorem piece_hole (s : State) (x : Ctx) (a : Nat) (w : Option (List Byte)) (n : Nat) (h : placeOf a = .hole) :
    s.pieceAccess x a w n = Got.ok (List.replicate n 0) s := by
  have e : s.place a = .hole := by unfold State.place; rw [h]
  unfold State.pieceAccess; rw [e]

theorem lines_in (a : Nat) : ∀ (f i n : Nat), ∀ l ∈ linesOf a f i n, l.1 < n
  | 0, _, _, _, h => by simp [linesOf] at h
  | f + 1, i, n, l, h => by
    unfold linesOf at h
    split at h
    · simp at h
    · rcases List.mem_cons.1 h with e | e
      · subst e; simp; omega
      · exact lines_in a f _ n l e

theorem read_lines_hole (x : Ctx) (a : Nat) : ∀ (ls : List (Nat × Nat)) (s : State) (p : Bool), (∀ l ∈ ls, placeOf (byteAddr a l.1) = .hole) →
    Through (s.readLines x a p ls) s
  | [], s, p, _ => by simp [State.readLines, Through, Got.ok]
  | l :: ls, s, p, h => by
    have ih := read_lines_hole x a ls (s.countHole a l.1 p).1 (s.countHole a l.1 p).2 (fun m hm => h m (List.mem_cons_of_mem _ hm))
    simp only [State.readLines, piece_hole _ x _ none l.2 (h l (List.mem_cons_self ..))]
    obtain ⟨h1, h2, h3, h4, h5⟩ := ih
    exact ⟨by simpa [Got.ok] using h1, by simpa [Got.ok] using h2, by simpa [Got.ok] using h3, by
      simpa [Got.ok, count_hole_cells] using h4, by simpa [Got.ok, count_hole_weav] using h5⟩

theorem write_lines_hole (x : Ctx) (a : Nat) (bs : List Byte) : ∀ (ls : List (Nat × Nat)) (s : State) (p : Bool),
    (∀ l ∈ ls, placeOf (byteAddr a l.1) = .hole) → Through (s.writeLines x a p bs ls) s
  | [], s, p, _ => by simp [State.writeLines, Through, Got.ok]
  | l :: ls, s, p, h => by
    have ih := write_lines_hole x a bs ls (s.countHole a l.1 p).1 (s.countHole a l.1 p).2 (fun m hm => h m (List.mem_cons_of_mem _ hm))
    simp only [State.writeLines, piece_hole _ x _ (some (sliceB bs l.1 l.2)) l.2 (h l (List.mem_cons_self ..))]
    obtain ⟨h1, h2, h3, h4, h5⟩ := ih
    exact ⟨by simpa [Got.ok] using h1, by simpa [Got.ok] using h2, by simpa [Got.ok] using h3, by
      simpa [Got.ok, count_hole_cells] using h4, by simpa [Got.ok, count_hole_weav] using h5⟩

theorem wrap_hole (s : State) (w : Who) (a n : Nat) (h : 0x500000000000 ≤ a) : s.countRunWrap w a n = s := by
  have e : s.wrapCell w a n = none := by
    unfold State.wrapCell inStores storeBase
    rw [if_neg (by simp; omega), if_neg (by omega)]
  unfold State.countRunWrap; rw [e]

theorem read_hole {a n : Nat} (h : inHole a n) (s : State) (x : Ctx) : Through (s.globalRead x a n) s := by
  have e : a % 2 ^ 48 = a := Nat.mod_eq_of_lt (by have := h.2; omega)
  unfold State.globalRead
  rw [wrap_hole s x.who a n h.1]
  unfold State.readSpan
  rw [e]
  exact read_lines_hole x a _ s false (fun l hl => place_hole h (lines_in a _ _ n l hl))

theorem write_hole {a : Nat} {bs : List Byte} (h : inHole a bs.length) (s : State) (x : Ctx) :
    Through (s.globalWrite x a bs) s := by
  have e : a % 2 ^ 48 = a := Nat.mod_eq_of_lt (by have := h.2; omega)
  unfold State.globalWrite
  rw [wrap_hole s x.who a _ h.1]
  unfold State.writeSpan
  rw [e]
  exact write_lines_hole x a bs _ s false (fun l hl => place_hole h (lines_in a _ _ _ l hl))

/-- Work that has gone on with the same command and cells. -/
def GoesOn (w z : W) : Prop := w.halt = .go ∧ w.c = z.c ∧ w.k = z.k ∧ w.s.cells = z.s.cells

theorem GoesOn.trans {a b c : W} (h : GoesOn a b) (g : GoesOn b c) : GoesOn a c :=
  ⟨h.1, h.2.1.trans g.2.1, h.2.2.1.trans g.2.2.1, h.2.2.2.trans g.2.2.2⟩

theorem took_goes {w : W} {g : Got} (hw : w.halt = .go) (h : Through g w.s) : GoesOn (w.took g) w := by
  obtain ⟨h1, h2, h3, h4, -⟩ := h
  simp [W.took, GoesOn, h1, h2, h3, h4, hw]

theorem place_of_hole {a : Nat} (h : 0x500000000000 ≤ a) : placeOf a = .hole := by
  unfold placeOf storeBase
  rw [if_neg (by omega), if_neg (by omega), if_neg (by omega), if_neg (by omega), if_neg (by omega)]

/-- No operation of a shared-cache slice is ahead of an access to a hole (R103). -/
theorem slices_hole {a n : Nat} (h : inHole a n) (s : State) : s.slicesBefore a n = s := by
  obtain ⟨h1, h2⟩ := h
  unfold State.slicesBefore
  rw [Nat.mod_eq_of_lt (by omega : a < 2 ^ 48), place_of_hole h1]
  split
  · rfl
  · exact if_neg (by omega)

/-- Opening pages in holes for a write changes nothing. -/
theorem open_pages_hole (s : State) (x : Ctx) : ∀ l : List Nat, (∀ p ∈ l, 0x500000000000 ≤ p) → s.openPages x l = (false, s)
  | [], _ => rfl
  | a :: l, h => by
    have e : s.place a = .hole := by unfold State.place; rw [place_of_hole (h a (List.mem_cons_self ..))]
    unfold State.openPages
    rw [e]
    exact open_pages_hole s x l fun p hp => h p (List.mem_cons_of_mem _ hp)

theorem w_read_goes {w : W} (hw : w.halt = .go) {a n : Nat} (h : inHole a n) : GoesOn (w.read a n).2 w := by
  simp only [W.read, W.on, hw, decide_true, Bool.not_true, Bool.false_eq_true, if_false]
  rw [slices_hole h]
  exact took_goes hw (read_hole h w.s _)

theorem w_write_goes {w : W} (hw : w.halt = .go) {a : Nat} {bs : List Byte} (h : inHole a bs.length) :
    GoesOn (w.write a bs) w := by
  simp only [W.write, W.on, hw, decide_true, Bool.not_true, Bool.false_eq_true, if_false]
  rw [slices_hole h]
  exact took_goes hw (write_hole h w.s _)
theorem le_bytes_length : ∀ n v : Nat, (leBytes n v).length = n
  | 0, _ => rfl
  | n + 1, v => by simp [leBytes, le_bytes_length n]

theorem flat_length (f : Int → Nat) : ∀ es : List Int, (es.flatMap (fun e => leBytes 6 (f e))).length = 6 * es.length
  | [] => rfl
  | e :: es => by
    have ih := flat_length f es
    simp only [List.flatMap_cons, List.length_append, le_bytes_length, ih, List.length_cons]; omega

theorem cut_length (n : Nat) : ∀ (f : Nat) (bs : List Byte), (cutBy n f bs).length = f
  | 0, _ => rfl
  | f + 1, bs => by simp [cutBy, cut_length n f]

/-- A tile that lies in a hole. -/
def tileInHole (region tile : Nat) : Prop := 0x500000000000 ≤ region ∧ region + 65536 + 98304 * (tile + 1) + 262144 ≤ 2 ^ 48 ∧ tile < 65536

theorem tile_elems_hole {region tile : Nat} (h : tileInHole region tile) : inHole (tileElems region tile) 98304 := by
  obtain ⟨h1, h2, h3⟩ := h
  unfold inHole tileElems
  omega

theorem tile_exp_hole {region tile : Nat} (h : tileInHole region tile) : inHole ((region + tile) % 2 ^ 48) 1 := by
  obtain ⟨h1, h2, h3⟩ := h
  unfold inHole
  omega

theorem read_tile_goes {w : W} (hw : w.halt = .go) {region tile : Nat} (h : tileInHole region tile) :
    GoesOn (w.readTile region tile).2 w ∧ (w.readTile region tile).1.2.length = 16384 := by
  have h1 := w_read_goes hw (tile_exp_hole h)
  have h2 := w_read_goes h1.1 (tile_elems_hole h)
  exact ⟨h2.trans h1, by simp [W.readTile, cut_length]⟩

theorem write_tile_goes {w : W} (hw : w.halt = .go) {region tile : Nat} (h : tileInHole region tile) (x : Int) (es : List Int)
    (he : es.length ≤ 16384) : GoesOn (w.writeTile region tile x es) w := by
  have hl : inHole (tileElems region tile) (es.flatMap (fun e => leBytes 6 (ofSigned 48 e))).length := by
    rw [flat_length]; have := tile_elems_hole h; unfold inHole at *; omega
  have h1 := w_write_goes hw hl
  have h2 := w_write_goes (bs := [BitVec.ofInt 8 x]) h1.1 (tile_exp_hole h)
  exact h2.trans h1
theorem open_run_goes {w : W} (hw : w.halt = .go) {a n : Nat} (h : inHole a n) (hn : 0 < n) : GoesOn (w.openRun a n) w := by
  obtain ⟨h1, h2⟩ := h
  have hp : ∀ p ∈ (a :: ((List.range (n / 65536 + 1)).map (fun i => (a / 65536 + 1 + i) * 65536)).filter
      (fun p => decide (p < a + n))).map (· % 2 ^ 48), 0x500000000000 ≤ p := by
    intro p hp
    obtain ⟨q, hq, rfl⟩ := List.mem_map.1 hp
    rcases List.mem_cons.1 hq with rfl | hq
    · show 0x500000000000 ≤ q % 2 ^ 48; omega
    · obtain ⟨hm, hlt⟩ := List.mem_filter.1 hq
      obtain ⟨i, -, rfl⟩ := List.mem_map.1 hm
      have := of_decide_eq_true hlt
      show 0x500000000000 ≤ (a / 65536 + 1 + i) * 65536 % 2 ^ 48
      omega
  simp only [W.openRun, W.on, hw, decide_true, Bool.not_true, Bool.false_eq_true, if_false, open_pages_hole _ _ _ hp]
  exact ⟨rfl, rfl, rfl, rfl⟩

theorem open_tile_goes {w : W} (hw : w.halt = .go) {region tile : Nat} (h : tileInHole region tile) :
    GoesOn (w.openTile region tile) w := by
  have h1 := open_run_goes hw (tile_elems_hole h) (by decide)
  have hx : inHole (region + tile) 1 := by obtain ⟨a, b, c⟩ := h; unfold inHole; omega
  exact (open_run_goes h1.1 hx (by decide)).trans h1

theorem till_add_length (x a : Int) (ps : List TillPair) : (tillAdd x a ps).2.1.length = ps.length := by simp [tillAdd]

/-- A sum that has gone on: the command but for its counts. -/
theorem page_add_goes {w : W} (hw : w.halt = .go) {region tile : Nat} (h : tileInHole region tile) (a : Int) (add : List (Int × Bool)) :
    ∃ n : Counts, ∃ z : W, GoesOn z w ∧ w.pageAdd region tile a add = z.count n := by
  have h1 := open_tile_goes hw h
  have h2 := read_tile_goes h1.1 h
  have h3 := fun x es he => write_tile_goes h2.1.1 h x es he
  have key : ∀ ps : List TillPair, ps.length ≤ 16384 →
      let t := (w.openTile region tile).readTile region tile
      let r := tillAdd t.1.1 a ps
      let w1 := t.2.writeTile region tile r.1 r.2.1
      ∃ n : Counts, ∃ z : W, GoesOn z w ∧ (if w1.on then w1.count r.2.2 else w1) = z.count n := by
    intro ps hp t r w1
    have g : GoesOn w1 t.2 := h3 _ _ (by rw [till_add_length]; exact hp)
    exact ⟨r.2.2, w1, g.trans (h2.1.trans h1), if_pos (decide_eq_true g.1)⟩
  unfold W.pageAdd
  have on : ((w.openTile region tile).readTile region tile).2.on = true := by simp [W.on, h2.1.1]
  simp only [on, Bool.not_true, Bool.false_eq_true, if_false]
  exact key _ (by simp [h2.2])

theorem count_s (w : W) (n : Counts) : (w.count n).s = w.s := rfl
theorem count_k (w : W) (n : Counts) : (w.count n).k = w.k.count n := rfl

/-- Writing a tile as TILL48 to a hole: the work goes on, with more counts. -/
theorem put_out_goes {w : W} (hw : w.halt = .go) (trim x : Int) {es : List Int} (he : es.length = 16384)
    (h1 : inHole ((w.k.addr 40 + w.k.pos * 98304) % 2 ^ 48) 98304) (h2 : inHole ((w.k.addr 48 + w.k.pos) % 2 ^ 48) 1) :
    ∃ n : Counts, GoesOn (w.putTill (tillOut 3 trim x es)) (w.count n) := by
  refine ⟨⟨0, 0, 0, es.countP (fun e => decide (e = till48Nar))⟩, ?_⟩
  unfold W.putTill
  simp only [tillOut, List.isEmpty_cons, Bool.false_eq_true, if_false, Nat.mul_one]
  have g := w_write_goes (w := w.count ⟨0, 0, 0, es.countP (fun e => decide (e = till48Nar))⟩) hw
    (a := (w.k.addr 40 + w.k.pos * 98304) % 2 ^ 48) (bs := es.flatMap (fun e => leBytes 6 (ofSigned 48 e))) (by rw [flat_length, he]; exact h1)
  exact (w_write_goes g.1 (bs := [BitVec.ofInt 8 x]) h2).trans g

/-- A READ of a tile in a hole, as TILL48, to a hole: the work goes on, with more counts. -/
theorem read_out_goes {w : W} (hw : w.halt = .go) (hm : w.k.u 18 1 % 4 = 3) (ht : tileInHole (w.k.addr 32) (w.k.u 24 4 + w.k.pos))
    (h1 : inHole ((w.k.addr 40 + w.k.pos * 98304) % 2 ^ 48) 98304) (h2 : inHole ((w.k.addr 48 + w.k.pos) % 2 ^ 48) 1) :
    ∃ n : Counts, w.readOut.halt = .go ∧ w.readOut.c = w.c ∧ w.readOut.k = w.k.count n ∧ w.readOut.s.cells = w.s.cells := by
  have hr := read_tile_goes hw ht
  have on : (w.readTile (w.k.addr 32) (w.k.u 24 4 + w.k.pos)).2.on = true := decide_eq_true hr.1.1
  obtain ⟨g1, g2, g3, g4⟩ := hr.1
  obtain ⟨n, e1, e2, e3, e4⟩ := put_out_goes g1 (w.k.i 19 1) (w.readTile (w.k.addr 32) (w.k.u 24 4 + w.k.pos)).1.1 hr.2
    (by rw [g3]; exact h1) (by rw [g3]; exact h2)
  unfold W.readOut
  simp only [on, hm, Bool.not_true, Bool.false_eq_true, if_false]
  exact ⟨n, e1, e2.trans g2, e3.trans ((count_k _ n).trans (congrArg (fun k => k.count n) g3)),
    e4.trans ((congrArg State.cells (count_s _ n)).trans g4)⟩

theorem bump_cells (s : State) (f : Field) (b i n : Nat) : (s.bump f b i n).cells = s.cells := rfl
/-- A MERGE of one tile in a hole into another: the work goes on, with more counts. -/
theorem merge_tile_goes {w : W} (hw : w.halt = .go) (hc : w.s.tileClaimed w.c (w.k.addr 32) (w.k.u 24 4 + w.k.pos) = false)
    (hs : tileInHole (w.k.addr 40) (w.k.u 28 4 + w.k.pos)) (hd : tileInHole (w.k.addr 32) (w.k.u 24 4 + w.k.pos)) :
    ∃ (n : Counts) (z : W), GoesOn z w ∧ w.mergeTile.halt = .go ∧ w.mergeTile.c = w.c ∧ w.mergeTile.k = w.k.count n ∧
      w.mergeTile.s.cells = w.s.cells := by
  have hr := read_tile_goes hw hs
  obtain ⟨n, z, hz, e⟩ := page_add_goes hr.1.1 hd (w.readTile (w.k.addr 40) (w.k.u 28 4 + w.k.pos)).1.1
    ((w.readTile (w.k.addr 40) (w.k.u 28 4 + w.k.pos)).1.2.map (fun e => if e = till48Nar then (0, true) else (e, false)))
  have g := hz.trans hr.1
  have on : (z.count n).on = true := decide_eq_true g.1
  refine ⟨n, z, g, ?_⟩
  unfold W.mergeTile
  simp only [hc, Bool.false_eq_true, if_false, e, on, if_true]
  obtain ⟨g1, g2, g3, g4⟩ := g
  exact ⟨g1, g2, (count_k z n).trans (congrArg (fun k => k.count n) g3), (bump_cells ..).trans ((congrArg State.cells (count_s z n)).trans g4)⟩

end Sys2Proof.Laws
end

