-- ==== Sys2Proof/Laws/Tab.lean ====
section
/-! SUPPORT. What the table operations do: a read after a write, and that every write keeps the canonical form. -/

namespace Sys2Proof.Machine

variable {α : Type}

theorem Tab.get_del_self (d : Nat → α) (m : Tab α) (x : Nat) : Tab.get d (Tab.del m x) x = d x := by
  induction m with
  | nil => rfl
  | cons e m ih =>
    obtain ⟨k, v⟩ := e
    by_cases h : x = k
    · subst h; simp [Tab.del, ih]
    · simp [Tab.del, Tab.get, h, ih]

theorem Tab.get_del_other (d : Nat → α) (m : Tab α) {x y : Nat} (h : y ≠ x) :
    Tab.get d (Tab.del m x) y = Tab.get d m y := by
  induction m with
  | nil => rfl
  | cons e m ih =>
    obtain ⟨k, v⟩ := e
    by_cases hx : x = k
    · subst hx; simp [Tab.del, Tab.get, ih, h]
    · simp [Tab.del, Tab.get, hx, ih]

theorem Tab.get_put_self (d : Nat → α) (m : Tab α) (x : Nat) (v : α) : Tab.get d (Tab.put m x v) x = v := by
  induction m with
  | nil => simp [Tab.put, Tab.get]
  | cons e m ih =>
    obtain ⟨k, u⟩ := e
    unfold Tab.put
    split
    · simp [Tab.get]
    · split
      · simp [Tab.get]
      · rename_i h; simp [Tab.get, h, ih]

theorem Tab.get_put_other (d : Nat → α) (m : Tab α) {x y : Nat} (v : α) (h : y ≠ x) :
    Tab.get d (Tab.put m x v) y = Tab.get d m y := by
  induction m with
  | nil => simp [Tab.put, Tab.get, h]
  | cons e m ih =>
    obtain ⟨k, u⟩ := e
    unfold Tab.put
    split
    · simp [Tab.get, h]
    · split
      · rename_i hk; subst hk; simp [Tab.get, h]
      · simp [Tab.get, ih]

/-- Reading the key just written gives the value written. -/
@[simp] theorem Tab.get_set_self [DecidableEq α] (d : Nat → α) (m : Tab α) (x : Nat) (v : α) :
    Tab.get d (Tab.set d m x v) x = v := by
  unfold Tab.set
  split
  · rename_i h; rw [Tab.get_del_self, h]
  · exact Tab.get_put_self d m x v

/-- Reading any other key gives what it gave before. -/
theorem Tab.get_set_other [DecidableEq α] (d : Nat → α) (m : Tab α) {x y : Nat} (v : α) (h : y ≠ x) :
    Tab.get d (Tab.set d m x v) y = Tab.get d m y := by
  unfold Tab.set
  split
  · exact Tab.get_del_other d m h
  · exact Tab.get_put_other d m v h

theorem Tab.get_set [DecidableEq α] (d : Nat → α) (m : Tab α) (x y : Nat) (v : α) :
    Tab.get d (Tab.set d m x v) y = if y = x then v else Tab.get d m y := by
  by_cases h : y = x
  · subst h; simp
  · rw [Tab.get_set_other d m v h, if_neg h]

theorem Tab.mem_del {m : Tab α} {x : Nat} {e : Nat × α} (h : e ∈ Tab.del m x) : e ∈ m ∧ e.1 ≠ x := by
  induction m with
  | nil => simp [Tab.del] at h
  | cons a m ih =>
    obtain ⟨k, v⟩ := a
    unfold Tab.del at h
    split at h
    · obtain ⟨h1, h2⟩ := ih h; exact ⟨List.mem_cons_of_mem _ h1, h2⟩
    · rename_i hx
      rcases List.mem_cons.1 h with rfl | h
      · exact ⟨List.mem_cons_self, fun h => hx h.symm⟩
      · obtain ⟨h1, h2⟩ := ih h; exact ⟨List.mem_cons_of_mem _ h1, h2⟩

theorem Tab.mem_put {m : Tab α} {x : Nat} {v : α} {e : Nat × α} (h : e ∈ Tab.put m x v) :
    e = (x, v) ∨ e ∈ m := by
  induction m with
  | nil => simp [Tab.put] at h; exact .inl h
  | cons a m ih =>
    obtain ⟨k, u⟩ := a
    unfold Tab.put at h
    split at h
    · rcases List.mem_cons.1 h with h | h
      · exact .inl h
      · exact .inr h
    · split at h
      · rcases List.mem_cons.1 h with h | h
        · exact .inl h
        · exact .inr (List.mem_cons_of_mem _ h)
      · rcases List.mem_cons.1 h with h | h
        · exact .inr (h ▸ List.mem_cons_self)
        · rcases ih h with h | h
          · exact .inl h
          · exact .inr (List.mem_cons_of_mem _ h)

theorem Tab.pairwise_del {m : Tab α} {x : Nat} (h : m.Pairwise (fun a b => a.1 < b.1)) :
    (Tab.del m x).Pairwise (fun a b => a.1 < b.1) := by
  induction m with
  | nil => simp [Tab.del]
  | cons a m ih =>
    obtain ⟨k, v⟩ := a
    rw [List.pairwise_cons] at h
    unfold Tab.del
    split
    · exact ih h.2
    · exact List.pairwise_cons.2 ⟨fun e he => h.1 e (Tab.mem_del he).1, ih h.2⟩

theorem Tab.pairwise_put {m : Tab α} {x : Nat} {v : α} (h : m.Pairwise (fun a b => a.1 < b.1)) :
    (Tab.put m x v).Pairwise (fun a b => a.1 < b.1) := by
  induction m with
  | nil => simp [Tab.put]
  | cons a m ih =>
    obtain ⟨k, u⟩ := a
    have h' := List.pairwise_cons.1 h
    unfold Tab.put
    split
    · rename_i hx
      refine List.pairwise_cons.2 ⟨fun e he => ?_, h⟩
      rcases List.mem_cons.1 he with rfl | he
      · exact hx
      · exact lt_trans hx (h'.1 e he)
    · split
      · rename_i hk; subst hk
        exact List.pairwise_cons.2 ⟨h'.1, h'.2⟩
      · rename_i h1 h2
        refine List.pairwise_cons.2 ⟨fun e he => ?_, ih h'.2⟩
        rcases Tab.mem_put he with rfl | he
        · show k < x; omega
        · exact h'.1 e he

/-- A write keeps the canonical form. -/
theorem Tab.wf_set [DecidableEq α] {d : Nat → α} {m : Tab α} (x : Nat) (v : α) (h : Tab.wf d m) :
    Tab.wf d (Tab.set d m x v) := by
  unfold Tab.set
  split
  · exact ⟨Tab.pairwise_del h.1, fun e he => h.2 e (Tab.mem_del he).1⟩
  · rename_i hv
    refine ⟨Tab.pairwise_put h.1, fun e he => ?_⟩
    rcases Tab.mem_put he with rfl | he
    · exact hv
    · exact h.2 e he

theorem Mem.wf_set {m : Mem} (a : Nat) (b : Byte) (h : Memory.wf m) : Memory.wf (Mem.set m a b) :=
  Tab.wf_set a b h

@[simp] theorem Mem.get_set_self (m : Mem) (a : Nat) (b : Byte) : Mem.get (Mem.set m a b) a = b :=
  Tab.get_set_self memDefault m a b

theorem Mem.get_set_other (m : Mem) {a x : Nat} (b : Byte) (h : x ≠ a) : Mem.get (Mem.set m a b) x = Mem.get m x :=
  Tab.get_set_other memDefault m b h

end Sys2Proof.Machine
end

