-- ==== Sys2Proof/Laws/State.lean ====
section
/-! SUPPORT. The fields of the state under its updates: for each update, what every field it leaves alone still holds, and what a
read of the part it sets gives. -/

namespace Sys2Proof.Machine

variable (s : State)

/-! ## setReg -/

@[simp] theorem State.bulk_setReg (o : Nat) (v : BitVec 64) : (s.setReg o v).bulk = s.bulk := rfl
@[simp] theorem State.scache_setReg (o : Nat) (v : BitVec 64) : (s.setReg o v).scache = s.scache := rfl
@[simp] theorem State.stores_setReg (o : Nat) (v : BitVec 64) : (s.setReg o v).stores = s.stores := rfl
@[simp] theorem State.locals_setReg (o : Nat) (v : BitVec 64) : (s.setReg o v).locals = s.locals := rfl
@[simp] theorem State.sramErr_setReg (o : Nat) (v : BitVec 64) : (s.setReg o v).sramErr = s.sramErr := rfl
@[simp] theorem State.tinkers_setReg (o : Nat) (v : BitVec 64) : (s.setReg o v).tinkers = s.tinkers := rfl
@[simp] theorem State.cells_setReg (o : Nat) (v : BitVec 64) : (s.setReg o v).cells = s.cells := rfl
@[simp] theorem State.slices_setReg (o : Nat) (v : BitVec 64) : (s.setReg o v).slices = s.slices := rfl
@[simp] theorem State.stk_setReg (o : Nat) (v : BitVec 64) : (s.setReg o v).stk = s.stk := rfl
@[simp] theorem State.pool_setReg (o : Nat) (v : BitVec 64) : (s.setReg o v).pool = s.pool := rfl
@[simp] theorem State.flash_setReg (o : Nat) (v : BitVec 64) : (s.setReg o v).flash = s.flash := rfl
@[simp] theorem State.fab_setReg (o : Nat) (v : BitVec 64) : (s.setReg o v).fab = s.fab := rfl
@[simp] theorem State.weav_setReg (o : Nat) (v : BitVec 64) : (s.setReg o v).weav = s.weav := rfl
@[simp] theorem State.eth_setReg (o : Nat) (v : BitVec 64) : (s.setReg o v).eth = s.eth := rfl
@[simp] theorem State.clk_setReg (o : Nat) (v : BitVec 64) : (s.setReg o v).clk = s.clk := rfl
@[simp] theorem State.out_setReg (o : Nat) (v : BitVec 64) : (s.setReg o v).out = s.out := rfl
@[simp] theorem State.freeCtr_setReg (o : Nat) (v : BitVec 64) : (s.setReg o v).freeCtr = s.freeCtr := rfl
@[simp] theorem State.pending_setReg (o : Nat) (v : BitVec 64) : (s.setReg o v).pending = s.pending := rfl

/-! ## setFld -/

@[simp] theorem State.bulk_setFld (f : Field) (b i v : Nat) : (s.setFld f b i v).bulk = s.bulk := rfl
@[simp] theorem State.scache_setFld (f : Field) (b i v : Nat) : (s.setFld f b i v).scache = s.scache := rfl
@[simp] theorem State.stores_setFld (f : Field) (b i v : Nat) : (s.setFld f b i v).stores = s.stores := rfl
@[simp] theorem State.locals_setFld (f : Field) (b i v : Nat) : (s.setFld f b i v).locals = s.locals := rfl
@[simp] theorem State.sramErr_setFld (f : Field) (b i v : Nat) : (s.setFld f b i v).sramErr = s.sramErr := rfl
@[simp] theorem State.tinkers_setFld (f : Field) (b i v : Nat) : (s.setFld f b i v).tinkers = s.tinkers := rfl
@[simp] theorem State.cells_setFld (f : Field) (b i v : Nat) : (s.setFld f b i v).cells = s.cells := rfl
@[simp] theorem State.slices_setFld (f : Field) (b i v : Nat) : (s.setFld f b i v).slices = s.slices := rfl
@[simp] theorem State.stk_setFld (f : Field) (b i v : Nat) : (s.setFld f b i v).stk = s.stk := rfl
@[simp] theorem State.pool_setFld (f : Field) (b i v : Nat) : (s.setFld f b i v).pool = s.pool := rfl
@[simp] theorem State.flash_setFld (f : Field) (b i v : Nat) : (s.setFld f b i v).flash = s.flash := rfl
@[simp] theorem State.fab_setFld (f : Field) (b i v : Nat) : (s.setFld f b i v).fab = s.fab := rfl
@[simp] theorem State.weav_setFld (f : Field) (b i v : Nat) : (s.setFld f b i v).weav = s.weav := rfl
@[simp] theorem State.eth_setFld (f : Field) (b i v : Nat) : (s.setFld f b i v).eth = s.eth := rfl
@[simp] theorem State.clk_setFld (f : Field) (b i v : Nat) : (s.setFld f b i v).clk = s.clk := rfl
@[simp] theorem State.out_setFld (f : Field) (b i v : Nat) : (s.setFld f b i v).out = s.out := rfl
@[simp] theorem State.freeCtr_setFld (f : Field) (b i v : Nat) : (s.setFld f b i v).freeCtr = s.freeCtr := rfl
@[simp] theorem State.pending_setFld (f : Field) (b i v : Nat) : (s.setFld f b i v).pending = s.pending := rfl

/-! ## bump -/

@[simp] theorem State.bulk_bump (f : Field) (b i n : Nat) : (s.bump f b i n).bulk = s.bulk := rfl
@[simp] theorem State.scache_bump (f : Field) (b i n : Nat) : (s.bump f b i n).scache = s.scache := rfl
@[simp] theorem State.stores_bump (f : Field) (b i n : Nat) : (s.bump f b i n).stores = s.stores := rfl
@[simp] theorem State.locals_bump (f : Field) (b i n : Nat) : (s.bump f b i n).locals = s.locals := rfl
@[simp] theorem State.sramErr_bump (f : Field) (b i n : Nat) : (s.bump f b i n).sramErr = s.sramErr := rfl
@[simp] theorem State.tinkers_bump (f : Field) (b i n : Nat) : (s.bump f b i n).tinkers = s.tinkers := rfl
@[simp] theorem State.cells_bump (f : Field) (b i n : Nat) : (s.bump f b i n).cells = s.cells := rfl
@[simp] theorem State.slices_bump (f : Field) (b i n : Nat) : (s.bump f b i n).slices = s.slices := rfl
@[simp] theorem State.stk_bump (f : Field) (b i n : Nat) : (s.bump f b i n).stk = s.stk := rfl
@[simp] theorem State.pool_bump (f : Field) (b i n : Nat) : (s.bump f b i n).pool = s.pool := rfl
@[simp] theorem State.flash_bump (f : Field) (b i n : Nat) : (s.bump f b i n).flash = s.flash := rfl
@[simp] theorem State.fab_bump (f : Field) (b i n : Nat) : (s.bump f b i n).fab = s.fab := rfl
@[simp] theorem State.weav_bump (f : Field) (b i n : Nat) : (s.bump f b i n).weav = s.weav := rfl
@[simp] theorem State.eth_bump (f : Field) (b i n : Nat) : (s.bump f b i n).eth = s.eth := rfl
@[simp] theorem State.clk_bump (f : Field) (b i n : Nat) : (s.bump f b i n).clk = s.clk := rfl
@[simp] theorem State.out_bump (f : Field) (b i n : Nat) : (s.bump f b i n).out = s.out := rfl
@[simp] theorem State.freeCtr_bump (f : Field) (b i n : Nat) : (s.bump f b i n).freeCtr = s.freeCtr := rfl
@[simp] theorem State.pending_bump (f : Field) (b i n : Nat) : (s.bump f b i n).pending = s.pending := rfl

/-! ## inc -/

@[simp] theorem State.bulk_inc (f : Field) (b i : Nat) : (s.inc f b i).bulk = s.bulk := rfl
@[simp] theorem State.scache_inc (f : Field) (b i : Nat) : (s.inc f b i).scache = s.scache := rfl
@[simp] theorem State.stores_inc (f : Field) (b i : Nat) : (s.inc f b i).stores = s.stores := rfl
@[simp] theorem State.locals_inc (f : Field) (b i : Nat) : (s.inc f b i).locals = s.locals := rfl
@[simp] theorem State.sramErr_inc (f : Field) (b i : Nat) : (s.inc f b i).sramErr = s.sramErr := rfl
@[simp] theorem State.tinkers_inc (f : Field) (b i : Nat) : (s.inc f b i).tinkers = s.tinkers := rfl
@[simp] theorem State.cells_inc (f : Field) (b i : Nat) : (s.inc f b i).cells = s.cells := rfl
@[simp] theorem State.slices_inc (f : Field) (b i : Nat) : (s.inc f b i).slices = s.slices := rfl
@[simp] theorem State.stk_inc (f : Field) (b i : Nat) : (s.inc f b i).stk = s.stk := rfl
@[simp] theorem State.pool_inc (f : Field) (b i : Nat) : (s.inc f b i).pool = s.pool := rfl
@[simp] theorem State.flash_inc (f : Field) (b i : Nat) : (s.inc f b i).flash = s.flash := rfl
@[simp] theorem State.fab_inc (f : Field) (b i : Nat) : (s.inc f b i).fab = s.fab := rfl
@[simp] theorem State.weav_inc (f : Field) (b i : Nat) : (s.inc f b i).weav = s.weav := rfl
@[simp] theorem State.eth_inc (f : Field) (b i : Nat) : (s.inc f b i).eth = s.eth := rfl
@[simp] theorem State.clk_inc (f : Field) (b i : Nat) : (s.inc f b i).clk = s.clk := rfl
@[simp] theorem State.out_inc (f : Field) (b i : Nat) : (s.inc f b i).out = s.out := rfl
@[simp] theorem State.freeCtr_inc (f : Field) (b i : Nat) : (s.inc f b i).freeCtr = s.freeCtr := rfl
@[simp] theorem State.pending_inc (f : Field) (b i : Nat) : (s.inc f b i).pending = s.pending := rfl

/-! ## setBit -/

@[simp] theorem State.bulk_setBit (f : Field) (b i n : Nat) (v : Bool) : (s.setBit f b i n v).bulk = s.bulk := rfl
@[simp] theorem State.scache_setBit (f : Field) (b i n : Nat) (v : Bool) : (s.setBit f b i n v).scache = s.scache := rfl
@[simp] theorem State.stores_setBit (f : Field) (b i n : Nat) (v : Bool) : (s.setBit f b i n v).stores = s.stores := rfl
@[simp] theorem State.locals_setBit (f : Field) (b i n : Nat) (v : Bool) : (s.setBit f b i n v).locals = s.locals := rfl
@[simp] theorem State.sramErr_setBit (f : Field) (b i n : Nat) (v : Bool) : (s.setBit f b i n v).sramErr = s.sramErr := rfl
@[simp] theorem State.tinkers_setBit (f : Field) (b i n : Nat) (v : Bool) : (s.setBit f b i n v).tinkers = s.tinkers := rfl
@[simp] theorem State.cells_setBit (f : Field) (b i n : Nat) (v : Bool) : (s.setBit f b i n v).cells = s.cells := rfl
@[simp] theorem State.slices_setBit (f : Field) (b i n : Nat) (v : Bool) : (s.setBit f b i n v).slices = s.slices := rfl
@[simp] theorem State.stk_setBit (f : Field) (b i n : Nat) (v : Bool) : (s.setBit f b i n v).stk = s.stk := rfl
@[simp] theorem State.pool_setBit (f : Field) (b i n : Nat) (v : Bool) : (s.setBit f b i n v).pool = s.pool := rfl
@[simp] theorem State.flash_setBit (f : Field) (b i n : Nat) (v : Bool) : (s.setBit f b i n v).flash = s.flash := rfl
@[simp] theorem State.fab_setBit (f : Field) (b i n : Nat) (v : Bool) : (s.setBit f b i n v).fab = s.fab := rfl
@[simp] theorem State.weav_setBit (f : Field) (b i n : Nat) (v : Bool) : (s.setBit f b i n v).weav = s.weav := rfl
@[simp] theorem State.eth_setBit (f : Field) (b i n : Nat) (v : Bool) : (s.setBit f b i n v).eth = s.eth := rfl
@[simp] theorem State.clk_setBit (f : Field) (b i n : Nat) (v : Bool) : (s.setBit f b i n v).clk = s.clk := rfl
@[simp] theorem State.out_setBit (f : Field) (b i n : Nat) (v : Bool) : (s.setBit f b i n v).out = s.out := rfl
@[simp] theorem State.freeCtr_setBit (f : Field) (b i n : Nat) (v : Bool) : (s.setBit f b i n v).freeCtr = s.freeCtr := rfl
@[simp] theorem State.pending_setBit (f : Field) (b i n : Nat) (v : Bool) : (s.setBit f b i n v).pending = s.pending := rfl

/-! ## setTinker -/

@[simp] theorem State.regs_setTinker (k : Nat) (x : Tinker) : (s.setTinker k x).regs = s.regs := rfl
@[simp] theorem State.bulk_setTinker (k : Nat) (x : Tinker) : (s.setTinker k x).bulk = s.bulk := rfl
@[simp] theorem State.scache_setTinker (k : Nat) (x : Tinker) : (s.setTinker k x).scache = s.scache := rfl
@[simp] theorem State.stores_setTinker (k : Nat) (x : Tinker) : (s.setTinker k x).stores = s.stores := rfl
@[simp] theorem State.locals_setTinker (k : Nat) (x : Tinker) : (s.setTinker k x).locals = s.locals := rfl
@[simp] theorem State.sramErr_setTinker (k : Nat) (x : Tinker) : (s.setTinker k x).sramErr = s.sramErr := rfl
@[simp] theorem State.cells_setTinker (k : Nat) (x : Tinker) : (s.setTinker k x).cells = s.cells := rfl
@[simp] theorem State.slices_setTinker (k : Nat) (x : Tinker) : (s.setTinker k x).slices = s.slices := rfl
@[simp] theorem State.stk_setTinker (k : Nat) (x : Tinker) : (s.setTinker k x).stk = s.stk := rfl
@[simp] theorem State.pool_setTinker (k : Nat) (x : Tinker) : (s.setTinker k x).pool = s.pool := rfl
@[simp] theorem State.flash_setTinker (k : Nat) (x : Tinker) : (s.setTinker k x).flash = s.flash := rfl
@[simp] theorem State.fab_setTinker (k : Nat) (x : Tinker) : (s.setTinker k x).fab = s.fab := rfl
@[simp] theorem State.weav_setTinker (k : Nat) (x : Tinker) : (s.setTinker k x).weav = s.weav := rfl
@[simp] theorem State.eth_setTinker (k : Nat) (x : Tinker) : (s.setTinker k x).eth = s.eth := rfl
@[simp] theorem State.clk_setTinker (k : Nat) (x : Tinker) : (s.setTinker k x).clk = s.clk := rfl
@[simp] theorem State.out_setTinker (k : Nat) (x : Tinker) : (s.setTinker k x).out = s.out := rfl
@[simp] theorem State.freeCtr_setTinker (k : Nat) (x : Tinker) : (s.setTinker k x).freeCtr = s.freeCtr := rfl
@[simp] theorem State.pending_setTinker (k : Nat) (x : Tinker) : (s.setTinker k x).pending = s.pending := rfl

/-! ## onTinker -/

@[simp] theorem State.regs_onTinker (k : Nat) (f : Tinker → Tinker) : (s.onTinker k f).regs = s.regs := rfl
@[simp] theorem State.bulk_onTinker (k : Nat) (f : Tinker → Tinker) : (s.onTinker k f).bulk = s.bulk := rfl
@[simp] theorem State.scache_onTinker (k : Nat) (f : Tinker → Tinker) : (s.onTinker k f).scache = s.scache := rfl
@[simp] theorem State.stores_onTinker (k : Nat) (f : Tinker → Tinker) : (s.onTinker k f).stores = s.stores := rfl
@[simp] theorem State.locals_onTinker (k : Nat) (f : Tinker → Tinker) : (s.onTinker k f).locals = s.locals := rfl
@[simp] theorem State.sramErr_onTinker (k : Nat) (f : Tinker → Tinker) : (s.onTinker k f).sramErr = s.sramErr := rfl
@[simp] theorem State.cells_onTinker (k : Nat) (f : Tinker → Tinker) : (s.onTinker k f).cells = s.cells := rfl
@[simp] theorem State.slices_onTinker (k : Nat) (f : Tinker → Tinker) : (s.onTinker k f).slices = s.slices := rfl
@[simp] theorem State.stk_onTinker (k : Nat) (f : Tinker → Tinker) : (s.onTinker k f).stk = s.stk := rfl
@[simp] theorem State.pool_onTinker (k : Nat) (f : Tinker → Tinker) : (s.onTinker k f).pool = s.pool := rfl
@[simp] theorem State.flash_onTinker (k : Nat) (f : Tinker → Tinker) : (s.onTinker k f).flash = s.flash := rfl
@[simp] theorem State.fab_onTinker (k : Nat) (f : Tinker → Tinker) : (s.onTinker k f).fab = s.fab := rfl
@[simp] theorem State.weav_onTinker (k : Nat) (f : Tinker → Tinker) : (s.onTinker k f).weav = s.weav := rfl
@[simp] theorem State.eth_onTinker (k : Nat) (f : Tinker → Tinker) : (s.onTinker k f).eth = s.eth := rfl
@[simp] theorem State.clk_onTinker (k : Nat) (f : Tinker → Tinker) : (s.onTinker k f).clk = s.clk := rfl
@[simp] theorem State.out_onTinker (k : Nat) (f : Tinker → Tinker) : (s.onTinker k f).out = s.out := rfl
@[simp] theorem State.freeCtr_onTinker (k : Nat) (f : Tinker → Tinker) : (s.onTinker k f).freeCtr = s.freeCtr := rfl
@[simp] theorem State.pending_onTinker (k : Nat) (f : Tinker → Tinker) : (s.onTinker k f).pending = s.pending := rfl

/-! ## setCell -/

@[simp] theorem State.regs_setCell (c : Nat) (x : CellSt) : (s.setCell c x).regs = s.regs := rfl
@[simp] theorem State.bulk_setCell (c : Nat) (x : CellSt) : (s.setCell c x).bulk = s.bulk := rfl
@[simp] theorem State.scache_setCell (c : Nat) (x : CellSt) : (s.setCell c x).scache = s.scache := rfl
@[simp] theorem State.stores_setCell (c : Nat) (x : CellSt) : (s.setCell c x).stores = s.stores := rfl
@[simp] theorem State.locals_setCell (c : Nat) (x : CellSt) : (s.setCell c x).locals = s.locals := rfl
@[simp] theorem State.sramErr_setCell (c : Nat) (x : CellSt) : (s.setCell c x).sramErr = s.sramErr := rfl
@[simp] theorem State.tinkers_setCell (c : Nat) (x : CellSt) : (s.setCell c x).tinkers = s.tinkers := rfl
@[simp] theorem State.slices_setCell (c : Nat) (x : CellSt) : (s.setCell c x).slices = s.slices := rfl
@[simp] theorem State.stk_setCell (c : Nat) (x : CellSt) : (s.setCell c x).stk = s.stk := rfl
@[simp] theorem State.pool_setCell (c : Nat) (x : CellSt) : (s.setCell c x).pool = s.pool := rfl
@[simp] theorem State.flash_setCell (c : Nat) (x : CellSt) : (s.setCell c x).flash = s.flash := rfl
@[simp] theorem State.fab_setCell (c : Nat) (x : CellSt) : (s.setCell c x).fab = s.fab := rfl
@[simp] theorem State.weav_setCell (c : Nat) (x : CellSt) : (s.setCell c x).weav = s.weav := rfl
@[simp] theorem State.eth_setCell (c : Nat) (x : CellSt) : (s.setCell c x).eth = s.eth := rfl
@[simp] theorem State.clk_setCell (c : Nat) (x : CellSt) : (s.setCell c x).clk = s.clk := rfl
@[simp] theorem State.out_setCell (c : Nat) (x : CellSt) : (s.setCell c x).out = s.out := rfl
@[simp] theorem State.freeCtr_setCell (c : Nat) (x : CellSt) : (s.setCell c x).freeCtr = s.freeCtr := rfl
@[simp] theorem State.pending_setCell (c : Nat) (x : CellSt) : (s.setCell c x).pending = s.pending := rfl

/-! ## onCell -/

@[simp] theorem State.regs_onCell (c : Nat) (f : CellSt → CellSt) : (s.onCell c f).regs = s.regs := rfl
@[simp] theorem State.bulk_onCell (c : Nat) (f : CellSt → CellSt) : (s.onCell c f).bulk = s.bulk := rfl
@[simp] theorem State.scache_onCell (c : Nat) (f : CellSt → CellSt) : (s.onCell c f).scache = s.scache := rfl
@[simp] theorem State.stores_onCell (c : Nat) (f : CellSt → CellSt) : (s.onCell c f).stores = s.stores := rfl
@[simp] theorem State.locals_onCell (c : Nat) (f : CellSt → CellSt) : (s.onCell c f).locals = s.locals := rfl
@[simp] theorem State.sramErr_onCell (c : Nat) (f : CellSt → CellSt) : (s.onCell c f).sramErr = s.sramErr := rfl
@[simp] theorem State.tinkers_onCell (c : Nat) (f : CellSt → CellSt) : (s.onCell c f).tinkers = s.tinkers := rfl
@[simp] theorem State.slices_onCell (c : Nat) (f : CellSt → CellSt) : (s.onCell c f).slices = s.slices := rfl
@[simp] theorem State.stk_onCell (c : Nat) (f : CellSt → CellSt) : (s.onCell c f).stk = s.stk := rfl
@[simp] theorem State.pool_onCell (c : Nat) (f : CellSt → CellSt) : (s.onCell c f).pool = s.pool := rfl
@[simp] theorem State.flash_onCell (c : Nat) (f : CellSt → CellSt) : (s.onCell c f).flash = s.flash := rfl
@[simp] theorem State.fab_onCell (c : Nat) (f : CellSt → CellSt) : (s.onCell c f).fab = s.fab := rfl
@[simp] theorem State.weav_onCell (c : Nat) (f : CellSt → CellSt) : (s.onCell c f).weav = s.weav := rfl
@[simp] theorem State.eth_onCell (c : Nat) (f : CellSt → CellSt) : (s.onCell c f).eth = s.eth := rfl
@[simp] theorem State.clk_onCell (c : Nat) (f : CellSt → CellSt) : (s.onCell c f).clk = s.clk := rfl
@[simp] theorem State.out_onCell (c : Nat) (f : CellSt → CellSt) : (s.onCell c f).out = s.out := rfl
@[simp] theorem State.freeCtr_onCell (c : Nat) (f : CellSt → CellSt) : (s.onCell c f).freeCtr = s.freeCtr := rfl
@[simp] theorem State.pending_onCell (c : Nat) (f : CellSt → CellSt) : (s.onCell c f).pending = s.pending := rfl

/-! ## setQueue -/

@[simp] theorem State.regs_setQueue (c q : Nat) (l : List QEnt) : (s.setQueue c q l).regs = s.regs := rfl
@[simp] theorem State.bulk_setQueue (c q : Nat) (l : List QEnt) : (s.setQueue c q l).bulk = s.bulk := rfl
@[simp] theorem State.scache_setQueue (c q : Nat) (l : List QEnt) : (s.setQueue c q l).scache = s.scache := rfl
@[simp] theorem State.stores_setQueue (c q : Nat) (l : List QEnt) : (s.setQueue c q l).stores = s.stores := rfl
@[simp] theorem State.locals_setQueue (c q : Nat) (l : List QEnt) : (s.setQueue c q l).locals = s.locals := rfl
@[simp] theorem State.sramErr_setQueue (c q : Nat) (l : List QEnt) : (s.setQueue c q l).sramErr = s.sramErr := rfl
@[simp] theorem State.tinkers_setQueue (c q : Nat) (l : List QEnt) : (s.setQueue c q l).tinkers = s.tinkers := rfl
@[simp] theorem State.slices_setQueue (c q : Nat) (l : List QEnt) : (s.setQueue c q l).slices = s.slices := rfl
@[simp] theorem State.stk_setQueue (c q : Nat) (l : List QEnt) : (s.setQueue c q l).stk = s.stk := rfl
@[simp] theorem State.pool_setQueue (c q : Nat) (l : List QEnt) : (s.setQueue c q l).pool = s.pool := rfl
@[simp] theorem State.flash_setQueue (c q : Nat) (l : List QEnt) : (s.setQueue c q l).flash = s.flash := rfl
@[simp] theorem State.fab_setQueue (c q : Nat) (l : List QEnt) : (s.setQueue c q l).fab = s.fab := rfl
@[simp] theorem State.weav_setQueue (c q : Nat) (l : List QEnt) : (s.setQueue c q l).weav = s.weav := rfl
@[simp] theorem State.eth_setQueue (c q : Nat) (l : List QEnt) : (s.setQueue c q l).eth = s.eth := rfl
@[simp] theorem State.clk_setQueue (c q : Nat) (l : List QEnt) : (s.setQueue c q l).clk = s.clk := rfl
@[simp] theorem State.out_setQueue (c q : Nat) (l : List QEnt) : (s.setQueue c q l).out = s.out := rfl
@[simp] theorem State.freeCtr_setQueue (c q : Nat) (l : List QEnt) : (s.setQueue c q l).freeCtr = s.freeCtr := rfl
@[simp] theorem State.pending_setQueue (c q : Nat) (l : List QEnt) : (s.setQueue c q l).pending = s.pending := rfl

/-! ## putCmd -/

@[simp] theorem State.regs_putCmd (c : Nat) (k : Cmd) : (s.putCmd c k).regs = s.regs := rfl
@[simp] theorem State.bulk_putCmd (c : Nat) (k : Cmd) : (s.putCmd c k).bulk = s.bulk := rfl
@[simp] theorem State.scache_putCmd (c : Nat) (k : Cmd) : (s.putCmd c k).scache = s.scache := rfl
@[simp] theorem State.stores_putCmd (c : Nat) (k : Cmd) : (s.putCmd c k).stores = s.stores := rfl
@[simp] theorem State.locals_putCmd (c : Nat) (k : Cmd) : (s.putCmd c k).locals = s.locals := rfl
@[simp] theorem State.sramErr_putCmd (c : Nat) (k : Cmd) : (s.putCmd c k).sramErr = s.sramErr := rfl
@[simp] theorem State.tinkers_putCmd (c : Nat) (k : Cmd) : (s.putCmd c k).tinkers = s.tinkers := rfl
@[simp] theorem State.slices_putCmd (c : Nat) (k : Cmd) : (s.putCmd c k).slices = s.slices := rfl
@[simp] theorem State.stk_putCmd (c : Nat) (k : Cmd) : (s.putCmd c k).stk = s.stk := rfl
@[simp] theorem State.pool_putCmd (c : Nat) (k : Cmd) : (s.putCmd c k).pool = s.pool := rfl
@[simp] theorem State.flash_putCmd (c : Nat) (k : Cmd) : (s.putCmd c k).flash = s.flash := rfl
@[simp] theorem State.fab_putCmd (c : Nat) (k : Cmd) : (s.putCmd c k).fab = s.fab := rfl
@[simp] theorem State.weav_putCmd (c : Nat) (k : Cmd) : (s.putCmd c k).weav = s.weav := rfl
@[simp] theorem State.eth_putCmd (c : Nat) (k : Cmd) : (s.putCmd c k).eth = s.eth := rfl
@[simp] theorem State.clk_putCmd (c : Nat) (k : Cmd) : (s.putCmd c k).clk = s.clk := rfl
@[simp] theorem State.out_putCmd (c : Nat) (k : Cmd) : (s.putCmd c k).out = s.out := rfl
@[simp] theorem State.freeCtr_putCmd (c : Nat) (k : Cmd) : (s.putCmd c k).freeCtr = s.freeCtr := rfl
@[simp] theorem State.pending_putCmd (c : Nat) (k : Cmd) : (s.putCmd c k).pending = s.pending := rfl

/-! ## setFrame -/

@[simp] theorem State.regs_setFrame (f : Nat) (x : FrameInfo) : (s.setFrame f x).regs = s.regs := rfl
@[simp] theorem State.bulk_setFrame (f : Nat) (x : FrameInfo) : (s.setFrame f x).bulk = s.bulk := rfl
@[simp] theorem State.scache_setFrame (f : Nat) (x : FrameInfo) : (s.setFrame f x).scache = s.scache := rfl
@[simp] theorem State.stores_setFrame (f : Nat) (x : FrameInfo) : (s.setFrame f x).stores = s.stores := rfl
@[simp] theorem State.locals_setFrame (f : Nat) (x : FrameInfo) : (s.setFrame f x).locals = s.locals := rfl
@[simp] theorem State.sramErr_setFrame (f : Nat) (x : FrameInfo) : (s.setFrame f x).sramErr = s.sramErr := rfl
@[simp] theorem State.tinkers_setFrame (f : Nat) (x : FrameInfo) : (s.setFrame f x).tinkers = s.tinkers := rfl
@[simp] theorem State.cells_setFrame (f : Nat) (x : FrameInfo) : (s.setFrame f x).cells = s.cells := rfl
@[simp] theorem State.slices_setFrame (f : Nat) (x : FrameInfo) : (s.setFrame f x).slices = s.slices := rfl
@[simp] theorem State.stk_setFrame (f : Nat) (x : FrameInfo) : (s.setFrame f x).stk = s.stk := rfl
@[simp] theorem State.flash_setFrame (f : Nat) (x : FrameInfo) : (s.setFrame f x).flash = s.flash := rfl
@[simp] theorem State.fab_setFrame (f : Nat) (x : FrameInfo) : (s.setFrame f x).fab = s.fab := rfl
@[simp] theorem State.weav_setFrame (f : Nat) (x : FrameInfo) : (s.setFrame f x).weav = s.weav := rfl
@[simp] theorem State.eth_setFrame (f : Nat) (x : FrameInfo) : (s.setFrame f x).eth = s.eth := rfl
@[simp] theorem State.clk_setFrame (f : Nat) (x : FrameInfo) : (s.setFrame f x).clk = s.clk := rfl
@[simp] theorem State.out_setFrame (f : Nat) (x : FrameInfo) : (s.setFrame f x).out = s.out := rfl
@[simp] theorem State.freeCtr_setFrame (f : Nat) (x : FrameInfo) : (s.setFrame f x).freeCtr = s.freeCtr := rfl
@[simp] theorem State.pending_setFrame (f : Nat) (x : FrameInfo) : (s.setFrame f x).pending = s.pending := rfl

/-! ## setBurstErr -/

@[simp] theorem State.regs_setBurstErr (a : Nat) (e : List (Nat × Byte)) : (s.setBurstErr a e).regs = s.regs := rfl
@[simp] theorem State.bulk_setBurstErr (a : Nat) (e : List (Nat × Byte)) : (s.setBurstErr a e).bulk = s.bulk := rfl
@[simp] theorem State.scache_setBurstErr (a : Nat) (e : List (Nat × Byte)) : (s.setBurstErr a e).scache = s.scache := rfl
@[simp] theorem State.stores_setBurstErr (a : Nat) (e : List (Nat × Byte)) : (s.setBurstErr a e).stores = s.stores := rfl
@[simp] theorem State.locals_setBurstErr (a : Nat) (e : List (Nat × Byte)) : (s.setBurstErr a e).locals = s.locals := rfl
@[simp] theorem State.sramErr_setBurstErr (a : Nat) (e : List (Nat × Byte)) : (s.setBurstErr a e).sramErr = s.sramErr := rfl
@[simp] theorem State.tinkers_setBurstErr (a : Nat) (e : List (Nat × Byte)) : (s.setBurstErr a e).tinkers = s.tinkers := rfl
@[simp] theorem State.cells_setBurstErr (a : Nat) (e : List (Nat × Byte)) : (s.setBurstErr a e).cells = s.cells := rfl
@[simp] theorem State.slices_setBurstErr (a : Nat) (e : List (Nat × Byte)) : (s.setBurstErr a e).slices = s.slices := rfl
@[simp] theorem State.pool_setBurstErr (a : Nat) (e : List (Nat × Byte)) : (s.setBurstErr a e).pool = s.pool := rfl
@[simp] theorem State.flash_setBurstErr (a : Nat) (e : List (Nat × Byte)) : (s.setBurstErr a e).flash = s.flash := rfl
@[simp] theorem State.fab_setBurstErr (a : Nat) (e : List (Nat × Byte)) : (s.setBurstErr a e).fab = s.fab := rfl
@[simp] theorem State.weav_setBurstErr (a : Nat) (e : List (Nat × Byte)) : (s.setBurstErr a e).weav = s.weav := rfl
@[simp] theorem State.eth_setBurstErr (a : Nat) (e : List (Nat × Byte)) : (s.setBurstErr a e).eth = s.eth := rfl
@[simp] theorem State.clk_setBurstErr (a : Nat) (e : List (Nat × Byte)) : (s.setBurstErr a e).clk = s.clk := rfl
@[simp] theorem State.out_setBurstErr (a : Nat) (e : List (Nat × Byte)) : (s.setBurstErr a e).out = s.out := rfl
@[simp] theorem State.freeCtr_setBurstErr (a : Nat) (e : List (Nat × Byte)) : (s.setBurstErr a e).freeCtr = s.freeCtr := rfl
@[simp] theorem State.pending_setBurstErr (a : Nat) (e : List (Nat × Byte)) : (s.setBurstErr a e).pending = s.pending := rfl

/-! ## clearBursts -/

@[simp] theorem State.regs_clearBursts (f : Nat) : (s.clearBursts f).regs = s.regs := rfl
@[simp] theorem State.bulk_clearBursts (f : Nat) : (s.clearBursts f).bulk = s.bulk := rfl
@[simp] theorem State.scache_clearBursts (f : Nat) : (s.clearBursts f).scache = s.scache := rfl
@[simp] theorem State.stores_clearBursts (f : Nat) : (s.clearBursts f).stores = s.stores := rfl
@[simp] theorem State.locals_clearBursts (f : Nat) : (s.clearBursts f).locals = s.locals := rfl
@[simp] theorem State.sramErr_clearBursts (f : Nat) : (s.clearBursts f).sramErr = s.sramErr := rfl
@[simp] theorem State.tinkers_clearBursts (f : Nat) : (s.clearBursts f).tinkers = s.tinkers := rfl
@[simp] theorem State.cells_clearBursts (f : Nat) : (s.clearBursts f).cells = s.cells := rfl
@[simp] theorem State.slices_clearBursts (f : Nat) : (s.clearBursts f).slices = s.slices := rfl
@[simp] theorem State.pool_clearBursts (f : Nat) : (s.clearBursts f).pool = s.pool := rfl
@[simp] theorem State.flash_clearBursts (f : Nat) : (s.clearBursts f).flash = s.flash := rfl
@[simp] theorem State.fab_clearBursts (f : Nat) : (s.clearBursts f).fab = s.fab := rfl
@[simp] theorem State.weav_clearBursts (f : Nat) : (s.clearBursts f).weav = s.weav := rfl
@[simp] theorem State.eth_clearBursts (f : Nat) : (s.clearBursts f).eth = s.eth := rfl
@[simp] theorem State.clk_clearBursts (f : Nat) : (s.clearBursts f).clk = s.clk := rfl
@[simp] theorem State.out_clearBursts (f : Nat) : (s.clearBursts f).out = s.out := rfl
@[simp] theorem State.freeCtr_clearBursts (f : Nat) : (s.clearBursts f).freeCtr = s.freeCtr := rfl
@[simp] theorem State.pending_clearBursts (f : Nat) : (s.clearBursts f).pending = s.pending := rfl

/-! ## noteSramUe -/

@[simp] theorem State.regs_noteSramUe : (s.noteSramUe).regs = s.regs := rfl
@[simp] theorem State.bulk_noteSramUe : (s.noteSramUe).bulk = s.bulk := rfl
@[simp] theorem State.scache_noteSramUe : (s.noteSramUe).scache = s.scache := rfl
@[simp] theorem State.stores_noteSramUe : (s.noteSramUe).stores = s.stores := rfl
@[simp] theorem State.locals_noteSramUe : (s.noteSramUe).locals = s.locals := rfl
@[simp] theorem State.sramErr_noteSramUe : (s.noteSramUe).sramErr = s.sramErr := rfl
@[simp] theorem State.tinkers_noteSramUe : (s.noteSramUe).tinkers = s.tinkers := rfl
@[simp] theorem State.cells_noteSramUe : (s.noteSramUe).cells = s.cells := rfl
@[simp] theorem State.slices_noteSramUe : (s.noteSramUe).slices = s.slices := rfl
@[simp] theorem State.stk_noteSramUe : (s.noteSramUe).stk = s.stk := rfl
@[simp] theorem State.pool_noteSramUe : (s.noteSramUe).pool = s.pool := rfl
@[simp] theorem State.flash_noteSramUe : (s.noteSramUe).flash = s.flash := rfl
@[simp] theorem State.fab_noteSramUe : (s.noteSramUe).fab = s.fab := rfl
@[simp] theorem State.weav_noteSramUe : (s.noteSramUe).weav = s.weav := rfl
@[simp] theorem State.eth_noteSramUe : (s.noteSramUe).eth = s.eth := rfl
@[simp] theorem State.out_noteSramUe : (s.noteSramUe).out = s.out := rfl
@[simp] theorem State.freeCtr_noteSramUe : (s.noteSramUe).freeCtr = s.freeCtr := rfl
@[simp] theorem State.pending_noteSramUe : (s.noteSramUe).pending = s.pending := rfl

/-! ## setPort -/

@[simp] theorem State.regs_setPort (p : Nat) (x : PortSt) : (s.setPort p x).regs = s.regs := rfl
@[simp] theorem State.bulk_setPort (p : Nat) (x : PortSt) : (s.setPort p x).bulk = s.bulk := rfl
@[simp] theorem State.scache_setPort (p : Nat) (x : PortSt) : (s.setPort p x).scache = s.scache := rfl
@[simp] theorem State.stores_setPort (p : Nat) (x : PortSt) : (s.setPort p x).stores = s.stores := rfl
@[simp] theorem State.locals_setPort (p : Nat) (x : PortSt) : (s.setPort p x).locals = s.locals := rfl
@[simp] theorem State.sramErr_setPort (p : Nat) (x : PortSt) : (s.setPort p x).sramErr = s.sramErr := rfl
@[simp] theorem State.tinkers_setPort (p : Nat) (x : PortSt) : (s.setPort p x).tinkers = s.tinkers := rfl
@[simp] theorem State.cells_setPort (p : Nat) (x : PortSt) : (s.setPort p x).cells = s.cells := rfl
@[simp] theorem State.slices_setPort (p : Nat) (x : PortSt) : (s.setPort p x).slices = s.slices := rfl
@[simp] theorem State.stk_setPort (p : Nat) (x : PortSt) : (s.setPort p x).stk = s.stk := rfl
@[simp] theorem State.pool_setPort (p : Nat) (x : PortSt) : (s.setPort p x).pool = s.pool := rfl
@[simp] theorem State.flash_setPort (p : Nat) (x : PortSt) : (s.setPort p x).flash = s.flash := rfl
@[simp] theorem State.weav_setPort (p : Nat) (x : PortSt) : (s.setPort p x).weav = s.weav := rfl
@[simp] theorem State.eth_setPort (p : Nat) (x : PortSt) : (s.setPort p x).eth = s.eth := rfl
@[simp] theorem State.clk_setPort (p : Nat) (x : PortSt) : (s.setPort p x).clk = s.clk := rfl
@[simp] theorem State.out_setPort (p : Nat) (x : PortSt) : (s.setPort p x).out = s.out := rfl
@[simp] theorem State.freeCtr_setPort (p : Nat) (x : PortSt) : (s.setPort p x).freeCtr = s.freeCtr := rfl
@[simp] theorem State.pending_setPort (p : Nat) (x : PortSt) : (s.setPort p x).pending = s.pending := rfl

/-! ## send -/

@[simp] theorem State.regs_send (o : Out) : (s.send o).regs = s.regs := rfl
@[simp] theorem State.bulk_send (o : Out) : (s.send o).bulk = s.bulk := rfl
@[simp] theorem State.scache_send (o : Out) : (s.send o).scache = s.scache := rfl
@[simp] theorem State.stores_send (o : Out) : (s.send o).stores = s.stores := rfl
@[simp] theorem State.locals_send (o : Out) : (s.send o).locals = s.locals := rfl
@[simp] theorem State.sramErr_send (o : Out) : (s.send o).sramErr = s.sramErr := rfl
@[simp] theorem State.tinkers_send (o : Out) : (s.send o).tinkers = s.tinkers := rfl
@[simp] theorem State.cells_send (o : Out) : (s.send o).cells = s.cells := rfl
@[simp] theorem State.slices_send (o : Out) : (s.send o).slices = s.slices := rfl
@[simp] theorem State.stk_send (o : Out) : (s.send o).stk = s.stk := rfl
@[simp] theorem State.pool_send (o : Out) : (s.send o).pool = s.pool := rfl
@[simp] theorem State.flash_send (o : Out) : (s.send o).flash = s.flash := rfl
@[simp] theorem State.fab_send (o : Out) : (s.send o).fab = s.fab := rfl
@[simp] theorem State.weav_send (o : Out) : (s.send o).weav = s.weav := rfl
@[simp] theorem State.eth_send (o : Out) : (s.send o).eth = s.eth := rfl
@[simp] theorem State.clk_send (o : Out) : (s.send o).clk = s.clk := rfl
@[simp] theorem State.freeCtr_send (o : Out) : (s.send o).freeCtr = s.freeCtr := rfl
@[simp] theorem State.pending_send (o : Out) : (s.send o).pending = s.pending := rfl

/-! ## draw -/

@[simp] theorem State.regs_draw : s.draw.2.regs = s.regs := rfl
@[simp] theorem State.bulk_draw : s.draw.2.bulk = s.bulk := rfl
@[simp] theorem State.scache_draw : s.draw.2.scache = s.scache := rfl
@[simp] theorem State.stores_draw : s.draw.2.stores = s.stores := rfl
@[simp] theorem State.locals_draw : s.draw.2.locals = s.locals := rfl
@[simp] theorem State.sramErr_draw : s.draw.2.sramErr = s.sramErr := rfl
@[simp] theorem State.tinkers_draw : s.draw.2.tinkers = s.tinkers := rfl
@[simp] theorem State.cells_draw : s.draw.2.cells = s.cells := rfl
@[simp] theorem State.slices_draw : s.draw.2.slices = s.slices := rfl
@[simp] theorem State.stk_draw : s.draw.2.stk = s.stk := rfl
@[simp] theorem State.pool_draw : s.draw.2.pool = s.pool := rfl
@[simp] theorem State.flash_draw : s.draw.2.flash = s.flash := rfl
@[simp] theorem State.fab_draw : s.draw.2.fab = s.fab := rfl
@[simp] theorem State.weav_draw : s.draw.2.weav = s.weav := rfl
@[simp] theorem State.eth_draw : s.draw.2.eth = s.eth := rfl
@[simp] theorem State.clk_draw : s.draw.2.clk = s.clk := rfl
@[simp] theorem State.out_draw : s.draw.2.out = s.out := rfl
@[simp] theorem State.pending_draw : s.draw.2.pending = s.pending := rfl
@[simp] theorem State.freeCtr_draw : s.draw.2.freeCtr = s.freeCtr + 1 := rfl

/-! ## Reads of the part that was set -/

@[simp] theorem State.tinker_set_self (k : Nat) (x : Tinker) : (s.setTinker k x).tinker k = x :=
  Tab.get_set_self _ _ _ _

theorem State.tinker_set_other {j k : Nat} (x : Tinker) (h : j ≠ k) : (s.setTinker k x).tinker j = s.tinker j :=
  Tab.get_set_other _ _ _ h

@[simp] theorem State.cell_set_self (c : Nat) (x : CellSt) : (s.setCell c x).cell c = x :=
  Tab.get_set_self _ _ _ _

theorem State.cell_set_other {c d : Nat} (x : CellSt) (h : d ≠ c) : (s.setCell c x).cell d = s.cell d :=
  Tab.get_set_other _ _ _ h

@[simp] theorem State.cell_on_self (c : Nat) (f : CellSt → CellSt) : (s.onCell c f).cell c = f (s.cell c) :=
  Tab.get_set_self _ _ _ _

theorem State.cell_on_other {c d : Nat} (f : CellSt → CellSt) (h : d ≠ c) : (s.onCell c f).cell d = s.cell d :=
  Tab.get_set_other _ _ _ h

@[simp] theorem State.reg_set_self (o : Nat) (v : BitVec 64) : (s.setReg o v).reg o = v :=
  Tab.get_set_self _ _ _ _

theorem State.reg_set_other {o p : Nat} (v : BitVec 64) (h : p ≠ o) : (s.setReg o v).reg p = s.reg p :=
  Tab.get_set_other _ _ _ h

@[simp] theorem State.frame_set_self (f : Nat) (x : FrameInfo) : (s.setFrame f x).frame f = x :=
  Tab.get_set_self _ _ _ _

theorem State.frame_set_other {f g : Nat} (x : FrameInfo) (h : g ≠ f) : (s.setFrame f x).frame g = s.frame g :=
  Tab.get_set_other _ _ _ h

@[simp] theorem State.queue_set_self (c q : Nat) (l : List QEnt) : (s.setQueue c q l).queue c q = l := by
  simp [State.queue, State.setQueue]

theorem State.queue_set_other {c d q r : Nat} (l : List QEnt) (h : d ≠ c ∨ r ≠ q) :
    (s.setQueue c q l).queue d r = s.queue d r := by
  by_cases hd : d = c
  · subst hd
    simp [State.queue, State.setQueue, Tab.get_set_other _ _ _ (h.resolve_left (fun k => k rfl))]
  · simp [State.queue, State.setQueue, State.cell_on_other s _ hd]

@[simp] theorem State.port_set_self (p : Nat) (x : PortSt) : (s.setPort p x).port p = x :=
  Tab.get_set_self _ _ _ _

theorem State.port_set_other {p q : Nat} (x : PortSt) (h : q ≠ p) : (s.setPort p x).port q = s.port q :=
  Tab.get_set_other _ _ _ h

/-- Setting a port's LINK sets that field and the port's bit of PORT_UP. -/
@[simp] theorem State.set_link (p v : Nat) : s.setLink p v =
    (s.setFld Fd.scecyStateLink p 0 v).setBit Fd.fabPortUp 0 0 p (decide (v = 2)) := by unfold State.setLink; rfl

/-- Registers, cells and Tinkers do not see each other's updates. -/
@[simp] theorem State.reg_set_tinker (k o : Nat) (x : Tinker) : (s.setTinker k x).reg o = s.reg o := rfl
@[simp] theorem State.reg_set_cell (c o : Nat) (x : CellSt) : (s.setCell c x).reg o = s.reg o := rfl
@[simp] theorem State.fld_set_tinker (k : Nat) (x : Tinker) (f : Field) (b i : Nat) :
    (s.setTinker k x).fld f b i = s.fld f b i := rfl
@[simp] theorem State.fld_set_cell (c : Nat) (x : CellSt) (f : Field) (b i : Nat) : (s.setCell c x).fld f b i = s.fld f b i := rfl
@[simp] theorem State.tinker_set_reg (k o : Nat) (v : BitVec 64) : (s.setReg o v).tinker k = s.tinker k := rfl
@[simp] theorem State.tinker_set_fld (k : Nat) (f : Field) (b i v : Nat) : (s.setFld f b i v).tinker k = s.tinker k := rfl
@[simp] theorem State.cell_set_fld (c : Nat) (f : Field) (b i v : Nat) : (s.setFld f b i v).cell c = s.cell c := rfl
@[simp] theorem State.cell_set_tinker (c k : Nat) (x : Tinker) : (s.setTinker k x).cell c = s.cell c := rfl
@[simp] theorem State.tinker_set_cell (k c : Nat) (x : CellSt) : (s.setCell c x).tinker k = s.tinker k := rfl

/-! ## Fields of registers -/

theorem bits_lt (x hi lo : Nat) : bitsOf x hi lo < 2 ^ (hi + 1 - lo) := by
  unfold bitsOf
  exact Nat.mod_lt _ (Nat.two_pow_pos _)

/-- A field written with a value that fits reads back as that value. -/
theorem put_bits_get (x lo w v : Nat) (hw : 0 < w) (hv : v < 2 ^ w) : bitsOf (putBits x lo w v) (lo + w - 1) lo = v := by
  have hx : bitsOf x (lo + w - 1) lo = x / 2 ^ lo % 2 ^ w := by
    unfold bitsOf; rw [show lo + w - 1 + 1 - lo = w by omega]
  have h1 := Nat.div_add_mod x (2 ^ lo)
  have h2 := Nat.div_add_mod (x / 2 ^ lo) (2 ^ w)
  have key : putBits x lo w v = x % 2 ^ lo + 2 ^ lo * (2 ^ w * (x / 2 ^ lo / 2 ^ w) + v) := by
    unfold putBits
    rw [hx, Nat.mod_eq_of_lt hv]
    have h3 : 2 ^ lo * (x / 2 ^ lo) = 2 ^ lo * (2 ^ w * (x / 2 ^ lo / 2 ^ w)) + x / 2 ^ lo % 2 ^ w * 2 ^ lo := by
      conv_lhs => rw [← h2]
      ring
    rw [Nat.mul_add, Nat.mul_comm (2 ^ lo) v]
    omega
  unfold bitsOf
  rw [key, show lo + w - 1 + 1 - lo = w by omega, Nat.add_mul_div_left _ _ (Nat.two_pow_pos lo),
    Nat.div_eq_of_lt (Nat.mod_lt _ (Nat.two_pow_pos lo)), Nat.zero_add, Nat.mul_add_mod, Nat.mod_eq_of_lt hv]

/-- Bits of a number outside the field replaced are as before. -/
theorem put_bits_other (x lo w v n : Nat) (h : n < lo ∨ lo + w ≤ n) (hw : 0 < w) : (putBits x lo w v).testBit n = x.testBit n := by
  have hx : bitsOf x (lo + w - 1) lo = x / 2 ^ lo % 2 ^ w := by
    unfold bitsOf; rw [show lo + w - 1 + 1 - lo = w by omega]
  have h1 := Nat.div_add_mod x (2 ^ lo)
  have h2 := Nat.div_add_mod (x / 2 ^ lo) (2 ^ w)
  have h3 : 2 ^ lo * (x / 2 ^ lo) = 2 ^ lo * (2 ^ w * (x / 2 ^ lo / 2 ^ w)) + x / 2 ^ lo % 2 ^ w * 2 ^ lo := by
    conv_lhs => rw [← h2]
    ring
  have key : putBits x lo w v = 2 ^ lo * (2 ^ w * (x / 2 ^ lo / 2 ^ w) + v % 2 ^ w) + x % 2 ^ lo := by
    unfold putBits
    rw [hx, Nat.mul_add, Nat.mul_comm (2 ^ lo) (v % 2 ^ w)]
    omega
  have hlo := Nat.mod_lt x (Nat.two_pow_pos lo)
  have hv := Nat.mod_lt v (Nat.two_pow_pos w)
  rw [key, Nat.testBit_two_pow_mul_add _ hlo]
  rcases h with h | h
  · simp [h, Nat.testBit_mod_two_pow]
  · rw [if_neg (by omega), Nat.testBit_two_pow_mul_add _ hv, if_neg (by omega), Nat.div_div_eq_div_mul, ← Nat.pow_add,
      Nat.testBit_div_two_pow]
    congr 1; omega

end Sys2Proof.Machine
end

