-- ==== Sys2Proof/Laws/Memory.lean ====
section
/-! SUPPORT. The memories of the state: what a read gives after a write of several bytes, and that every operation on a memory
keeps the canonical form of all of them. -/

namespace Sys2Proof.Machine

/-! ## Memories -/

theorem Mem.wf_set_bytes {m : Mem} (h : Memory.wf m) : ∀ (bs : List Byte) (a : Nat), Memory.wf (m.setBytes a bs) := by
  intro bs
  induction bs generalizing m with
  | nil => exact fun _ => h
  | cons b bs ih => exact fun a => ih (Mem.wf_set a b h) (a + 1)

theorem Mem.wf_filter {m : Mem} (h : Memory.wf m) (p : Nat × Byte → Bool) : Memory.wf (m.filter p) :=
  ⟨h.1.filter p, fun e he => h.2 e (List.mem_of_mem_filter he)⟩

theorem Mem.wf_clear_range {m : Mem} (h : Memory.wf m) (a n : Nat) : Memory.wf (m.clearRange a n) := Mem.wf_filter h _

/-- Setting bytes one after another, at addresses and to values of any kind, keeps the canonical form. -/
theorem Mem.wf_fold {β : Type} (f : Mem → β → Nat × Byte) (l : List β) {m : Mem} (h : Memory.wf m) :
    Memory.wf (l.foldl (fun acc e => Mem.set acc (f acc e).1 (f acc e).2) m) := by
  induction l generalizing m with
  | nil => exact h
  | cons e l ih => exact ih (Mem.wf_set _ _ h)

theorem Mem.wf_copy_from {m : Mem} (h : Memory.wf m) (from_ : Mem) (src dst n : Nat) : Memory.wf (m.copyFrom from_ src dst n) :=
  Mem.wf_fold (fun _ (e : Nat × Byte) => (dst + (e.1 - src), e.2)) _ (Mem.wf_clear_range h dst n)

/-- A byte outside the bytes written reads as before. -/
theorem Mem.get_set_bytes_other (x : Nat) : ∀ (bs : List Byte) (m : Mem) (a : Nat), (x < a ∨ a + bs.length ≤ x) →
    Mem.get (m.setBytes a bs) x = Mem.get m x
  | [], _, _, _ => rfl
  | b :: bs, m, a, h => by
    simp only [List.length_cons] at h
    show Mem.get ((Mem.set m a b).setBytes (a + 1) bs) x = _
    rw [Mem.get_set_bytes_other x bs _ _ (by omega), Mem.get_set_other m b (by omega)]

/-- A byte written reads as it was written. -/
theorem Mem.get_set_bytes (i : Nat) : ∀ (bs : List Byte) (m : Mem) (a : Nat), i < bs.length →
    Mem.get (m.setBytes a bs) (a + i) = bs.getD i 0
  | [], _, _, h => by simp at h
  | b :: bs, m, a, h => by
    show Mem.get ((Mem.set m a b).setBytes (a + 1) bs) (a + i) = _
    cases i with
    | zero => rw [Mem.get_set_bytes_other _ _ _ _ (by omega)]; simp
    | succ i =>
      rw [show a + (i + 1) = a + 1 + i by omega, Mem.get_set_bytes i bs _ _ (by simpa using h)]
      simp

/-! ## The relation -/

/-- Going from one state to another keeps the canonical form of each memory and of the registers. -/
def KeepsMem (s t : State) : Prop :=
  (Memory.wf s.bulk → Memory.wf t.bulk) ∧ (Memory.wf s.scache → Memory.wf t.scache) ∧ (Memory.wf s.stores → Memory.wf t.stores) ∧
    (Memory.wf s.locals → Memory.wf t.locals) ∧ (Tab.wf resetValue s.regs → Tab.wf resetValue t.regs)

@[refl] theorem KeepsMem.refl (s : State) : KeepsMem s s := ⟨id, id, id, id, id⟩

theorem KeepsMem.trans {r s t : State} (h : KeepsMem r s) (g : KeepsMem s t) : KeepsMem r t :=
  ⟨g.1 ∘ h.1, g.2.1 ∘ h.2.1, g.2.2.1 ∘ h.2.2.1, g.2.2.2.1 ∘ h.2.2.2.1, g.2.2.2.2 ∘ h.2.2.2.2⟩

/-- A step that leaves the memories and the registers as they are. -/
theorem KeepsMem.of_eq {s t : State} (h1 : t.bulk = s.bulk) (h2 : t.scache = s.scache) (h3 : t.stores = s.stores)
    (h4 : t.locals = s.locals) (h5 : t.regs = s.regs) : KeepsMem s t := by
  refine ⟨?_, ?_, ?_, ?_, ?_⟩ <;> simp_all

/-- A fold of steps that keep the memories. -/
theorem KeepsMem.fold {β : Type} {f : State → β → State} (hf : ∀ s b, KeepsMem s (f s b)) (l : List β) (s : State) :
    KeepsMem s (l.foldl f s) := by
  induction l generalizing s with
  | nil => exact .refl s
  | cons b l ih => exact (hf s b).trans (ih _)

/-- The state after reset holds every memory in its canonical form. -/
theorem reset_memories : Memory.wf State.reset.bulk ∧ Memory.wf State.reset.scache ∧ Memory.wf State.reset.stores ∧
    Memory.wf State.reset.locals ∧ Tab.wf resetValue State.reset.regs := by
  refine ⟨?_, ?_, ?_, ?_, ?_⟩ <;> exact ⟨List.Pairwise.nil, fun _ h => absurd h List.not_mem_nil⟩

/-! ## The updates -/

theorem State.keeps_reg (s : State) (o : Nat) (v : BitVec 64) : KeepsMem s (s.setReg o v) :=
  ⟨id, id, id, id, fun h => Tab.wf_set o v h⟩

theorem State.keeps_fld (s : State) (f : Field) (b i v : Nat) : KeepsMem s (s.setFld f b i v) := s.keeps_reg _ _

theorem State.keeps_bump (s : State) (f : Field) (b i n : Nat) : KeepsMem s (s.bump f b i n) := s.keeps_fld ..

theorem State.keeps_inc (s : State) (f : Field) (b i : Nat) : KeepsMem s (s.inc f b i) := s.keeps_fld ..

theorem State.keeps_bit (s : State) (f : Field) (b i n : Nat) (v : Bool) : KeepsMem s (s.setBit f b i n v) := s.keeps_fld ..

theorem State.keeps_tinker (s : State) (k : Nat) (x : Tinker) : KeepsMem s (s.setTinker k x) := ⟨id, id, id, id, id⟩

theorem State.keeps_cell (s : State) (c : Nat) (x : CellSt) : KeepsMem s (s.setCell c x) := ⟨id, id, id, id, id⟩

theorem State.keeps_on_cell (s : State) (c : Nat) (f : CellSt → CellSt) : KeepsMem s (s.onCell c f) := ⟨id, id, id, id, id⟩

theorem State.keeps_frame (s : State) (f : Nat) (x : FrameInfo) : KeepsMem s (s.setFrame f x) := ⟨id, id, id, id, id⟩

theorem State.keeps_burst_err (s : State) (a : Nat) (e : List (Nat × Byte)) : KeepsMem s (s.setBurstErr a e) :=
  ⟨id, id, id, id, id⟩

theorem State.keeps_clear_bursts (s : State) (f : Nat) : KeepsMem s (s.clearBursts f) := ⟨id, id, id, id, id⟩

theorem State.keeps_note (s : State) : KeepsMem s s.noteSramUe := ⟨id, id, id, id, id⟩

theorem State.keeps_draw (s : State) : KeepsMem s s.draw.2 := ⟨id, id, id, id, id⟩

theorem State.keeps_send (s : State) (o : Out) : KeepsMem s (s.send o) := ⟨id, id, id, id, id⟩

theorem State.keeps_ref_frame (s : State) (f : Nat) : KeepsMem s (s.refFrame f) := by
  unfold State.refFrame; split
  · exact .refl s
  · exact s.keeps_frame _ _

theorem State.keeps_run (s : State) (k : Nat) (v : Bool) : KeepsMem s (s.setRun k v) := by
  unfold State.setRun; split <;> exact s.keeps_bit ..

theorem State.keeps_trap_bit (s : State) (k : Nat) : KeepsMem s (s.setTrapBit k) := by
  unfold State.setTrapBit; split <;> exact s.keeps_bit ..

theorem State.keeps_bump_cell (s : State) (f : Field) (c n : Nat) : KeepsMem s (s.bumpCell f c n) := by
  unfold State.bumpCell; split
  · exact .refl s
  · exact s.keeps_bump ..

theorem State.keeps_wrap (s : State) (c off n : Nat) : KeepsMem s (s.countWrap c off n) := by
  unfold State.countWrap; split
  · exact s.keeps_bump_cell ..
  · exact .refl s

theorem State.keeps_run_wrap (s : State) (w : Who) (a n : Nat) : KeepsMem s (s.countRunWrap w a n) := by
  unfold State.countRunWrap
  split
  · exact s.keeps_bump ..
  · exact .refl s

/-! ## SRAM arrays -/

theorem State.keeps_sram_count (s : State) (r : Sram) (a n : Nat) : KeepsMem s (s.sramCount r a n) := by
  cases r
  · exact s.keeps_bump_cell ..
  · exact s.keeps_bump_cell ..
  · exact s.keeps_bump ..

theorem State.keeps_set_sram (s : State) (r : Sram) {m : Mem} (h : Memory.wf (s.sram r) → Memory.wf m) :
    KeepsMem s (s.setSram r m) := by
  cases r
  · exact ⟨id, id, h, id, id⟩
  · exact ⟨id, id, id, h, id⟩
  · exact ⟨id, h, id, id, id⟩

theorem State.keeps_sram_read (s : State) (r : Sram) (as : List Nat) : KeepsMem s (s.sramRead r as).2.2 := by
  have note : ∀ (b : Bool) (z : State), KeepsMem s z → KeepsMem s (if b then z.noteSramUe else z) := fun b z h => by
    cases b
    · exact h
    · exact h.trans z.keeps_note
  apply note
  split
  · exact .refl s
  · exact s.keeps_sram_count ..

theorem State.keeps_write_word (s : State) (r : Sram) (as : List (Nat × Byte)) : KeepsMem s (s.sramWriteWord r as).2 := by
  unfold State.sramWriteWord
  dsimp only
  split
  · exact s.keeps_note
  · have h1 : KeepsMem s (if (!decide (as.length = 8) && decide (s.sramMark r (as.headD (0, 0)).1 = 1)) = true then
        s.sramCount r (as.headD (0, 0)).1 1 else s) := by
      split
      · exact s.keeps_sram_count ..
      · exact .refl s
    generalize (if (!decide (as.length = 8) && decide (s.sramMark r (as.headD (0, 0)).1 = 1)) = true then
        s.sramCount r (as.headD (0, 0)).1 1 else s) = z at h1 ⊢
    have h2 : KeepsMem z (if decide (as.length = 8) = true then
        { z with sramErr := Tab.set (fun _ => 0) z.sramErr (sramKey r (as.headD (0, 0)).1) 0 } else z) := by
      split
      · exact ⟨id, id, id, id, id⟩
      · exact .refl z
    exact (h1.trans h2).trans (State.keeps_set_sram _ r fun h => Mem.wf_fold (fun _ e => e) as h)

theorem State.keeps_write_words (r : Sram) : ∀ (gs : List (List (Nat × Byte))) (s : State), KeepsMem s (s.sramWriteWords r gs).2
  | [], s => .refl s
  | g :: gs, s => by
    unfold State.sramWriteWords
    dsimp only
    split
    · exact s.keeps_write_word r g
    · exact (s.keeps_write_word r g).trans (State.keeps_write_words r gs _)

theorem State.keeps_sram_write (s : State) (r : Sram) (as : List (Nat × Byte)) : KeepsMem s (s.sramWrite r as).2 :=
  State.keeps_write_words r _ s

theorem State.keeps_store_read (s : State) (c off n : Nat) : KeepsMem s (s.storeRead c off n).2.2 := s.keeps_sram_read ..

theorem State.keeps_store_write (s : State) (c off : Nat) (bs : List Byte) : KeepsMem s (s.storeWrite c off bs).2 :=
  s.keeps_sram_write ..

/-- A short read keeps the memories. -/
theorem State.keeps_short_read (s : State) (k a n : Nat) : KeepsMem s (s.shortRead k a n).2.2 := by
  unfold State.shortRead; split
  · exact s.keeps_sram_read ..
  · exact (s.keeps_wrap ..).trans (State.keeps_sram_read _ ..)

/-- A short write keeps the memories. -/
theorem State.keeps_short_write (s : State) (k a n : Nat) (bs : List (Option Byte)) : KeepsMem s (s.shortWrite k a n bs).2 := by
  unfold State.shortWrite
  dsimp only
  refine KeepsMem.trans (s := if isLocal a = true then s else s.countWrap (tkCell k) (a % 2 ^ 21) n) ?_ (State.keeps_sram_write _ ..)
  split
  · exact .refl s
  · exact s.keeps_wrap ..

/-! ## Bursts and frames -/

theorem State.keeps_stk (s : State) (k : StackSt) : KeepsMem s { s with stk := k } := ⟨id, id, id, id, id⟩

theorem State.keeps_sync_pool (s : State) : KeepsMem s s.syncPool :=
  ((s.keeps_fld ..).trans (State.keeps_fld _ ..)).trans (State.keeps_fld _ ..)

theorem State.keeps_mark_lost (s : State) (m c p : Nat) : KeepsMem s (s.markLost m c p) := by
  have h : ∀ z : State, KeepsMem s z → KeepsMem s
      (if 2 ≤ (z.lostPins m c).length ∧ !z.bitOf Fd.stackStateRetired m 0 (c / 16) then
        (z.setBit Fd.stackStateRetiring m 0 (c / 16) true).syncPool else z) := fun z hz => by
    split
    · exact hz.trans ((z.keeps_bit ..).trans (State.keeps_sync_pool _))
    · exact hz
  refine h _ ?_
  split <;> exact s.keeps_bit ..

theorem State.keeps_suspect (s : State) (m c p : Nat) : KeepsMem s (s.suspectPin m c p).1 := by
  unfold State.suspectPin
  dsimp only
  split
  · exact (s.keeps_stk _).trans (State.keeps_mark_lost _ m c p)
  · exact s.keeps_stk _

/-- Each pin of a list raised as a suspect. -/
theorem State.keeps_suspects (m c : Nat) : ∀ (l : List Nat) (q : State × Bool), KeepsMem q.1
    (l.foldl (fun (x : State × Bool) p => ((x.1.suspectPin m c p).1, x.2 || (x.1.suspectPin m c p).2)) q).1
  | [], q => .refl q.1
  | p :: l, q => (State.keeps_suspect q.1 m c p).trans 
      (State.keeps_suspects m c l ((q.1.suspectPin m c p).1, q.2 || (q.1.suspectPin m c p).2))

theorem State.keeps_burst_read (s : State) (a : Nat) : KeepsMem s (s.burstRead a).2.2 := by
  unfold State.burstRead
  generalize s.burstFix a = x
  have h1 : KeepsMem s (if x.2.1 = 0 then s else s.bump Fd.stackInnerCeCnt (stackOf a) 0 x.2.1) := by
    split
    · exact .refl s
    · exact s.keeps_bump ..
  dsimp only
  generalize (if x.2.1 = 0 then s else s.bump Fd.stackInnerCeCnt (stackOf a) 0 x.2.1) = z at h1 ⊢
  have h2 : KeepsMem s (if s.lostPins (stackOf a) (channelOf a) = [] then z else z.bump Fd.stackErasureCnt (stackOf a)) := by
    split
    · exact h1
    · exact h1.trans (z.keeps_bump ..)
  generalize (if s.lostPins (stackOf a) (channelOf a) = [] then z else z.bump Fd.stackErasureCnt (stackOf a)) = y at h2 ⊢
  split
  · have h3 := y.keeps_fld Fd.stackUeAddrAddr (stackOf a) 0 (a / 64 * 64)
    have h4 := State.keeps_fld (y.setFld Fd.stackUeAddrAddr (stackOf a) 0 (a / 64 * 64)) Fd.stackUeAddrValid (stackOf a) 0 1
    exact h2.trans ((h3.trans h4).trans (State.keeps_bump _ Fd.stackUeCnt (stackOf a) 0 1))
  · split
    · refine h2.trans ((y.keeps_bump Fd.stackOuterCeCnt (stackOf a) 0 1).trans ?_)
      exact State.keeps_suspects _ _ _ (y.bump Fd.stackOuterCeCnt (stackOf a) 0 1, false)
    · exact h2

/-- Writing a memory of bursts. -/
theorem State.keeps_bulk (s : State) {m : Mem} (h : Memory.wf s.bulk → Memory.wf m) : KeepsMem s { s with bulk := m } :=
  ⟨h, id, id, id, id⟩

/-- A read of one burst keeps the memories. -/
theorem State.keeps_bulk_get (s : State) (a n : Nat) : KeepsMem s (s.bulkGet a n).st := by
  unfold State.bulkGet
  dsimp only
  split
  · exact (s.keeps_ref_frame _).trans (State.keeps_bump _ Fd.stackRetiredAccessCnt (stackOf a) 0 1)
  · have h := (s.keeps_ref_frame (a / 65536)).trans ((s.refFrame (a / 65536)).keeps_burst_read a)
    split <;> rename_i e <;> rw [e] at h <;> exact h

/-- A write of one burst, whole or in part, keeps the memories. -/
theorem State.keeps_bulk_put (s : State) (a : Nat) (bs : List Byte) : KeepsMem s (s.bulkPut a bs).st := by
  unfold State.bulkPut
  dsimp only
  split
  · exact (s.keeps_ref_frame _).trans (State.keeps_bump _ Fd.stackRetiredAccessCnt (stackOf a) 0 1)
  · have h1 : KeepsMem s (if ((s.refFrame (a / 65536)).frame (a / 65536)).cow = true then
        (s.refFrame (a / 65536)).bump Fd.poolCowWriteCnt else s.refFrame (a / 65536)) := by
      split
      · exact (s.keeps_ref_frame _).trans (State.keeps_bump _ Fd.poolCowWriteCnt 0 0 1)
      · exact s.keeps_ref_frame _
    generalize (if ((s.refFrame (a / 65536)).frame (a / 65536)).cow = true then
        (s.refFrame (a / 65536)).bump Fd.poolCowWriteCnt else s.refFrame (a / 65536)) = z at h1 ⊢
    split
    · exact h1.trans ((z.keeps_bulk fun h => Mem.wf_set_bytes h bs a).trans (State.keeps_burst_err _ ..))
    · have h2 := h1.trans ((z.keeps_bump Fd.stackRmwCnt (stackOf a) 0 1).trans (State.keeps_burst_read _ a))
      split <;> rename_i e <;> rw [e] at h2
      · exact h2
      · exact h2.trans ((State.keeps_bulk _ fun h => Mem.wf_set_bytes
          (Mem.wf_fold (fun mm (e : Nat × Byte) => (a / 64 * 64 + e.1, Mem.get mm (a / 64 * 64 + e.1) ^^^ e.2)) _ h) bs a).trans
            (State.keeps_burst_err _ ..))

theorem State.keeps_read_bursts (f : Nat) : ∀ (bs : List Nat) (s : State), KeepsMem s (s.readBursts f bs).st
  | [], s => .refl s
  | b :: bs, s => by
    have h := s.keeps_burst_read (f * 65536 + 64 * b)
    unfold State.readBursts
    split <;> rename_i e <;> rw [e] at h
    · exact h
    · exact h.trans (State.keeps_read_bursts f bs _)

theorem State.keeps_frame_read (s : State) (f : Nat) : KeepsMem s (s.frameRead f).st := by
  unfold State.frameRead
  dsimp only
  split
  · exact s.keeps_bump ..
  · split
    · exact (s.keeps_ref_frame f).trans (State.keeps_bump _ ..)
    · exact (s.keeps_ref_frame f).trans (State.keeps_read_bursts f _ _)

theorem State.keeps_copy_frame (s : State) (src dst : Nat) : KeepsMem s (s.copyFrame src dst).st := by
  unfold State.copyFrame
  dsimp only
  split
  · exact s.keeps_frame_read src
  · exact (s.keeps_frame_read src).trans ((State.keeps_bulk _ fun h =>
      Mem.wf_fold (fun z (e : Nat × Byte) => (dst * 65536 + e.1, Mem.get z (dst * 65536 + e.1) ^^^ e.2)) _ (Mem.wf_copy_from h ..)).trans
        ((State.keeps_clear_bursts _ _).trans (State.keeps_ref_frame _ _)))

theorem State.keeps_zero_frame (s : State) (f : Nat) : KeepsMem s (s.zeroFrame f) :=
  ((s.keeps_bulk fun h => Mem.wf_clear_range h ..).trans (State.keeps_clear_bursts _ _)).trans (State.keeps_ref_frame _ _)

theorem State.keeps_pte (s : State) (t tpn : Nat) (p : Pte) : KeepsMem s (s.setPte t tpn p) := s.keeps_bulk_put ..

theorem State.keeps_scramble (s : State) (m : Nat) : KeepsMem s (s.scrambleMs m) :=
  s.keeps_draw.trans (State.keeps_bulk _ fun h => Mem.wf_set_bytes h ..)

/-- Putting the memories of an earlier state back. -/
theorem State.keeps_undo {s t : State} (h : KeepsMem s t) : KeepsMem s (t.undoMem s) := ⟨id, id, id, id, h.2.2.2.2⟩

/-! ## Accesses to the cell stores and the shared cache -/

theorem State.keeps_refuse (s : State) : KeepsMem s s.refuse.st := s.keeps_bump ..

/-- An access to a cell's store keeps the memories. -/
theorem State.keeps_store_access (s : State) (x : Ctx) (c o : Nat) (w : Option (List Byte)) (n : Nat) :
    KeepsMem s (s.storeAccess x c o w n).st := by
  unfold State.storeAccess
  split
  · exact s.keeps_refuse
  · split
    · exact s.keeps_bump ..
    · split
      · exact s.keeps_bump ..
      · split
        · dsimp only
          split <;> exact s.keeps_store_read ..
        · dsimp only
          split <;> exact s.keeps_store_write ..

/-- An access to the shared cache keeps the memories. -/
theorem State.keeps_scache_access (s : State) (x : Ctx) (o : Nat) (w : Option (List Byte)) (n : Nat) :
    KeepsMem s (s.scacheAccess x o w n).st := by
  unfold State.scacheAccess
  split
  · exact s.keeps_refuse
  · dsimp only
    split
    · split <;> exact s.keeps_sram_read ..
    · split <;> exact s.keeps_sram_write ..

/-- Taking a trap keeps the memories (R84). -/
theorem State.keeps_trap (s : State) (k cause : Nat) (tval : Word) : KeepsMem s (s.trap k cause tval) := by
  unfold State.trap
  dsimp only
  split
  · exact s.keeps_tinker ..
  · exact ((s.keeps_tinker ..).trans (State.keeps_run _ ..)).trans (State.keeps_trap_bit _ _)

end Sys2Proof.Machine
end

