-- ==== Sys2Proof/Laws/Tinker.lean ====
section
/-! SUPPORT. What the shared operations of the Tinkers do: their registers (R76), going on and jumping (R76, R82), an
instruction that runs, waits or traps (R84, R86). -/

namespace Sys2Proof.Machine

variable (t : Tinker)

/-! ## Registers -/

@[simp] theorem Tinker.gr_zero : t.gr 0 = 0 := rfl

@[simp] theorem Tinker.set_g_zero (v : Word) : t.setG 0 v = t := rfl

theorem Tinker.gr_set_g (r q : Nat) (v : Word) : (t.setG r v).gr q = if q = r then (if r = 0 then 0 else v) else t.gr q := by
  unfold Tinker.setG Tinker.gr
  by_cases hr : r = 0
  · subst hr; by_cases hq : q = 0 <;> simp [hq]
  · rw [if_neg hr]
    by_cases hq : q = 0
    · subst hq; rw [if_pos rfl, if_neg (fun h => hr h.symm), if_pos rfl]
    · rw [if_neg hq, Tab.get_set]; simp [hr, hq]

@[simp] theorem Tinker.pr_zero : t.pr 0 = 0xFF := rfl

@[simp] theorem Tinker.set_p_zero (v : BitVec 8) : t.setP 0 v = t := rfl

theorem Tinker.pr_set_p (r q : Nat) (v : BitVec 8) :
    (t.setP r v).pr q = if q = r then (if r = 0 then 0xFF else v) else t.pr q := by
  unfold Tinker.setP Tinker.pr
  by_cases hr : r = 0
  · subst hr; by_cases hq : q = 0 <;> simp [hq]
  · rw [if_neg hr]
    by_cases hq : q = 0
    · subst hq; rw [if_pos rfl, if_neg (fun h => hr h.symm), if_pos rfl]
    · rw [if_neg hq, Tab.get_set]; simp [hr, hq]

theorem Tinker.vr_set_v (r i q j : Nat) (v : Word) (hi : i < 8) (hj : j < 8) :
    (t.setV r i v).vr q j = if q = r ∧ j = i then v else t.vr q j := by
  unfold Tinker.setV Tinker.vr
  rw [Tab.get_set]
  have : (8 * q + j = 8 * r + i) ↔ (q = r ∧ j = i) := by omega
  simp [this]

@[simp] theorem Tinker.g_set_v (r i : Nat) (v : Word) : (t.setV r i v).g = t.g := rfl
@[simp] theorem Tinker.p_set_v (r i : Nat) (v : Word) : (t.setV r i v).p = t.p := rfl
@[simp] theorem Tinker.pc_set_v (r i : Nat) (v : Word) : (t.setV r i v).pc = t.pc := rfl
@[simp] theorem Tinker.cstat_set_v (r i : Nat) (v : Word) : (t.setV r i v).cstat = t.cstat := rfl
@[simp] theorem Tinker.gr_set_v (r i q : Nat) (v : Word) : (t.setV r i v).gr q = t.gr q := rfl
@[simp] theorem Tinker.pr_set_v (r i q : Nat) (v : Word) : (t.setV r i v).pr q = t.pr q := rfl

/-- Writing a general register changes the general registers alone. -/
theorem Tinker.set_g_frame (r : Nat) (v : Word) : t.setG r v = { t with g := (t.setG r v).g } := by
  unfold Tinker.setG; split <;> rfl

/-- Writing a predicate register changes the predicate registers alone. -/
theorem Tinker.set_p_frame (r : Nat) (v : BitVec 8) : t.setP r v = { t with p := (t.setP r v).p } := by
  unfold Tinker.setP; split <;> rfl

@[simp] theorem Tinker.pc_set_g (r : Nat) (v : Word) : (t.setG r v).pc = t.pc := by rw [Tinker.set_g_frame]
@[simp] theorem Tinker.pc_set_p (r : Nat) (v : BitVec 8) : (t.setP r v).pc = t.pc := by rw [Tinker.set_p_frame]

/-! ## Flags and counts -/

@[simp] theorem Tinker.gr_add_flags (f : FpFlags) (q : Nat) : (t.addFlags f).gr q = t.gr q := rfl
@[simp] theorem Tinker.pr_add_flags (f : FpFlags) (q : Nat) : (t.addFlags f).pr q = t.pr q := rfl
@[simp] theorem Tinker.vr_add_flags (f : FpFlags) (q i : Nat) : (t.addFlags f).vr q i = t.vr q i := rfl
@[simp] theorem Tinker.pc_add_flags (f : FpFlags) : (t.addFlags f).pc = t.pc := rfl
@[simp] theorem Tinker.gr_add_counts (c : Counts) (q : Nat) : (t.addCounts c).gr q = t.gr q := rfl
@[simp] theorem Tinker.pr_add_counts (c : Counts) (q : Nat) : (t.addCounts c).pr q = t.pr q := rfl
@[simp] theorem Tinker.vr_add_counts (c : Counts) (q i : Nat) : (t.addCounts c).vr q i = t.vr q i := rfl
@[simp] theorem Tinker.pc_add_counts (c : Counts) : (t.addCounts c).pc = t.pc := rfl
@[simp] theorem Tinker.cstat_add_counts (c : Counts) : (t.addCounts c).cstat = t.cstat := rfl

/-! ## The pc -/

@[simp] theorem Tinker.pc_advance (n : Nat) : (t.advance n).pc = t.pc + BitVec.ofNat 32 n := rfl
@[simp] theorem Tinker.gr_advance (n q : Nat) : (t.advance n).gr q = t.gr q := rfl
@[simp] theorem Tinker.pr_advance (n q : Nat) : (t.advance n).pr q = t.pr q := rfl
@[simp] theorem Tinker.vr_advance (n q i : Nat) : (t.advance n).vr q i = t.vr q i := rfl

/-- Going on changes the pc and the words fetched ahead alone. -/
theorem Tinker.advance_frame (n : Nat) :
    t.advance n = { t with pc := t.pc + BitVec.ofNat 32 n, fetched := (t.advance n).fetched } := rfl

@[simp] theorem Tinker.pc_jump (a : Word) : (t.jump a).pc = a &&& ~~~3#32 := rfl

/-- Jumping changes the pc and the words fetched ahead alone. -/
theorem Tinker.jump_frame (a : Word) : t.jump a = { t with pc := a &&& ~~~3#32, fetched := [] } := rfl

/-! ## Running an instruction -/

/-- An instruction that the Tinker can run, of an encoding that R86 leaves defined, has its effect. -/
theorem State.tk_exec_runs {s : State} {k : Nat} {i : Instr} {f : State → State} (h : s.canRun k = true)
    (w : wellFormed i = true) : s.tkExec k i f = f s := by
  unfold State.tkExec; simp [h, w]

/-- An instruction of a Tinker that cannot run leaves the state (R48, R83, R438). -/
theorem State.tk_exec_waits {s : State} {k : Nat} {i : Instr} {f : State → State} (h : s.canRun k = false) :
    s.tkExec k i f = s := by
  unfold State.tkExec; simp [h]

/-- An encoding that R86 leaves undefined traps. -/
theorem State.tk_exec_traps {s : State} {k : Nat} {i : Instr} {f : State → State} (h : s.canRun k = true)
    (w : wellFormed i = false) : s.tkExec k i f = s.trap k tIllegal (firstWord i) := by
  unfold State.tkExec; simp [h, w]

/-- A scalar instruction that writes one register: the Tinker afterwards. -/
theorem State.scalar_op (s : State) (k : Nat) (rd : BitVec 5) (f : Tinker → Word) :
    s.scalarOp k rd f = s.setTinker k (((s.tinker k).setG rd.toNat (f (s.tinker k))).advance 4) := rfl

/-- A trap into a handler changes the Tinker alone (R84). -/
theorem State.trap_handled {s : State} {k : Nat} (cause : Nat) (tval : Word) (h : (s.tinker k).tvec ≠ 0)
    (n : (s.tinker k).inTrap = false) :
    ∃ x, s.trap k cause tval = s.setTinker k x ∧ x.pc = (s.tinker k).tvec &&& ~~~3#32 ∧ x.epc = (s.tinker k).pc ∧
      x.tval = tval ∧ x.g = (s.tinker k).g ∧ x.p = (s.tinker k).p ∧ x.v = (s.tinker k).v ∧ x.tvec = (s.tinker k).tvec := by
  unfold State.trap
  simp only [h, n, ne_eq, not_false_eq_true, Bool.not_false, and_self, if_true]
  exact ⟨_, rfl, rfl, rfl, rfl, rfl, rfl, rfl, rfl⟩

end Sys2Proof.Machine
end

