-- ==== Sys2Proof/Laws/Units.lean ====
section
/-! SUPPORT. The fields of the state under the updates of its units: banks, Turners, Coopers, packets, instances, queue pairs and sessions; and
what sending a message does. -/

namespace Sys2Proof.Machine

variable (s : State)

/-! ## setBank -/

@[simp] theorem State.regs_setBank (c b : Nat) (x : Option Bank) : (s.setBank c b x).regs = s.regs := rfl
@[simp] theorem State.bulk_setBank (c b : Nat) (x : Option Bank) : (s.setBank c b x).bulk = s.bulk := rfl
@[simp] theorem State.scache_setBank (c b : Nat) (x : Option Bank) : (s.setBank c b x).scache = s.scache := rfl
@[simp] theorem State.stores_setBank (c b : Nat) (x : Option Bank) : (s.setBank c b x).stores = s.stores := rfl
@[simp] theorem State.locals_setBank (c b : Nat) (x : Option Bank) : (s.setBank c b x).locals = s.locals := rfl
@[simp] theorem State.sramErr_setBank (c b : Nat) (x : Option Bank) : (s.setBank c b x).sramErr = s.sramErr := rfl
@[simp] theorem State.tinkers_setBank (c b : Nat) (x : Option Bank) : (s.setBank c b x).tinkers = s.tinkers := rfl
@[simp] theorem State.slices_setBank (c b : Nat) (x : Option Bank) : (s.setBank c b x).slices = s.slices := rfl
@[simp] theorem State.stk_setBank (c b : Nat) (x : Option Bank) : (s.setBank c b x).stk = s.stk := rfl
@[simp] theorem State.pool_setBank (c b : Nat) (x : Option Bank) : (s.setBank c b x).pool = s.pool := rfl
@[simp] theorem State.flash_setBank (c b : Nat) (x : Option Bank) : (s.setBank c b x).flash = s.flash := rfl
@[simp] theorem State.fab_setBank (c b : Nat) (x : Option Bank) : (s.setBank c b x).fab = s.fab := rfl
@[simp] theorem State.weav_setBank (c b : Nat) (x : Option Bank) : (s.setBank c b x).weav = s.weav := rfl
@[simp] theorem State.eth_setBank (c b : Nat) (x : Option Bank) : (s.setBank c b x).eth = s.eth := rfl
@[simp] theorem State.clk_setBank (c b : Nat) (x : Option Bank) : (s.setBank c b x).clk = s.clk := rfl
@[simp] theorem State.out_setBank (c b : Nat) (x : Option Bank) : (s.setBank c b x).out = s.out := rfl
@[simp] theorem State.freeCtr_setBank (c b : Nat) (x : Option Bank) : (s.setBank c b x).freeCtr = s.freeCtr := rfl
@[simp] theorem State.pending_setBank (c b : Nat) (x : Option Bank) : (s.setBank c b x).pending = s.pending := rfl

/-! ## setTurner -/

@[simp] theorem State.regs_setTurner (c p : Nat) (x : Option TurnSt) : (s.setTurner c p x).regs = s.regs := rfl
@[simp] theorem State.bulk_setTurner (c p : Nat) (x : Option TurnSt) : (s.setTurner c p x).bulk = s.bulk := rfl
@[simp] theorem State.scache_setTurner (c p : Nat) (x : Option TurnSt) : (s.setTurner c p x).scache = s.scache := rfl
@[simp] theorem State.stores_setTurner (c p : Nat) (x : Option TurnSt) : (s.setTurner c p x).stores = s.stores := rfl
@[simp] theorem State.locals_setTurner (c p : Nat) (x : Option TurnSt) : (s.setTurner c p x).locals = s.locals := rfl
@[simp] theorem State.sramErr_setTurner (c p : Nat) (x : Option TurnSt) : (s.setTurner c p x).sramErr = s.sramErr := rfl
@[simp] theorem State.tinkers_setTurner (c p : Nat) (x : Option TurnSt) : (s.setTurner c p x).tinkers = s.tinkers := rfl
@[simp] theorem State.slices_setTurner (c p : Nat) (x : Option TurnSt) : (s.setTurner c p x).slices = s.slices := rfl
@[simp] theorem State.stk_setTurner (c p : Nat) (x : Option TurnSt) : (s.setTurner c p x).stk = s.stk := rfl
@[simp] theorem State.pool_setTurner (c p : Nat) (x : Option TurnSt) : (s.setTurner c p x).pool = s.pool := rfl
@[simp] theorem State.flash_setTurner (c p : Nat) (x : Option TurnSt) : (s.setTurner c p x).flash = s.flash := rfl
@[simp] theorem State.fab_setTurner (c p : Nat) (x : Option TurnSt) : (s.setTurner c p x).fab = s.fab := rfl
@[simp] theorem State.weav_setTurner (c p : Nat) (x : Option TurnSt) : (s.setTurner c p x).weav = s.weav := rfl
@[simp] theorem State.eth_setTurner (c p : Nat) (x : Option TurnSt) : (s.setTurner c p x).eth = s.eth := rfl
@[simp] theorem State.clk_setTurner (c p : Nat) (x : Option TurnSt) : (s.setTurner c p x).clk = s.clk := rfl
@[simp] theorem State.out_setTurner (c p : Nat) (x : Option TurnSt) : (s.setTurner c p x).out = s.out := rfl
@[simp] theorem State.freeCtr_setTurner (c p : Nat) (x : Option TurnSt) : (s.setTurner c p x).freeCtr = s.freeCtr := rfl
@[simp] theorem State.pending_setTurner (c p : Nat) (x : Option TurnSt) : (s.setTurner c p x).pending = s.pending := rfl

/-! ## setCooper -/

@[simp] theorem State.regs_setCooper (c p : Nat) (x : Option CooperSt) : (s.setCooper c p x).regs = s.regs := rfl
@[simp] theorem State.bulk_setCooper (c p : Nat) (x : Option CooperSt) : (s.setCooper c p x).bulk = s.bulk := rfl
@[simp] theorem State.scache_setCooper (c p : Nat) (x : Option CooperSt) : (s.setCooper c p x).scache = s.scache := rfl
@[simp] theorem State.stores_setCooper (c p : Nat) (x : Option CooperSt) : (s.setCooper c p x).stores = s.stores := rfl
@[simp] theorem State.locals_setCooper (c p : Nat) (x : Option CooperSt) : (s.setCooper c p x).locals = s.locals := rfl
@[simp] theorem State.sramErr_setCooper (c p : Nat) (x : Option CooperSt) : (s.setCooper c p x).sramErr = s.sramErr := rfl
@[simp] theorem State.tinkers_setCooper (c p : Nat) (x : Option CooperSt) : (s.setCooper c p x).tinkers = s.tinkers := rfl
@[simp] theorem State.slices_setCooper (c p : Nat) (x : Option CooperSt) : (s.setCooper c p x).slices = s.slices := rfl
@[simp] theorem State.stk_setCooper (c p : Nat) (x : Option CooperSt) : (s.setCooper c p x).stk = s.stk := rfl
@[simp] theorem State.pool_setCooper (c p : Nat) (x : Option CooperSt) : (s.setCooper c p x).pool = s.pool := rfl
@[simp] theorem State.flash_setCooper (c p : Nat) (x : Option CooperSt) : (s.setCooper c p x).flash = s.flash := rfl
@[simp] theorem State.fab_setCooper (c p : Nat) (x : Option CooperSt) : (s.setCooper c p x).fab = s.fab := rfl
@[simp] theorem State.weav_setCooper (c p : Nat) (x : Option CooperSt) : (s.setCooper c p x).weav = s.weav := rfl
@[simp] theorem State.eth_setCooper (c p : Nat) (x : Option CooperSt) : (s.setCooper c p x).eth = s.eth := rfl
@[simp] theorem State.clk_setCooper (c p : Nat) (x : Option CooperSt) : (s.setCooper c p x).clk = s.clk := rfl
@[simp] theorem State.out_setCooper (c p : Nat) (x : Option CooperSt) : (s.setCooper c p x).out = s.out := rfl
@[simp] theorem State.freeCtr_setCooper (c p : Nat) (x : Option CooperSt) : (s.setCooper c p x).freeCtr = s.freeCtr := rfl
@[simp] theorem State.pending_setCooper (c p : Nat) (x : Option CooperSt) : (s.setCooper c p x).pending = s.pending := rfl

/-! ## putPacket -/

@[simp] theorem State.regs_putPacket (t : Transit) : (s.putPacket t).regs = s.regs := rfl
@[simp] theorem State.bulk_putPacket (t : Transit) : (s.putPacket t).bulk = s.bulk := rfl
@[simp] theorem State.scache_putPacket (t : Transit) : (s.putPacket t).scache = s.scache := rfl
@[simp] theorem State.stores_putPacket (t : Transit) : (s.putPacket t).stores = s.stores := rfl
@[simp] theorem State.locals_putPacket (t : Transit) : (s.putPacket t).locals = s.locals := rfl
@[simp] theorem State.sramErr_putPacket (t : Transit) : (s.putPacket t).sramErr = s.sramErr := rfl
@[simp] theorem State.tinkers_putPacket (t : Transit) : (s.putPacket t).tinkers = s.tinkers := rfl
@[simp] theorem State.cells_putPacket (t : Transit) : (s.putPacket t).cells = s.cells := rfl
@[simp] theorem State.slices_putPacket (t : Transit) : (s.putPacket t).slices = s.slices := rfl
@[simp] theorem State.stk_putPacket (t : Transit) : (s.putPacket t).stk = s.stk := rfl
@[simp] theorem State.pool_putPacket (t : Transit) : (s.putPacket t).pool = s.pool := rfl
@[simp] theorem State.flash_putPacket (t : Transit) : (s.putPacket t).flash = s.flash := rfl
@[simp] theorem State.weav_putPacket (t : Transit) : (s.putPacket t).weav = s.weav := rfl
@[simp] theorem State.eth_putPacket (t : Transit) : (s.putPacket t).eth = s.eth := rfl
@[simp] theorem State.clk_putPacket (t : Transit) : (s.putPacket t).clk = s.clk := rfl
@[simp] theorem State.out_putPacket (t : Transit) : (s.putPacket t).out = s.out := rfl
@[simp] theorem State.freeCtr_putPacket (t : Transit) : (s.putPacket t).freeCtr = s.freeCtr := rfl
@[simp] theorem State.pending_putPacket (t : Transit) : (s.putPacket t).pending = s.pending := rfl

/-! ## dropPacket -/

@[simp] theorem State.regs_dropPacket (n : Nat) : (s.dropPacket n).regs = s.regs := rfl
@[simp] theorem State.bulk_dropPacket (n : Nat) : (s.dropPacket n).bulk = s.bulk := rfl
@[simp] theorem State.scache_dropPacket (n : Nat) : (s.dropPacket n).scache = s.scache := rfl
@[simp] theorem State.stores_dropPacket (n : Nat) : (s.dropPacket n).stores = s.stores := rfl
@[simp] theorem State.locals_dropPacket (n : Nat) : (s.dropPacket n).locals = s.locals := rfl
@[simp] theorem State.sramErr_dropPacket (n : Nat) : (s.dropPacket n).sramErr = s.sramErr := rfl
@[simp] theorem State.tinkers_dropPacket (n : Nat) : (s.dropPacket n).tinkers = s.tinkers := rfl
@[simp] theorem State.cells_dropPacket (n : Nat) : (s.dropPacket n).cells = s.cells := rfl
@[simp] theorem State.slices_dropPacket (n : Nat) : (s.dropPacket n).slices = s.slices := rfl
@[simp] theorem State.stk_dropPacket (n : Nat) : (s.dropPacket n).stk = s.stk := rfl
@[simp] theorem State.pool_dropPacket (n : Nat) : (s.dropPacket n).pool = s.pool := rfl
@[simp] theorem State.flash_dropPacket (n : Nat) : (s.dropPacket n).flash = s.flash := rfl
@[simp] theorem State.weav_dropPacket (n : Nat) : (s.dropPacket n).weav = s.weav := rfl
@[simp] theorem State.eth_dropPacket (n : Nat) : (s.dropPacket n).eth = s.eth := rfl
@[simp] theorem State.clk_dropPacket (n : Nat) : (s.dropPacket n).clk = s.clk := rfl
@[simp] theorem State.out_dropPacket (n : Nat) : (s.dropPacket n).out = s.out := rfl
@[simp] theorem State.freeCtr_dropPacket (n : Nat) : (s.dropPacket n).freeCtr = s.freeCtr := rfl
@[simp] theorem State.pending_dropPacket (n : Nat) : (s.dropPacket n).pending = s.pending := rfl

/-! ## inject -/

@[simp] theorem State.regs_inject (vc : Nat) (p : Packet) (v : Option Nat) (k : Option (Nat × Nat)) : (s.inject vc p v k).regs = s.regs := rfl
@[simp] theorem State.bulk_inject (vc : Nat) (p : Packet) (v : Option Nat) (k : Option (Nat × Nat)) : (s.inject vc p v k).bulk = s.bulk := rfl
@[simp] theorem State.scache_inject (vc : Nat) (p : Packet) (v : Option Nat) (k : Option (Nat × Nat)) : (s.inject vc p v k).scache = s.scache := rfl
@[simp] theorem State.stores_inject (vc : Nat) (p : Packet) (v : Option Nat) (k : Option (Nat × Nat)) : (s.inject vc p v k).stores = s.stores := rfl
@[simp] theorem State.locals_inject (vc : Nat) (p : Packet) (v : Option Nat) (k : Option (Nat × Nat)) : (s.inject vc p v k).locals = s.locals := rfl
@[simp] theorem State.sramErr_inject (vc : Nat) (p : Packet) (v : Option Nat) (k : Option (Nat × Nat)) : (s.inject vc p v k).sramErr = s.sramErr := rfl
@[simp] theorem State.tinkers_inject (vc : Nat) (p : Packet) (v : Option Nat) (k : Option (Nat × Nat)) : (s.inject vc p v k).tinkers = s.tinkers := rfl
@[simp] theorem State.cells_inject (vc : Nat) (p : Packet) (v : Option Nat) (k : Option (Nat × Nat)) : (s.inject vc p v k).cells = s.cells := rfl
@[simp] theorem State.slices_inject (vc : Nat) (p : Packet) (v : Option Nat) (k : Option (Nat × Nat)) : (s.inject vc p v k).slices = s.slices := rfl
@[simp] theorem State.stk_inject (vc : Nat) (p : Packet) (v : Option Nat) (k : Option (Nat × Nat)) : (s.inject vc p v k).stk = s.stk := rfl
@[simp] theorem State.pool_inject (vc : Nat) (p : Packet) (v : Option Nat) (k : Option (Nat × Nat)) : (s.inject vc p v k).pool = s.pool := rfl
@[simp] theorem State.flash_inject (vc : Nat) (p : Packet) (v : Option Nat) (k : Option (Nat × Nat)) : (s.inject vc p v k).flash = s.flash := rfl
@[simp] theorem State.weav_inject (vc : Nat) (p : Packet) (v : Option Nat) (k : Option (Nat × Nat)) : (s.inject vc p v k).weav = s.weav := rfl
@[simp] theorem State.eth_inject (vc : Nat) (p : Packet) (v : Option Nat) (k : Option (Nat × Nat)) : (s.inject vc p v k).eth = s.eth := rfl
@[simp] theorem State.clk_inject (vc : Nat) (p : Packet) (v : Option Nat) (k : Option (Nat × Nat)) : (s.inject vc p v k).clk = s.clk := rfl
@[simp] theorem State.out_inject (vc : Nat) (p : Packet) (v : Option Nat) (k : Option (Nat × Nat)) : (s.inject vc p v k).out = s.out := rfl
@[simp] theorem State.freeCtr_inject (vc : Nat) (p : Packet) (v : Option Nat) (k : Option (Nat × Nat)) : (s.inject vc p v k).freeCtr = s.freeCtr := rfl
@[simp] theorem State.pending_inject (vc : Nat) (p : Packet) (v : Option Nat) (k : Option (Nat × Nat)) : (s.inject vc p v k).pending = s.pending := rfl

/-! ## putInst -/

@[simp] theorem State.regs_putInst (i : Inst) : (s.putInst i).regs = s.regs := rfl
@[simp] theorem State.bulk_putInst (i : Inst) : (s.putInst i).bulk = s.bulk := rfl
@[simp] theorem State.scache_putInst (i : Inst) : (s.putInst i).scache = s.scache := rfl
@[simp] theorem State.stores_putInst (i : Inst) : (s.putInst i).stores = s.stores := rfl
@[simp] theorem State.locals_putInst (i : Inst) : (s.putInst i).locals = s.locals := rfl
@[simp] theorem State.sramErr_putInst (i : Inst) : (s.putInst i).sramErr = s.sramErr := rfl
@[simp] theorem State.tinkers_putInst (i : Inst) : (s.putInst i).tinkers = s.tinkers := rfl
@[simp] theorem State.cells_putInst (i : Inst) : (s.putInst i).cells = s.cells := rfl
@[simp] theorem State.slices_putInst (i : Inst) : (s.putInst i).slices = s.slices := rfl
@[simp] theorem State.stk_putInst (i : Inst) : (s.putInst i).stk = s.stk := rfl
@[simp] theorem State.pool_putInst (i : Inst) : (s.putInst i).pool = s.pool := rfl
@[simp] theorem State.flash_putInst (i : Inst) : (s.putInst i).flash = s.flash := rfl
@[simp] theorem State.fab_putInst (i : Inst) : (s.putInst i).fab = s.fab := rfl
@[simp] theorem State.eth_putInst (i : Inst) : (s.putInst i).eth = s.eth := rfl
@[simp] theorem State.clk_putInst (i : Inst) : (s.putInst i).clk = s.clk := rfl
@[simp] theorem State.out_putInst (i : Inst) : (s.putInst i).out = s.out := rfl
@[simp] theorem State.freeCtr_putInst (i : Inst) : (s.putInst i).freeCtr = s.freeCtr := rfl
@[simp] theorem State.pending_putInst (i : Inst) : (s.putInst i).pending = s.pending := rfl

/-! ## putQp -/

@[simp] theorem State.regs_putQp (q : Qp) : (s.putQp q).regs = s.regs := rfl
@[simp] theorem State.bulk_putQp (q : Qp) : (s.putQp q).bulk = s.bulk := rfl
@[simp] theorem State.scache_putQp (q : Qp) : (s.putQp q).scache = s.scache := rfl
@[simp] theorem State.stores_putQp (q : Qp) : (s.putQp q).stores = s.stores := rfl
@[simp] theorem State.locals_putQp (q : Qp) : (s.putQp q).locals = s.locals := rfl
@[simp] theorem State.sramErr_putQp (q : Qp) : (s.putQp q).sramErr = s.sramErr := rfl
@[simp] theorem State.tinkers_putQp (q : Qp) : (s.putQp q).tinkers = s.tinkers := rfl
@[simp] theorem State.cells_putQp (q : Qp) : (s.putQp q).cells = s.cells := rfl
@[simp] theorem State.slices_putQp (q : Qp) : (s.putQp q).slices = s.slices := rfl
@[simp] theorem State.stk_putQp (q : Qp) : (s.putQp q).stk = s.stk := rfl
@[simp] theorem State.pool_putQp (q : Qp) : (s.putQp q).pool = s.pool := rfl
@[simp] theorem State.flash_putQp (q : Qp) : (s.putQp q).flash = s.flash := rfl
@[simp] theorem State.fab_putQp (q : Qp) : (s.putQp q).fab = s.fab := rfl
@[simp] theorem State.weav_putQp (q : Qp) : (s.putQp q).weav = s.weav := rfl
@[simp] theorem State.clk_putQp (q : Qp) : (s.putQp q).clk = s.clk := rfl
@[simp] theorem State.out_putQp (q : Qp) : (s.putQp q).out = s.out := rfl
@[simp] theorem State.freeCtr_putQp (q : Qp) : (s.putQp q).freeCtr = s.freeCtr := rfl
@[simp] theorem State.pending_putQp (q : Qp) : (s.putQp q).pending = s.pending := rfl

/-! ## setSession -/

@[simp] theorem State.regs_setSession (t : Fin 16) (x : Session) : (s.setSession t x).regs = s.regs := rfl
@[simp] theorem State.bulk_setSession (t : Fin 16) (x : Session) : (s.setSession t x).bulk = s.bulk := rfl
@[simp] theorem State.scache_setSession (t : Fin 16) (x : Session) : (s.setSession t x).scache = s.scache := rfl
@[simp] theorem State.stores_setSession (t : Fin 16) (x : Session) : (s.setSession t x).stores = s.stores := rfl
@[simp] theorem State.locals_setSession (t : Fin 16) (x : Session) : (s.setSession t x).locals = s.locals := rfl
@[simp] theorem State.sramErr_setSession (t : Fin 16) (x : Session) : (s.setSession t x).sramErr = s.sramErr := rfl
@[simp] theorem State.tinkers_setSession (t : Fin 16) (x : Session) : (s.setSession t x).tinkers = s.tinkers := rfl
@[simp] theorem State.cells_setSession (t : Fin 16) (x : Session) : (s.setSession t x).cells = s.cells := rfl
@[simp] theorem State.slices_setSession (t : Fin 16) (x : Session) : (s.setSession t x).slices = s.slices := rfl
@[simp] theorem State.stk_setSession (t : Fin 16) (x : Session) : (s.setSession t x).stk = s.stk := rfl
@[simp] theorem State.pool_setSession (t : Fin 16) (x : Session) : (s.setSession t x).pool = s.pool := rfl
@[simp] theorem State.flash_setSession (t : Fin 16) (x : Session) : (s.setSession t x).flash = s.flash := rfl
@[simp] theorem State.fab_setSession (t : Fin 16) (x : Session) : (s.setSession t x).fab = s.fab := rfl
@[simp] theorem State.weav_setSession (t : Fin 16) (x : Session) : (s.setSession t x).weav = s.weav := rfl
@[simp] theorem State.clk_setSession (t : Fin 16) (x : Session) : (s.setSession t x).clk = s.clk := rfl
@[simp] theorem State.out_setSession (t : Fin 16) (x : Session) : (s.setSession t x).out = s.out := rfl
@[simp] theorem State.freeCtr_setSession (t : Fin 16) (x : Session) : (s.setSession t x).freeCtr = s.freeCtr := rfl
@[simp] theorem State.pending_setSession (t : Fin 16) (x : Session) : (s.setSession t x).pending = s.pending := rfl

/-! ## pass -/

@[simp] theorem State.regs_pass (c m : Nat) (bs : List Byte) : (s.pass c m bs).regs = s.regs := rfl
@[simp] theorem State.bulk_pass (c m : Nat) (bs : List Byte) : (s.pass c m bs).bulk = s.bulk := rfl
@[simp] theorem State.scache_pass (c m : Nat) (bs : List Byte) : (s.pass c m bs).scache = s.scache := rfl
@[simp] theorem State.stores_pass (c m : Nat) (bs : List Byte) : (s.pass c m bs).stores = s.stores := rfl
@[simp] theorem State.locals_pass (c m : Nat) (bs : List Byte) : (s.pass c m bs).locals = s.locals := rfl
@[simp] theorem State.sramErr_pass (c m : Nat) (bs : List Byte) : (s.pass c m bs).sramErr = s.sramErr := rfl
@[simp] theorem State.tinkers_pass (c m : Nat) (bs : List Byte) : (s.pass c m bs).tinkers = s.tinkers := rfl
@[simp] theorem State.cells_pass (c m : Nat) (bs : List Byte) : (s.pass c m bs).cells = s.cells := rfl
@[simp] theorem State.slices_pass (c m : Nat) (bs : List Byte) : (s.pass c m bs).slices = s.slices := rfl
@[simp] theorem State.stk_pass (c m : Nat) (bs : List Byte) : (s.pass c m bs).stk = s.stk := rfl
@[simp] theorem State.pool_pass (c m : Nat) (bs : List Byte) : (s.pass c m bs).pool = s.pool := rfl
@[simp] theorem State.flash_pass (c m : Nat) (bs : List Byte) : (s.pass c m bs).flash = s.flash := rfl
@[simp] theorem State.fab_pass (c m : Nat) (bs : List Byte) : (s.pass c m bs).fab = s.fab := rfl
@[simp] theorem State.weav_pass (c m : Nat) (bs : List Byte) : (s.pass c m bs).weav = s.weav := rfl
@[simp] theorem State.clk_pass (c m : Nat) (bs : List Byte) : (s.pass c m bs).clk = s.clk := rfl
@[simp] theorem State.out_pass (c m : Nat) (bs : List Byte) : (s.pass c m bs).out = s.out := rfl
@[simp] theorem State.freeCtr_pass (c m : Nat) (bs : List Byte) : (s.pass c m bs).freeCtr = s.freeCtr := rfl
@[simp] theorem State.pending_pass (c m : Nat) (bs : List Byte) : (s.pass c m bs).pending = s.pending := rfl

/-! ## Reads of the part that was set -/

@[simp] theorem State.bank_set_self (c b : Nat) (x : Option Bank) : (s.setBank c b x).bank c b = x := by
  simp [State.bank, State.setBank]

@[simp] theorem State.session_set_self (t : Fin 16) (x : Session) : (s.setSession t x).session t = x :=
  Tab.get_set_self _ _ _ _

theorem State.session_set_other {t u : Fin 16} (x : Session) (h : u ≠ t) : (s.setSession t x).session u = s.session u :=
  Tab.get_set_other _ _ _ (fun k => h (Fin.ext k))

/-- Setting the state of a transaction sets its field. -/
@[simp] theorem State.set_txn_state (t : Fin 16) (k v : Nat) :
    s.setTxnState t k v = s.setFld Fd.poolTxnSlotState 0 (8 * t.val + k) v := by unfold State.setTxnState; rfl

/-! ## Messages -/

/-- Sending an Ethernet packet counts it at its port. -/
@[simp] theorem State.send_eth (p : EthPacket) : s.sendEth p = (s.bump Fd.ethTxFrames p.port).send (.eth p) := by unfold State.sendEth; rfl

/-- Sending a message places packets at the router and does nothing else. -/
theorem State.send_msg_frame (dst : Nat) (m : Msg) (v : Option Nat) (k : Option (Nat × Nat)) :
    ∃ f, s.sendMsg dst m v k = { s with fab := f } := by
  have key : ∀ (g : Nat → Packet) (vc : Nat) (l : List Nat) (z : State),
      ∃ f, l.foldl (fun y i => y.inject vc (g i) v k) z = { z with fab := f } := by
    intro g vc l
    induction l with
    | nil => exact fun z => ⟨z.fab, rfl⟩
    | cons a l ih => exact fun z => (ih (z.inject vc (g a) v k)).imp (fun _ h => h)
  exact key _ _ _ s

/-- Sending segments to a host counts frames and changes what was sent, and nothing else. -/
theorem State.send_segments_frame (port : Nat) (ip : BitVec 128) (udp : BitVec 16) (kind : Nat) (keys : Option Keys) (seq msg : Nat) (bs : List Byte) :
    ∃ r o, s.sendSegments port ip udp kind keys seq msg bs = { s with regs := r, out := o } := by
  have key : ∀ (g : Nat → EthPacket) (l : List Nat) (z : State), ∃ r o, l.foldl (fun y i => y.sendEth (g i)) z = { z with regs := r, out := o } := by
    intro g l
    induction l with
    | nil => exact fun z => ⟨z.regs, z.out, rfl⟩
    | cons a l ih =>
      intro z
      obtain ⟨r, o, h⟩ := ih (z.sendEth (g a))
      exact ⟨r, o, h⟩
  exact key _ _ s

end Sys2Proof.Machine
end

