-- ==== Sys2Proof/Tests/Slice0.lean ====
section
/-! SUPPORT. Tests: what the checks of WellFormed refuse, words written out from the formats of the manual, small steps with results
from the manual's tables, and for each statement with hypotheses a state and operands that meet them. -/

namespace Sys2Proof.Tests

open Sys2Proof Sys2Proof.Machine Sys2Proof.Claims Sys2Proof.Laws

set_option Elab.async false

/-! ## Ill-formed terms -/

theorem test_shi_kind_three_is_ill_formed : wellFormed (.shi 0 1 2 0x60) = false := by decide
theorem test_shi_kind_two_is_well_formed : wellFormed (.shi 0 1 2 0x40) = true := by decide
theorem test_bp_condition_three_is_ill_formed : wellFormed (.bp 0 1 3 0) = false := by decide
theorem test_load_width_three_is_ill_formed : wellFormed (.load 0 1 2 3 false 0) = false := by decide
theorem test_store_width_three_is_ill_formed : wellFormed (.store 0 1 2 3 false 0) = false := by decide
theorem test_loadg_width_three_is_ill_formed : wellFormed (.loadg 0 1 2 3 false 0) = false := by decide
theorem test_storeg_width_three_is_ill_formed : wellFormed (.storeg 0 1 2 3 false 0) = false := by decide
theorem test_vld_format_four_is_ill_formed : wellFormed (.vld 0 1 2 3 0 4 false 0) = false := by decide
theorem test_vst_format_four_is_ill_formed : wellFormed (.vst 0 1 2 3 0 4 false 0) = false := by decide
theorem test_vector_register_sixteen_is_ill_formed : wellFormed (.vadd 0 16 2 3 0) = false ∧ wellFormed (.vfabs 0 1 16 0) = false ∧
    wellFormed (.vbcast 0 16 1 0) = false ∧ wellFormed (.vext 0 1 16 0) = false ∧ wellFormed (.virsum 0 1 16 0) = false ∧
    wellFormed (.log2F 0 16 1 0 false) = false := by decide
theorem test_compare_destination_eight_is_ill_formed : wellFormed (.leq 0 8 2 3 0) = false ∧ wellFormed (.leq 0 7 2 3 0) = true := by decide
theorem test_predicate_destination_eight_is_ill_formed : wellFormed (.pand 0 8 2 3) = false ∧ wellFormed (.pnot 0 8 2) = false := by decide
theorem test_short_frame_is_ill_formed : wellFormed (.ethFrameReceive 0 ⟨0, none, 0, .other, 0, 0, false, [], [], []⟩) = false := by decide
theorem test_long_chain_is_ill_formed : wellFormed (.updateImageArrive [] (List.replicate 4097 0) [] 0) = false := by decide +kernel

/-! ## Words of the formats (R85 to R109), the fields written out bit by bit -/

theorem test_decode_scalar_register : decodeTinker 7 0b000000_00111_01000_01001_00000001001#32 0x0#32 = some (.sltu 7 7 8 9) := by decide
theorem test_decode_scalar_immediate : decodeTinker 7 0b000100_00011_11110_10000_00000000001#32 0x0#32 = some (.xori 7 3 30 0x8001) := by decide
theorem test_decode_shift_immediate : decodeTinker 7 0b000111_00011_11110_00000_00000100101#32 0x0#32 = some (.shi 7 3 30 0x25) := by decide
theorem test_decode_lui : decodeTinker 7 0b001000_11111_00000_00010_01000110100#32 0x0#32 = some (.lui 7 31 0x1234) := by decide
theorem test_decode_load : decodeTinker 7 0b010000_00100_00101_01111_11111111110#32 0x0#32 = some (.load 7 4 5 1 true (-2)) := by decide
theorem test_decode_store : decodeTinker 7 0b010001_00100_00101_10001_11111111111#32 0x0#32 = some (.store 7 4 5 2 false 4095) := by decide
theorem test_decode_loadg : decodeTinker 7 0b010010_00100_00110_00000_00000000001#32 0x0#32 = some (.loadg 7 4 6 0 false 1) := by decide
theorem test_decode_storeg : decodeTinker 7 0b010011_00100_00110_10011_11111111100#32 0x0#32 = some (.storeg 7 4 6 2 false (-4)) := by decide
theorem test_decode_atomic : decodeTinker 7 0b010100_00101_01000_01001_01010000010#32 0x0#32 = some (.cas 7 5 8 9 10) := by decide
theorem test_decode_history : decodeTinker 7 0b010100_00101_01000_01001_00000001000#32 0x0#32 = some (.hmerge 7 5 8 9) := by decide
theorem test_decode_predicate_branch : decodeTinker 7 0b010111_10110_00000_11111_11111111110#32 0x0#32 = some (.bp 7 5 2 (-2)) := by decide
theorem test_decode_branch : decodeTinker 7 0b011100_00001_00010_01111_11111111111#32 0x0#32 = some (.bltu 7 1 2 0x7FFF) := by decide
theorem test_decode_jal : decodeTinker 7 0b011110_00001_10000_00000_00000000001#32 0x0#32 = some (.jal 7 1 0x100001) := by decide
theorem test_decode_jalr : decodeTinker 7 0b011111_00001_00010_11111_11111111100#32 0x0#32 = some (.jalr 7 1 2 (-4)) := by decide
theorem test_decode_vfp : decodeTinker 7 0b100000_00011_00001_00010_01000000011#32 0x0#32 = some (.vfma 7 3 1 2 2) := by decide
theorem test_decode_vint : decodeTinker 7 0b100001_01111_01110_01101_11100001000#32 0x0#32 = some (.vsra 7 15 14 13 7) := by decide
theorem test_decode_vlog : decodeTinker 7 0b100010_00100_00101_00000_00100000100#32 0x0#32 = some (.lhalf 7 4 5 1) := by decide
theorem test_decode_vsf : decodeTinker 7 0b100011_00100_00101_00000_00100000111#32 0x0#32 = some (.log2F 7 4 5 1 true) := by decide
theorem test_decode_vcvt : decodeTinker 7 0b100100_00100_00101_00000_00100000101#32 0x0#32 = some (.f2q 7 4 5 1) := by decide
theorem test_decode_vcmp : decodeTinker 7 0b100101_00110_00101_00100_01100010010#32 0x0#32 = some (.lle 7 6 5 4 3) := by decide
theorem test_decode_pnot : decodeTinker 7 0b100101_00110_00101_00000_00000100011#32 0x0#32 = some (.pnot 7 6 5) := by decide
theorem test_decode_vmov : decodeTinker 7 0b100110_01001_00100_00101_00000000011#32 0x0#32 = some (.vext 7 9 4 5) := by decide
theorem test_decode_vred : decodeTinker 7 0b100111_01001_00100_00000_01000000011#32 0x0#32 = some (.vlrmax 7 9 4 2) := by decide
theorem test_decode_vld : decodeTinker 7 0b101000_00011_01001_01010_00101011000#32 0x0#32 = some (.vld 7 3 9 10 1 2 true (-8)) := by decide
theorem test_decode_vst : decodeTinker 7 0b101001_00011_01001_01010_00101100111#32 0x0#32 = some (.vst 7 3 9 10 1 3 false 7) := by decide
theorem test_decode_system : decodeTinker 7 0b110000_00000_01001_00000_11000000001#32 0x0#32 = some (.csrw 7 9 6) := by decide
theorem test_decode_waitq : decodeTinker 7 0b110000_00000_01001_00001_10000100001#32 0x0#32 = some (.waitq 7 9 12) := by decide
theorem test_decode_issue : decodeTinker 7 0b110001_00100_01001_00111_00000000000#32 0x0#32 = some (.issue 7 4 9 3 true) := by decide
theorem test_decode_issue_long : decodeTinker 7 0b111111_00100_00010_00000_00000011011#32 0x1fffc0#32 = some (.issueL 7 4 11 true 0x1FFFC0) := by decide
theorem test_decode_lip : decodeTinker 7 0b111111_01001_00001_00100_00000000000#32 0x89abcdef#32 = some (.lip 7 9 0x2000 0x89ABCDEF) := by decide
theorem test_decode_ja : decodeTinker 7 0b111111_00001_00011_00000_00000000000#32 0x200004#32 = some (.ja 7 1 0x200004) := by decide
theorem test_decode_undefined_function : decodeTinker 7 0b00000000001000100001100000001111#32 0 = none := by decide
theorem test_decode_undefined_opcode : decodeTinker 7 0b00100100001000100001100000000000#32 0 = none := by decide
theorem test_decode_ill_formed_register : decodeTinker 7 0b10000010000000010001000000000000#32 0 = none := by decide

/-! ## Small machines -/

/-- The state after reset in which tenant 0 is admitted and holds every cell group. -/
def held : State := (State.reset.setFld Fd.ethAdmitAdmitted 0 0 1).setFld Fd.ethAdmitCgMask 0 0 0xFFFF

/-- Tinker 0 runs with these contents. -/
def tkState (a : Tinker) : State := { held.setFld Fd.cellTkRun0 0 0 1 with tinkers := [(0, a)] }

/-- Tinker 0 with general registers. -/
def withG (g : Tab Word) : Tinker := { Tinker.init with g := g, pc := 0x100 }

/-- What a state after a command says of Tinker 0. -/
def after (i : Instr) (s : State) (f : State → Bool) : Bool :=
  match exec i s with
  | .next t => f t
  | _ => false

/-- What one lane of register 3 holds after a vector instruction on registers 1 and 2, whose lane 0 holds x and y. -/
def lane0 (i : Instr) (x y : Word) (f : State → Bool) : Bool :=
  after i (tkState { Tinker.init with v := [(8, x), (16, y)] }) f

/-! ## Steps with results from the manual -/

/-- R88: addition is modulo 2^32, and g0 discards a write. -/
theorem test_add_wraps : after (.add 0 5 1 2) (tkState (withG [(1, 0xFFFFFFFF), (2, 3)])) (fun t =>
    decide ((t.tinker 0).gr 5 = 2 ∧ (t.tinker 0).pc = 0x104)) = true := by decide +kernel
theorem test_add_to_g0_is_discarded : after (.add 0 0 1 2) (tkState (withG [(1, 1), (2, 3)])) (fun t =>
    decide ((t.tinker 0).gr 0 = 0 ∧ (t.tinker 0).pc = 0x104)) = true := by decide +kernel
/-- R88: the high word of the signed product of -1 and 2 is -1, of the unsigned one 1. -/
theorem test_mulh_is_signed : after (.mulh 0 5 1 2) (tkState (withG [(1, 0xFFFFFFFF), (2, 2)])) (fun t =>
    decide ((t.tinker 0).gr 5 = 0xFFFFFFFF)) = true := by decide +kernel
theorem test_mulhu_is_unsigned : after (.mulhu 0 5 1 2) (tkState (withG [(1, 0xFFFFFFFF), (2, 2)])) (fun t =>
    decide ((t.tinker 0).gr 5 = 1)) = true := by decide +kernel
/-- R88: SRA by rs2[4:0] keeps the sign. -/
theorem test_sra_uses_five_bits : after (.sra 0 5 1 2) (tkState (withG [(1, 0x80000000), (2, 36)])) (fun t =>
    decide ((t.tinker 0).gr 5 = 0xF8000000)) = true := by decide +kernel
/-- R88: SLTIU sign-extends its immediate and compares unsigned. -/
theorem test_sltiu_extends_its_immediate : after (.sltiu 0 5 1 0xFFFF) (tkState (withG [(1, 0xFFFF)])) (fun t =>
    decide ((t.tinker 0).gr 5 = 1)) = true := by decide +kernel
/-- R89: JALR reads its base before it writes the link. -/
theorem test_jalr_reads_before_it_writes : after (.jalr 0 1 1 7) (tkState (withG [(1, 0x200)])) (fun t =>
    decide ((t.tinker 0).pc = 0x204 ∧ (t.tinker 0).gr 1 = 0x104)) = true := by decide +kernel
/-- R90: a byte load sign-extends. -/
theorem test_load_byte_extends : after (.load 0 5 1 0 false 3) { tkState (withG [(1, 0x10)]) with locals := [(0x13, 0x80)] } (fun t =>
    decide ((t.tinker 0).gr 5 = 0xFFFFFF80)) = true := by decide +kernel
/-- R79, R90: a word store is little-endian, and its low address bits are ignored; 2^21 on is the cell store. -/
theorem test_store_word_is_little_endian : after (.store 0 5 1 2 false 3) (tkState (withG [(1, 0x200010), (5, 0x11223344)])) (fun t =>
    decide (t.stores = [(0x10, 0x44), (0x11, 0x33), (0x12, 0x22), (0x13, 0x11)] ∧ t.locals = [])) = true := by decide +kernel
/-- R84: a trap without a handler halts the Tinker with its TRAP bit set. -/
theorem test_trap_halts_without_a_handler : after (.trap 0 1) (tkState (withG [(1, 7)])) (fun t =>
    decide ((t.tinker 0).tval = 7 ∧ (t.tinker 0).epc = 0x100 ∧ (t.tinker 0).cstat = 0x05010000#32 ∧ t.running 0 = false ∧
      t.bitOf Fd.cellTkTrap0 0 0 0 = true)) = true := by decide +kernel
/-- R93, R98: the LX32 code of 1.0 is 2^30. -/
theorem test_x2f_of_one : lane0 (.x2f 0 3 1 0) 0x40000000 0 (fun t => decide ((t.tinker 0).vr 3 0 = 0x3F800000#32)) = true := by
  decide +kernel
/-- R96: a product adds logarithms: 2 times -1 is -2. -/
theorem test_lmul_adds_logarithms : lane0 (.lmul 0 3 1 2 0) 0x40000400 0xC0000000 (fun t =>
    decide ((t.tinker 0).vr 3 0 = 0xC0000400#32)) = true := by decide +kernel
/-- R96: division by zero gives NaR, counted as a NaR result. -/
theorem test_ldiv_by_zero : lane0 (.ldiv 0 3 1 2 0) 0x40000000 0 (fun t =>
    decide ((t.tinker 0).vr 3 0 = 0x80000000#32 ∧ (t.tinker 0).narc = 8)) = true := by decide +kernel
/-- R94: 1 + 2^-24 rounds to even, with NX (R77). -/
theorem test_vfadd_rounds_to_even : lane0 (.vfadd 0 3 1 2 0) 0x3F800000 0x33800000 (fun t =>
    decide ((t.tinker 0).vr 3 0 = 0x3F800000#32 ∧ (t.tinker 0).cstat ≠ 0)) = true := by decide +kernel
/-- R98: F2I of 2.5 rounds to even. -/
theorem test_f2i_rounds_to_even : lane0 (.f2i 0 3 1 0) 0x40200000 0 (fun t => decide ((t.tinker 0).vr 3 0 = 2#32)) = true := by
  decide +kernel
/-- R99: a compare writes 0 for an inactive lane. -/
theorem test_compare_clears_inactive_lanes : after (.ieq 0 2 1 1 1) (tkState { Tinker.init with p := [(1, 0x0F), (2, 0xFF)] }) (fun t =>
    decide ((t.tinker 0).pr 2 = 0x0F#8)) = true := by decide +kernel
/-- R100: the integer sum of eight lanes. -/
theorem test_virsum_adds_lanes : after (.virsum 0 4 1 0) (tkState { Tinker.init with v := [(8, 5), (15, 7)] }) (fun t =>
    decide ((t.tinker 0).gr 4 = 12#32)) = true := by decide +kernel
/-- R91: an L4 store leaves the nibbles of inactive lanes. -/
theorem test_vst_keeps_inactive_nibbles : after (.vst 0 3 1 2 1 1 false 0)
    { tkState { Tinker.init with v := [(25, 0x40000000)], p := [(1, 0x02)] } with locals := [(0, 0x33)] } (fun t =>
    decide (t.locals = [(0, 0x43)])) = true := by decide +kernel

/-! ## Witnesses: the Tinkers -/

/-- A Tinker that can run. -/
theorem test_meets_can_run : (tkState Tinker.init).canRun 0 = true := by decide +kernel

/-- UndefinedEncodingsTakeTheIllegalTrap, and a handler or none. -/
theorem test_meets_undefined_encoding : (0x60 : BitVec 16).extractLsb' 5 2 = 3#2 ∧ 16 ≤ (16 : BitVec 5).toNat ∧
    (tkState { Tinker.init with tvec := 0x40 }).canRun 0 = true ∧
    ((tkState { Tinker.init with fetched := [(0, 0x24000000)] }).tinker 0).fetched = [((Tinker.init).pc.toNat, 0x24000000)] ∧
    (tkState { Tinker.init with fetched := [(0, 0x24000000)] }).canRun 0 = true ∧ decodeTinker 0 0x24000000 0 = none := by decide +kernel

/-- WaitqWaitsForItsCount: a count that is reached, one that is not, and a Tinker that waits for one that has been. -/
theorem test_meets_waitq :
    0 ≤ (BitVec.ofNat 32 ((tkState Tinker.init).fld Fd.cellSqDone 0 0) - ((tkState Tinker.init).tinker 0).gr 1).toInt ∧
    ¬ 0 ≤ (BitVec.ofNat 32 ((tkState (withG [(1, 1)])).fld Fd.cellSqDone 0 0) - ((tkState (withG [(1, 1)])).tinker 0).gr 1).toInt ∧
    ((tkState { Tinker.init with wait := .waitq 0 0 }).tinker 0).wait = .waitq 0 0 ∧
    (tkState { Tinker.init with wait := .waitq 0 0 }).cellDead 0 = false := by decide +kernel

/-- A queue of 64 pointers. -/
def fullQueue (s : State) : State := s.setQueue 0 0 ((List.range 64).map (fun i => ⟨64 * i, none, i, i, false, none, none, false, false⟩))

/-- IssueAppendsOrWaits: a queue with room, a full one, a Tinker that waits for room that has come, and a descriptor that is no CANCEL. -/
theorem test_meets_issue : (tkState Tinker.init).queueRoom 0 0 = true ∧ (fullQueue (tkState Tinker.init)).queueRoom 0 0 = false ∧
    (fullQueue (tkState Tinker.init)).canRun 0 = true ∧
    ((tkState { Tinker.init with wait := .issue 4 64 0 4 }).tinker 0).wait = .issue 4 64 0 4 ∧
    (tkState { Tinker.init with wait := .issue 4 64 0 4 }).cellDead 0 = false ∧
    fieldB (((tkState Tinker.init).storeRead 0 64 2).1) 0 2 ≠ 0x0F01 := by decide +kernel

/-- FetchTakesTheNextWord: a word of the local memory, one of the cell store that the buffer does not hold, and one that it holds. -/
theorem test_meets_fetch :
    (tkState Tinker.init).running 0 = true ∧ (tkState Tinker.init).cellDead 0 = false ∧ (tkState Tinker.init).sramErr = [] ∧
    (tkState Tinker.init).undefinedWord 0 = none ∧ (tkState { Tinker.init with fetched := [(0, 0x04000000)] }).undefinedWord 0 = none ∧
    isLocal 0 = true ∧ isLocal (2 ^ 21) = false ∧
    (∀ bs, Tab.get (fun _ => none) ((tkState { Tinker.init with pc := 0x200000 }).tinker 0).ibuf 0 ≠ some (2 ^ 21, bs)) ∧
    Tab.get (fun _ => none) ((tkState { Tinker.init with pc := 0x200000, ibuf := [(0, some (2 ^ 21, List.replicate 64 1, []))] }).tinker 0).ibuf 0 =
      some (2 ^ 21, List.replicate 64 1, []) := by
  refine ⟨by decide +kernel, by decide +kernel, by decide +kernel, by decide +kernel, by decide +kernel, by decide, by decide, fun bs => ?_, by decide +kernel⟩
  simp [tkState, State.tinker, Tab.get, Tinker.init]

/-- GlobalAccessesAnswerOrTrap: a load from the Tinker's own cell store is answered, one from a frame of nobody is refused. -/
theorem test_meets_global_access :
    let ok := tkState (withG [(3, 0x3000)])
    let no := tkState (withG [])
    let x : TkAcc := ⟨5, 0x300000000000, .load 4 false, none⟩
    let y : TkAcc := ⟨5, 0, .load 4 false, none⟩
    ok.canRun 0 = true ∧ x.addr = (ok.tinker 0).alignedGlobal 2 0 4 ∧ placeOf x.addr = .store 0 0 ∧ (ok.perform 0 x).1.1 = 0 ∧
      (ok.perform 0 x).2.cellDead 0 = false ∧ y.addr = (no.tinker 0).alignedGlobal 2 0 4 ∧ placeOf y.addr = .bulk 0 ∧
      (no.perform 0 y).1.1 = 0x2005 ∧ (no.perform 0 y).2.cellDead 0 = false := by decide +kernel

/-- AtomicsActWholeAtTheirSlice, HistoryInstructionsActAtTheirSlice: the last word of the shared cache; a frozen record and another; and
an address below it. -/
theorem test_meets_atomics :
    let s := tkState (withG [(2, 0x0BFFFFFC), (3, 0x2000)])
    s.canRun 0 = true ∧ s.slices = [] ∧ s.sramErr = [] ∧ (s.tinker 0).pairAddr 2 / 4 * 4 = 0x200000000000 + 0xBFFFFFC ∧
      s.ownsSlice (s.cellWho 0) (sliceOf 0xBFFFFFC) = true ∧ (tkState (withG [])).canRun 0 = true ∧
      ((tkState (withG [])).tinker 0).pairAddr 2 / 4 * 4 < 0x200000000000 := by decide +kernel

/-- ComparesWriteTheirPredicate and VectorInstructionsRunLaneByLane: the highest registers, under a predicate with lanes off. -/
theorem test_meets_vector : (15 : BitVec 5).toNat < 16 ∧ (7 : BitVec 5).toNat < 8 ∧
    (tkState { Tinker.init with p := [(1, 0x5A)] }).canRun 0 = true := by decide +kernel

/-- LogarithmicLanesByTheirCodes: codes whose product and quotient stand inside the format, and a negative one. -/
theorem test_meets_lanes : 1 ≤ ((0x40000400 % 2 ^ 31 : Nat) : Int) + (0x40000000 % 2 ^ 31 : Nat) - 2 ^ 30 ∧
    ((0x40000400 % 2 ^ 31 : Nat) : Int) + (0x40000000 % 2 ^ 31 : Nat) - 2 ^ 30 ≤ 2 ^ 31 - 1 ∧ 0xC0000000 / 2 ^ 31 = 1 := by decide

/-- DecodingInvertsEncoding: a word of one word, and one of two. -/
theorem test_meets_encoding : wellFormed (.lle 7 6 5 4 3) = true ∧ encodeTinker (.lle 7 6 5 4 3) = some (0x94C52312, none) ∧
    wellFormed (.ja 7 1 0x200004) = true ∧ encodeTinker (.ja 7 1 0x200004) = some (0xFC230000, some 0x200004) := by decide

/-! ## Witnesses: registers, resets, ports -/

/-- RegisterWritesFollowTheAccessCodes: the Clerk may write; tenant 0, which is no manager, may not. -/
theorem test_meets_register_write : MayWrite State.reset .clerk (Fd.moduleRiskThresh.reg 0 0) ∧
    MayWrite State.reset .clerk (Fd.moduleHoleCnt.reg 0 0) ∧ MayWrite held (.tenant 0) (Fd.cellTkTrap0.reg 255 0) ∧
    held.ctlPerm (.tenant 0) (Fd.moduleRiskThresh.reg 0 0) ≠ .full := by unfold MayWrite; decide +kernel

/-- RunBitsStartAndStopTinkers: the RUN bits of the last cell. -/
theorem test_meets_run_write : MayWrite held (.tenant 0) (Fd.cellTkRun0.reg 255 0) ∧ MayWrite held (.tenant 0) (Fd.cellTkRun1.reg 255 0) := by
  unfold MayWrite; decide +kernel

/-- StreamsDrawArmAndSkew: a stream at rest, one armed astray, and one that is skewed. -/
theorem test_meets_streams :
    MayWrite held (.tenant 0) (Fd.moduleStreamDraw.reg 0 0) ∧ MayWrite held (.tenant 0) (Fd.moduleStreamSeed.reg 0 3) ∧
    MayWrite held (.tenant 0) (Fd.moduleStreamOffset.reg 0 3) ∧ MayWrite held (.tenant 0) (Fd.moduleDataPos.reg 0 0) ∧
    held.fld Fd.moduleStreamCfgSkew 0 0 ≠ 1 ∧ held.fld Fd.moduleStreamCfgArmed 0 0 ≠ 1 ∧
    (let s := (held.setFld Fd.moduleStreamCfgArmed 0 0 1).setFld Fd.moduleStreamOffset 0 0 5
     s.fld Fd.moduleStreamCfgSkew 0 0 ≠ 1 ∧ s.fld Fd.moduleStreamCfgArmed 0 0 = 1 ∧
      s.reg (Fd.moduleStreamOffset.reg 0 0) ≠ BitVec.ofNat 64 (s.fld Fd.moduleStreamCfgRate 0 0) *
        (s.reg (Fd.moduleDataPos.reg 0 0) - s.reg (Fd.moduleStreamBase.reg 0 0))) ∧
    (held.setFld Fd.moduleStreamCfgSkew 0 0 1).fld Fd.moduleStreamCfgSkew 0 0 = 1 := by unfold MayWrite; decide +kernel

/-- PairingAsksAnswersAndTimesOut: a pairing that waits. -/
theorem test_meets_pairing : MayWrite held (.tenant 0) (Fd.modulePartnerId.reg 0 0) ∧
    (let s := { held.setFld Fd.moduleFeedFeedId 0 0 7 with clk := { ClkSt.init with pairing := [0] } }
     (0 : Fin 16) ∈ s.clk.pairing ∧ s.fld Fd.moduleFeedFeedId ≠ 0 ∧ s.fld Fd.moduleFeedFeedId ≠ (9 : BitVec 16).toNat) := by
  unfold MayWrite; decide +kernel

/-- DoorbellsAppendOrCount: a queue with room, a full one, and a fenced cell. -/
theorem test_meets_doorbell : MayWrite held (.tenant 0) (Fd.cellDoorbell.reg 0 15) ∧ held.fenced 0 = false ∧ held.queueRoom 0 15 = true ∧
    fieldB ((held.storeRead 0 0 2).1) 0 2 ≠ 0x0F01 ∧ MayWrite (fullQueue held) (.tenant 0) (Fd.cellDoorbell.reg 0 0) ∧
    (fullQueue held).fenced 0 = false ∧ (fullQueue held).queueRoom 0 0 = false ∧
    MayWrite (held.setFld Fd.cellStateFenced 0 0 1) (.tenant 0) (Fd.cellDoorbell.reg 0 0) ∧
    (held.setFld Fd.cellStateFenced 0 0 1).fenced 0 = true := by unfold MayWrite; decide +kernel

/-- MemorySideOperationsRunOrAreRefused: SERVICE, NORMAL, and an operation that runs. -/
theorem test_meets_memory_side : MayWrite held .clerk (Fd.stackMsGoKind.reg 11 0) ∧ (held.setFld Fd.stackMode 11 0 0).fld Fd.stackMode 11 = 0 ∧
    (let s := (held.setFld Fd.stackMode 11 0 1).setFld Fd.stackMsCount 11 0 1
     s.fld Fd.stackMode 11 ≠ 0 ∧ s.fld Fd.stackMsStatusBusy 11 = 0 ∧ s.fld Fd.stackMsCount 11 ≠ 0 ∧ MayWrite s .clerk (Fd.stackMsGoKind.reg 11 0)) ∧
    ({ held with stk := { held.stk with ms := [⟨11, 0⟩] } }).stk.ms.find? (fun o : MsOp => decide (o.stack = 11)) = some ⟨11, 0⟩ := by
  unfold MayWrite; decide +kernel

/-- The state after reset in a phase. -/
def inPhase (p : Phase) : State := { held with clk := { ClkSt.init with phase := p } }

/-- EverySourceResetsTheModule. -/
theorem test_meets_resets : (inPhase .off).clk.phase = .off ∧ (inPhase .off).clk.inputSwitch = true ∧ (inPhase .running).powered = true ∧
    (inPhase .pinLow).clk.phase = .pinLow ∧ (inPhase .running).clerkRuns = true ∧
    (inPhase .running).fld Fd.moduleTempTrip 0 38 ≤ (0xFFF : BitVec 12).toNat ∧ (inPhase .holdup).clk.phase = .holdup ∧
    MayWrite held .clerk (Fd.moduleSwResetArm.reg 0 0) ∧
    (let s := { held with clk := { ClkSt.init with armed := some 0 } }
     s.clk.armed = some 0 ∧ (s.fld (Fd.cycles .clerk) + 2 ^ 64 - 0) % 2 ^ 64 ≤ 2 ^ 20) ∧
    (let s := { held with clk := { ClkSt.init with armed := some 1 } }
     s.clk.armed = some 1 ∧ 2 ^ 20 < (s.fld (Fd.cycles .clerk) + 2 ^ 64 - 1) % 2 ^ 64) ∧
    (let s := { held with clk := { ClkSt.init with accepted := some ⟨4, 1, [], .eth 0 0 0⟩ } }
     s.clk.accepted = some ⟨4, 1, [], .eth 0 0 0⟩) := by unfold MayWrite; decide +kernel

/-- UnitResetHoldsAndReleases, MemoryModeRequestsSetTheNamedStacks. -/
theorem test_meets_unit_reset : MayWrite held .clerk ((Fd.swrstReset .cell).reg 255 0) ∧ MayWrite held .clerk ((Fd.swrstReset .scecy).reg 23 0) ∧
    (held.setFld (Fd.swrstInReset .cell) 255 0 1).inReset .cell 255 = true ∧
    (held.setFld (Fd.swrstInReset .scecy) 23 0 1).inReset .scecy 23 = true ∧ MayWrite held .clerk (Fd.moduleMemReqStacks.reg 0 0) := by
  unfold MayWrite; decide +kernel

/-- A port in a state. -/
def portIn (link : Nat) (x : PortSt) : State := { held.setFld Fd.scecyStateLink 23 0 link with fab := ⟨[(23, x)], [], [], [], 0, 0⟩ }

/-- ScecyPortsTrainAndGoDown. -/
theorem test_meets_ports : MayWrite held .clerk (Fd.scecyCtrlEnable.reg 23 0) ∧ (portIn 1 PortSt.init).fld Fd.scecyStateLink 23 = 1 ∧
    ((portIn 1 PortSt.init).port 23).retraining = false ∧ (portIn 1 PortSt.init).inReset .scecy 23 = false ∧
    ((portIn 2 { PortSt.init with due := true }).port 23).due = true ∧ (portIn 2 { PortSt.init with due := true }).healthy 23 = true ∧
    ((portIn 1 { PortSt.init with retraining := true }).port 23).retraining = true ∧
    max 1 ((portIn 1 { PortSt.init with retraining := true, fails := 100 }).fld Fd.scecyCtrlRetrainLimit 23) ≤ 100 + 1 ∧
    ((portIn 1 { PortSt.init with retraining := true }).setFld Fd.scecyCtrlRetrainLimit 23 0 3).fld Fd.scecyCtrlRetrainLimit 23 = 3 := by
  unfold MayWrite; decide +kernel

/-! ## Witnesses: commands of a cell -/

/-- A descriptor of an opcode: fields by offset, length and value. -/
def desc (op : Nat) (fs : List (Nat × Nat × Nat)) : List Byte :=
  (List.range 128).map (fun i => BitVec.ofNat 8 (((0, 2, op) :: fs).foldl
    (fun a f => if f.1 ≤ i ∧ i < f.1 + f.2.1 then f.2.2 / 256 ^ (i - f.1) else a) 0))

/-- The first command of cell 0, of tenant 0. -/
def cmdOf (op : Nat) (fs : List (Nat × Nat × Nat)) : Cmd := Cmd.start 0 0 0 0 0 (desc op fs) (some 0) 0

/-- Cell 0 holds one started command. -/
def running (k : Cmd) (s : State := held) : State := s.setCell 0 { CellSt.init with cmds := [k], nextNum := 1 }

/-- The head of a queue of cell 0. -/
def entry (off : Nat) : QEnt := ⟨off, none, 0, 0, false, none, none, false, false⟩

/-- Cell 0 has one pointer on queue 0, to a descriptor at offset 64. -/
def queued (d : List Byte) : State := { held.setQueue 0 0 [entry 64] with stores := Mem.setBytes [] 64 d }

/-- CommandsStartFromTheHead: a MOVE at the head, one whose FENCE does not hold, and one that waits for its tally. -/
theorem test_meets_start :
    let s := queued (desc 0x0101 [])
    let h := s.headCmd 0 0 (entry 64)
    s.cellDead 0 = false ∧ s.queue 0 0 = entry 64 :: [] ∧ h.1.opcode = 0x0101 ∧ s.unfenced 0 0 h.1.fence (entry 64) = true ∧ h.1.tallyIn = 0 ∧
      s.accepts 0 h.1 = true ∧ h.2.1 = false ∧ h.1.txn = false ∧ h.1.chain = false := by decide +kernel
theorem test_meets_no_start : ¬ (((queued (desc 0x0101 [(4, 2, 9)])).headCmd 0 0 (entry 64)).1.tallyIn = 0 ∨ (entry 64).tallyTaken = true) := by
  decide +kernel

/-- UnassignedOpcodesCompleteAtOnce. -/
theorem test_meets_bad_opcode :
    let s := queued (desc 0x0102 [])
    let h := s.headCmd 0 0 (entry 64)
    s.cellDead 0 = false ∧ s.sramErr = [] ∧ s.queue 0 0 = entry 64 :: [] ∧ h.1.opcode ∉ assignedOpcodes ∧ h.1.opcode ≠ 0x0F01 ∧
      h.1.chain = false ∧ h.1.tallyIn = 0 ∧ s.unfenced 0 0 h.1.fence (entry 64) = true ∧ s.accepts 0 h.1 = true := by decide +kernel

/-- TalliesAreConsumed: a local tally at zero, one above, and a shared one at zero and above. -/
theorem test_meets_local_tally :
    let s := queued (desc 0x0101 [(4, 2, 255)])
    let z := s.setFld Fd.cellTally 0 255 3
    s.cellDead 0 = false ∧ s.queue 0 0 = entry 64 :: [] ∧ (s.headCmd 0 0 (entry 64)).1.tallyIn = 255 ∧ s.fld Fd.cellTally 0 255 = 0 ∧
      (z.headCmd 0 0 (entry 64)).1.tallyIn = 255 ∧ z.fld Fd.cellTally 0 255 ≠ 0 := by decide +kernel
theorem test_meets_shared_tally :
    let s := queued (desc 0x0101 [(4, 2, 256)])
    let k := (s.headCmd 0 0 (entry 64)).1
    let z := { s with scache := [(s.tallyOff 0 256, 2)] }
    k.tallyIn = 256 ∧ s.slices = [] ∧ s.sramErr = [] ∧ s.ownsSlice (s.cellWho 0) (sliceOf (s.tallyOff 0 256)) = true ∧
      z.ownsSlice (z.cellWho 0) (sliceOf (z.tallyOff 0 256)) = true ∧ Mem.get z.scache (z.tallyOff 0 256) = 2 ∧
      Mem.get s.scache (s.tallyOff 0 256) = 0 := by decide +kernel

/-- CommandsCompleteWithTheirRecord: a finished MOVE with a tally-out, and a finished CANCEL. -/
theorem test_meets_complete :
    let k := { cmdOf 0x0101 [(6, 2, 255), (8, 4, 0x1FFFE0)] with finished := true }
    let x := { cmdOf 0x0F01 [] with finished := true }
    (running k).cellDead 0 = false ∧ (running k).sramErr = [] ∧ (running k).cmd 0 0 = some k ∧ (running k).mayComplete 0 k = true ∧
      k.histOff = none ∧ k.txn = false ∧ k.q < 16 ∧ k.tallyOut = 255 ∧ x.opcode = 0x0F01 ∧ (running x).mayComplete 0 x = true ∧ x.histOff = none := by
  decide +kernel

/-- FenceWaitsForEarlierCommands: nothing before it, and an earlier command on a queue it names. -/
theorem test_meets_fence :
    let k := { cmdOf 0x0F02 [(16, 2, 1)] with num := 1, root := 1 }
    let s := held.setCell 0 { CellSt.init with cmds := [k], nextNum := 2 }
    let z := held.setCell 0 { CellSt.init with cmds := [cmdOf 0x0101 [], k], nextNum := 2 }
    s.cellDead 0 = false ∧ s.cmd 0 1 = some k ∧ k.opcode = 0x0F02 ∧ k.finished = false ∧
      (∀ y ∈ (s.cell 0).cmds, (k.u 16 2).testBit y.q = true → k.root ≤ y.root) ∧ (s.cell 0).queues = [] ∧
      z.cmd 0 1 = some k ∧ ∃ y ∈ (z.cell 0).cmds, (k.u 16 2).testBit y.q = true ∧ y.root < k.root := by decide +kernel

/-- MoveTakesItsRows and MoveCopiesARow: one row of 5 bytes, from the end of the store to its beginning. -/
def moveCmd : Cmd := cmdOf 0x0101 [(16, 6, 0x3000001FFFF0), (24, 6, 0x300000000008), (32, 4, 5), (36, 4, 1)]
theorem test_meets_move :
    let s := running moveCmd
    Working s 0 0 moveCmd 0x0101 ∧ s.sramErr = [] ∧ moveCmd.tenant = some 0 ∧ s.cellTenant 0 = some 0 ∧ moveCmd.txn = false ∧
      moveCmd.fault = none ∧ moveCmd.cancelled = false ∧ moveCmd.issued = 0 ∧ moveCmd.bytes = 0 ∧ (s.cell 0).xfers = [] ∧ s.fab.outstanding = [] ∧
      s.depthRoom 0 moveCmd.chanq = true ∧ moveCmd.u 36 4 = 1 ∧ moveCmd.module 16 = s.moduleId ∧ moveCmd.module 24 = s.moduleId ∧
      moveCmd.addr 16 = storeBase + 0 * 2 ^ 21 + 0x1FFFF0 ∧ moveCmd.addr 24 = storeBase + 0 * 2 ^ 21 + 8 ∧ moveCmd.u 32 4 = 5 ∧
      (s.cell 0).cmds = [moveCmd] ∧ s.moveReady 0 moveCmd = true := by unfold Working; decide +kernel
theorem test_meets_landing :
    let x : Xfer := ⟨0, 0, [(0x300000000008, [1])], 0, none⟩
    let s := held.setCell 0 { CellSt.init with cmds := [moveCmd], nextNum := 1, xfers := [x] }
    (s.cell 0).xfers[0]? = some x ∧ x.num = 0 ∧ s.xferAway 0 0 x.unit = false ∧ s.cmd 0 0 = some moveCmd := by decide +kernel

/-- A GEMM of one row, column and k-step, without stages, its operands in the cell store. -/
def gemmCmd (op : Nat) (fs : List (Nat × Nat × Nat) := []) : Cmd := cmdOf op ([(16, 4, 1), (20, 4, 1), (24, 4, 1)] ++ fs)

/-- A bank of it. -/
def bankOf (closed : Bool) (rows : Nat) : Bank := ⟨0, 0, 0, 0, 0, 0, 0, [], closed, rows⟩

/-- Cell 0 with a GEMM and a bank. -/
def milling (k : Cmd) (b : Bank) : State := held.setCell 0 { CellSt.init with cmds := [k], nextNum := 1, banks := [(0, some b)] }

/-- ChainsTakeTheirSteps: a tile that may start, a bank that may close, a row that may drain, a bank that may be freed. -/
theorem test_meets_chain :
    let k := { gemmCmd 0x0201 with maps := some ([], []) }
    Working (running k) 0 0 k 0x0201 ∧ k.maps.isSome = true ∧ (running k).tileReady 0 k = true ∧ k.kdone = false ∧
      (let y := { k with sub := 1, pos := 0 }
       let s := milling y (bankOf false 0)
       Working s 0 0 y 0x0201 ∧ s.bank 0 0 = some (bankOf false 0) ∧ s.openBank 0 0 = some (0, bankOf false 0) ∧ s.stepsReady 0 y = false ∧
         s.closeReady 0 y = true) ∧
      (let y := { k with pos := 1, hand := [(handNo .multiply, ⟨1, 1, 0, 0⟩)] }
       let s := milling y (bankOf true 0)
       Working s 0 0 y 0x0201 ∧ s.drainReady 0 0 = true ∧ ((W.mk s 0 y .go).drainRow 0).halt = .go) ∧
      (let s := milling k (bankOf true 128)
       Working s 0 0 k 0x0201 ∧ s.freeReady 0 0 = true ∧ (s.cell 0).cmds = [k] ∧ k.tiles = none) := by unfold Working; decide +kernel

/-- A bank of a GEMM_DW that may drain into its slot. -/
theorem test_meets_slot_drain :
    let k := { gemmCmd 0x0202 with maps := some ([], []), pos := 1, hand := [(handNo .multiply, ⟨1, 1, 0, 0⟩)] }
    let s := milling k (bankOf true 0)
    Working s 0 0 k 0x0202 ∧ s.slotReady 0 0 = true ∧ ((W.mk s 0 k .go).slotDrain 0).halt = .go := by unfold Working; decide +kernel

/-- A staged tile that may be coded, and operands that may be decoded. -/
theorem test_meets_coding :
    (let k := { gemmCmd 0x0201 [(28, 1, 0x20)] with hand := [(handNo .transform, ⟨1, 1, 0, 0⟩)], staged := [⟨0, [], [(0, [])], false⟩] }
     Working (running k) 0 0 k 0x0201 ∧ k.compressReady = true ∧ ((W.mk (running k) 0 k .go).compressTile).halt = .go) ∧
    (let k := { gemmCmd 0x0201 [(28, 1, 0x04)] with maps := some ([], []) }
     let s := milling k (bankOf false 0)
     Working s 0 0 k 0x0201 ∧ (s.cell 0).cmds = [k] ∧ s.placeAReady 0 k = true) ∧
    (let k := { gemmCmd 0x0201 [(28, 1, 0x08)] with maps := some ([], []) }
     Working (running k) 0 0 k 0x0201 ∧ ((running k).cell 0).cmds = [k] ∧ (running k).placeBReady 0 k = true) := by unfold Working; decide +kernel

/-- TurnersSquareTheirUnit. -/
theorem test_meets_turner :
    let k := { gemmCmd 0x0201 [(35, 1, 8)] with maps := some ([], []) }
    let s := milling k (bankOf false 0)
    Working s 0 0 k 0x0201 ∧ k.num = 0 ∧ (s.cell 0).cmds = [k] ∧ s.squareReady 0 0 k = true ∧ k.kdone = false ∧
      ((W.mk s 0 k .go).readSquare 0).halt = .go := by unfold Working; decide +kernel

/-- MulticastMembersGiveCredits: a member that has returned a credit, and one that has not; SuccessorsFetchAhead. -/
theorem test_meets_multicast :
    let k := gemmCmd 0x0201 [(28, 1, 2), (34, 1, 3), (36, 2, 7), (39, 1, 2)]
    let s := (running k).setCell 1 { CellSt.init with cmds := [{ k with num := 4 }], nextNum := 5 }
    s.cellDead 0 = false ∧ (s.cell 0).cmds = [k] ∧ k.opcode = 0x0201 ∧ k.finished = false ∧ 1 < (k.members 0).length ∧ 1 ∈ k.members 0 ∧
      max k.issued (Tab.get (fun _ => 0) k.mcCredit 1) < s.memberCredit 1 (k.u 36 2) ∧
      (running k).memberCredit 1 (k.u 36 2) ≤ max k.issued (Tab.get (fun _ => 0) k.mcCredit 1) := by decide +kernel
theorem test_meets_prologue :
    let k := { gemmCmd 0x0201 with kdone := true }
    let e : QEnt := { entry 64 with pred := some 0 }
    let s := { held.setCell 0 { CellSt.init with cmds := [k], nextNum := 1, queues := [(0, [e])] } with stores := Mem.setBytes [] 64 (gemmCmd 0x0201).desc }
    let h := s.headCmd 0 k.q e
    let y := h.1.resume e.early
    s.cellDead 0 = false ∧ s.cmd 0 0 = some k ∧ s.queue 0 k.q = e :: [] ∧ k.pastFetch = true ∧ isMill k.opcode = true ∧ h.2.1 = false ∧
      y.opcode = 0x0201 ∧ y.fence = false ∧ y.tallyIn = 0 ∧ y.finished = false := by decide +kernel

/-- TillModesRun: the modes that complete at once. -/
theorem test_meets_till_reserved : ∀ m ∈ [5, 7], let k := cmdOf 0x0203 [(16, 1, m)]
    Working (running k) 0 0 k 0x0203 ∧ 5 ≤ k.u 16 1 % 8 := by unfold Working; decide +kernel

/-- TillCommandsDoTheirModes: an added page, a flush that adds, and one that clears slots. -/
theorem test_meets_till :
    (let s := held.setCell 0 { CellSt.init with tillAdds := [⟨0, 7, 0, 0, true, true⟩] }
     s.cellDead 0 = false ∧ (s.cell 0).tillAdds = ⟨0, 7, 0, 0, true, true⟩ :: []) ∧
    (let k := cmdOf 0x0203 [(16, 1, 0)]
     Working (running k) 0 0 k 0x0203 ∧ (running k).tillBefore 0 0 = false ∧ k.u 16 1 % 8 = 0) ∧
    (let k := cmdOf 0x0203 [(16, 1, 1), (17, 1, 0xFF)]
     Working (running k) 0 0 k 0x0203 ∧ (running k).tillBefore 0 0 = false ∧ k.u 16 1 % 8 = 1 ∧ k.slotsNamed 7 = true) := by
  unfold Working; decide +kernel

/-- AttentionTakesItsSteps: one query row over one page of keys, begun; a key tile next, and the row's end. -/
def attnCmd (op : Nat) : Cmd := { cmdOf op [] with issued := 1, loads := 1, words := [0, 0, 1, 0, 0, 0, 0, 1, 0, 0] }
theorem test_meets_attention :
    ∀ op ∈ [0x0301, 0x0302, 0x0303], let k := attnCmd op
      Working (running k) 0 0 k op ∧ k.issued = 1 ∧ k.loads = 1 ∧ k.pos < k.allTiles ∧ k.sub < (k.keyTiles k.curTile).length ∧
        k.cancelled = false ∧ k.fault = none ∧
        (let y := { k with out := some (0, []) }
         Working (running y) 0 0 y op ∧ y.issued = 1 ∧ y.out.isSome = true) ∧
        (let y := { k with loads := 3 }
         Working (running y) 0 0 y op ∧ y.issued = 1 ∧ y.out = none ∧ y.pos < y.allTiles) := by unfold Working; decide +kernel

/-- OutputStageDoesItsRows: a row of one element in the cell store. -/
def rowAt (op : Nat) : Cmd := cmdOf op [(16, 4, 1), (20, 4, 1), (32, 6, 0x300000001000), (40, 6, 0x300000001100), (48, 6, 0x300000001200),
  (56, 6, 0x300000001300), (64, 6, 0x300000001400), (72, 6, 0x300000001500)]
theorem test_meets_output_rows :
    ∀ op ∈ [0x0401, 0x0402], let k := rowAt op
      Working (running k) 0 0 k op ∧ k.u 16 4 = 1 ∧ k.u 20 4 ≠ 0 ∧ k.pos = 0 ∧ k.cancelled = false ∧
        RowWent ((if op = 0x0401 then W.normRow else W.actRow) (W.mk (running k) 0 k .go)) 0 0 op := by
  unfold Working RowWent; decide +kernel

/-- OutputStageDoesItsRows: the one row of an ACT_FUSED, its transfer begun. -/
theorem test_meets_act_row :
    let k := rowAt 0x0402
    let s := running k
    let s1 := ((W.mk s 0 { k with issued := 1 } .go).begin ⟨0, k.chanq, [], 0, none⟩).keep
    let r := (W.mk s1 0 { k with issued := 1 } .go).actRow
    k.issued = 0 ∧ k.fault = none ∧ (s.cell 0).cmds = [k] ∧ (s.cell 0).xfers = [] ∧ s.depthRoom 0 k.chanq = true ∧ RowWent r 0 0 0x0402 ∧
      (r.s.cell 0).xfers = (s1.cell 0).xfers ∧ r.k.actLeft = false := by unfold RowWent; decide +kernel

/-- TableSwapsApplyPortByPort: the last port of a swap, one of several, and the command once it has swapped. -/
theorem test_meets_table_swap :
    let s := held.setCell 0 { CellSt.init with cmds := [cmdOf 0x0502 []], nextNum := 1, swaps := [⟨0, 15, [2]⟩] }
    let z := held.setCell 0 { CellSt.init with swaps := [⟨0, 15, [0, 2]⟩] }
    s.cellDead 0 = false ∧ (s.cell 0).swaps = [⟨0, 15, [2]⟩] ∧ s.fld Fd.cellTableSlotLoading 0 15 = 0 ∧ (z.cell 0).swaps = [⟨0, 15, [0, 2]⟩] ∧
      z.fld Fd.cellTableSlotLoading 0 15 = 0 ∧ Working (running (cmdOf 0x0502 [])) 0 0 (cmdOf 0x0502 []) 0x0502 := by unfold Working; decide +kernel

/-- CoderCommandsDoTheirForms: a table built from four bytes, one loaded, the reserved form, and one unit coded. -/
theorem test_meets_coder :
    (let k := cmdOf 0x0501 [(20, 4, 4), (24, 6, 0x300000001000)]
     let r := (W.mk (running k) 0 k .go).read (k.addr 24) (k.u 20 4)
     Working (running k) 0 0 k 0x0501 ∧ ((running k).cell 0).swaps = [] ∧ k.u 16 1 % 4 = 0 ∧ r.2.halt = .go ∧ r.2.c = 0 ∧ r.2.k.num = 0) ∧
    (let k := cmdOf 0x0501 [(16, 1, 1), (24, 6, 0x300000001000)]
     let r := (W.mk (running k) 0 k .go).read (k.addr 24) 264
     Working (running k) 0 0 k 0x0501 ∧ k.u 16 1 % 4 = 1 ∧ r.2.halt = .go) ∧
    Working (running (cmdOf 0x0501 [(16, 1, 2)])) 0 0 (cmdOf 0x0501 [(16, 1, 2)]) 0x0501 ∧ 2 ≤ (cmdOf 0x0501 [(16, 1, 2)]).u 16 1 % 4 ∧
    (let k := cmdOf 0x0503 [(16, 4, 1), (20, 4, 8), (32, 6, 0x300000001000), (40, 6, 0x300000002000)]
     let s := { running k with stores := Mem.setBytes [] 0x2000 (leBytes 6 0x300000003000) }
     let r := (W.mk s 0 k .go).compressUnit
     Working s 0 0 k 0x0503 ∧ k.u 16 4 = 1 ∧ k.pos = 0 ∧ k.unitBytes ≠ 0 ∧ k.u 24 1 % 2 = 0 ∧ RowWent r 0 0 0x0503 ∧ r.k.pos = 1 ∧
      r.k.unitBytes ≠ 0 ∧ r.k.u 16 4 = 1) := by unfold Working RowWent; decide +kernel

/-- CoderCommandsDoTheirForms: one plain unit expanded. -/
theorem test_meets_expand :
    let k := cmdOf 0x0503 [(16, 4, 1), (20, 4, 8), (24, 1, 1), (32, 6, 0x300000001000), (40, 6, 0x300000002000)]
    let s := { running k with stores := Mem.setBytes [] 0x2000 (leBytes 8 (0x300000003000 + 2 ^ 48 + 2 ^ 59)) }
    let r := (W.mk s 0 k .go).expandNext
    Working s 0 0 k 0x0503 ∧ k.u 16 4 = 1 ∧ k.pos = 0 ∧ k.unitBytes ≠ 0 ∧ k.u 24 1 % 2 = 1 ∧ RowWent r 0 0 0x0503 ∧ r.k.pos = 1 ∧
      r.k.unitBytes ≠ 0 ∧ r.k.u 16 4 = 1 := by unfold Working RowWent; decide +kernel

/-! ## Witnesses: the pool and the flash -/

/-- Region 0 of stack 0 is in service, tenant 0 has a page table of 16 entries, and the flash has room. -/
def pooled : State :=
  ((((held.setFld Fd.poolPtEntries 0 0 16).setFld Fd.poolPtBase 0 0 0x80000).setFld Fd.stackStateInService 0 0 1).setFld Fd.poolFree 0 0 131072).setFld
    Fd.flashCapacity 0 0 100

/-- A page of tier 1 in frame f, and one in flash. -/
def inFrame (f : Nat) : Pte := freshPte 0 f
def inFlash (l : Nat) : Pte := { Pte.invalid with valid := true, ref := 1, res := 1, frame := l }

/-- The pool with page 3 of tenant 0. -/
def paged (p : Pte) : State := pooled.setPte 0 3 p

/-- A page command on it. -/
def pageCmd (op sub flags : Nat) : Cmd := cmdOf op [(16, 4, 3), (20, 4, 1), (24, 1, sub), (25, 1, flags)]

/-- PageMapActsOnItsPage: ALLOC of a valid page and of an invalid one. -/
theorem test_meets_page_map_alloc :
    (let k := pageCmd 0x0801 0 4
     let s := running k (paged (inFrame 40))
     let z := (s.readPte 0 3).st
     OnePage s 0 0 k 0x0801 0 3 ∧ k.bit 25 0 = false ∧ k.bit 25 2 = true ∧ k.u 24 1 % 4 = 0 ∧ (z.pte 0 3).valid = true ∧ (z.pte 0 3).res = 0) ∧
    (let k := pageCmd 0x0801 0 4
     let s := running k pooled
     let z := (s.readPte 0 3).st
     OnePage s 0 0 k 0x0801 0 3 ∧ (z.pte 0 3).valid = false ∧ z.pool.waiters = [] ∧ z.chooseFrame k.hint (some 0) = some 0) := by
  unfold OnePage Working; decide +kernel

/-- PageMapActsOnItsPage: REF and UNPIN of a valid page and of an invalid one, and OP 3. -/
theorem test_meets_page_map :
    (∀ op ∈ [1, 2, 3], let y := pageCmd 0x0801 op 4
      let s := running y (paged (inFrame 40))
      let z := (s.readPte 0 3).st
      OnePage s 0 0 y 0x0801 0 3 ∧ y.u 24 1 % 4 = op ∧ y.bit 25 2 = true ∧ (z.pte 0 3).valid = true ∧ (z.pte 0 3).shadow = false) ∧
    (∀ op ∈ [1, 2], let y := pageCmd 0x0801 op 4
      let s := running y pooled
      OnePage s 0 0 y 0x0801 0 3 ∧ y.u 24 1 % 4 = op ∧ (((s.readPte 0 3).st).pte 0 3).valid = false) := by
  unfold OnePage Working; decide +kernel

/-- PageFreeCowAndTierMoveActOnTheirPage: PAGE_FREE of a valid page and of an invalid one. -/
theorem test_meets_free :
    let k := pageCmd 0x0803 0 0
    OnePage (running k (paged (inFrame 40))) 0 0 k 0x0803 0 3 ∧ OnePage (running k pooled) 0 0 k 0x0803 0 3 ∧
      ((((running k (paged (inFrame 40))).readPte 0 3).st).pte 0 3).valid = true := by unfold OnePage Working; decide +kernel

/-- PageFreeCowAndTierMoveActOnTheirPage: PAGE_COW at its start and after its copy. -/
theorem test_meets_cow :
    (let k := cmdOf 0x0802 [(16, 4, 3), (20, 4, 4)]
     let s := running k (paged (inFlash 9))
     Working s 0 0 k 0x0802 ∧ k.tenant = some 0 ∧ k.u 16 4 = 3 ∧ k.bit 24 0 = false ∧ k.issued = 0 ∧ s.inTable 0 3 = true ∧
       s.pageBusy 0 0 0 3 = false ∧ (s.readPte 0 3).fault = none ∧ (s.readPte 0 3).warn = none ∧ (s.readPte 0 3).wait = false) ∧
    (let k := cmdOf 0x0802 [(16, 4, 3), (20, 4, 4)]
     let z := ((running k (paged (inFlash 9))).readPte 0 3).st
     z.inTable 0 (k.u 20 4) = true ∧ z.pageBusy 0 0 0 (k.u 20 4) = false ∧ (z.pte 0 3).valid = true ∧
       (z.pte 0 3).res = 1 ∧ (z.pte 0 3).lost = false ∧ (z.pte 0 (k.u 20 4)).valid = false ∧ z.inReset .flash 0 = false ∧ z.pool.waiters = [] ∧
       z.chooseFrame none (some 0) = some 0) ∧
    (let k := { cmdOf 0x0802 [(16, 4, 3), (20, 4, 4), (24, 1, 2)] with issued := 1, outcome := some [true], words := [(0 : Int)] }
     Working (running k (paged (inFlash 9))) 0 0 k 0x0802 ∧ k.bit 24 1 = true ∧ k.bit 24 0 = false) := by
  unfold Working; decide +kernel

/-- PageFreeCowAndTierMoveActOnTheirPage: the forms of TIER_MOVE on a page in a frame and on one in flash. -/
theorem test_meets_tier_move_frame : ∀ sub ∈ [0, 1], let k := pageCmd 0x0804 sub 0
    let s := running k (paged (inFrame 40))
    let z := (s.readPte 0 3).st
    OnePage s 0 0 k 0x0804 0 3 ∧ (z.pte 0 3).valid = true ∧ k.u 24 1 % 4 = sub ∧ (z.pte 0 3).res = 0 ∧ (z.pte 0 3).pin = false ∧
      (z.pte 0 3).shadow = false ∧ (z.pte 0 3).evac = false ∧ z.flashRoom = true ∧ z.inReset .flash 0 = false ∧ z.depthRoom 0 k.chanq = true := by
  unfold OnePage Working; decide +kernel
theorem test_meets_tier_move_flash : ∀ sub ∈ [0, 1, 2], let k := pageCmd 0x0804 sub 0
    let s := running k (paged (inFlash 9))
    let z := (s.readPte 0 3).st
    OnePage s 0 0 k 0x0804 0 3 ∧ (z.pte 0 3).valid = true ∧ k.u 24 1 % 4 = sub ∧ (z.pte 0 3).res = 1 ∧ (z.pte 0 3).lost = false ∧
      z.inReset .flash 0 = false ∧ z.depthRoom 0 k.chanq = true ∧ z.pool.waiters = [] ∧ z.chooseFrame none (some 0) = some 0 := by
  unfold OnePage Working; decide +kernel

/-- StampedFramesAreReleased: a window that is drained, and one that a command holds. -/
theorem test_meets_release :
    let x : Stamped := ⟨8, 0, 5, true⟩
    let s := { pooled with pool := ⟨[], [x], [], []⟩ }
    let z := { (running { cmdOf 0x0101 [] with epoch := 5 } pooled) with pool := ⟨[], [x], [], []⟩ }
    s.pool.stamped[0]? = some x ∧ s.drained x.t x.epoch 64 = true ∧ z.pool.stamped[0]? = some x ∧ z.drained x.t x.epoch 64 = false := by
  decide +kernel

/-- A page in a frame, with the frame's own entry. -/
def owned (f : Nat) (s : State) : State :=
  { s.setPte 0 3 (inFrame f) with pool := ⟨[(f, ⟨0, false, true, 3⟩)], [], [], []⟩ }

/-- SweepsAgePages, ThePoolEvicts: a period and no period; a page to evict, none, and enough free frames. -/
theorem test_meets_sweep_and_evict :
    let s := (owned 40 pooled).setFld Fd.poolAgePeriod 0 0 1
    let z := (owned 40 pooled).setFld Fd.poolFree 0 0 0
    s.fld Fd.poolAgePeriod ≠ 0 ∧ s.pool.frames = [(40, ⟨0, false, true, 3⟩)] ∧ (s.pte 0 3).valid = true ∧ (s.pte 0 3).res = 0 ∧
      (s.pte 0 3).frame = 65536 * 40 ∧ (s.pte 0 3).pin = false ∧ (s.pte 0 3).shadow = false ∧
      (s.setFld Fd.poolAgePeriod 0 0 0).fld Fd.poolAgePeriod = 0 ∧
      z.fld Fd.poolFree < z.fld Fd.poolFreeTarget ∧ z.flashRoom = true ∧ z.victim = some (40, 0, 3, 0) ∧ z.freeLpn < 2 ^ 64 ∧
      z.inReset .flash 0 = false ∧ (pooled.setFld Fd.poolFree 0 0 0).victim = none ∧
      (pooled.setFld Fd.poolFree 0 0 0).fld Fd.poolFree < (pooled.setFld Fd.poolFree 0 0 0).fld Fd.poolFreeTarget ∧
      ¬ pooled.fld Fd.poolFree < pooled.fld Fd.poolFreeTarget := by decide +kernel

/-- PagesLeaveARetiringRegion, RegionsRetire: the last region of the last stack, with a page in it and without. -/
theorem test_meets_regions :
    let f := 11 * 2 ^ 20 + 7
    let s := (owned f pooled).setFld Fd.stackStateRetiring 11 0 0x80
    let z := pooled.setFld Fd.stackStateRetiring 11 0 0x80
    s.retiring 11 7 = true ∧ s.pool.frames = [(f, ⟨0, false, true, 3⟩)] ∧ s.flash.ops = [] ∧ inRegion 11 7 f = true ∧ s.pool.shadows = [] ∧ s.stk.bursts = [] ∧ (∀ c, c < 128 → s.lostPins 11 c = []) ∧ s.inReset .stack 11 = false ∧
      (∀ u, u < 16 → (List.range (tableFrames (s.fld Fd.poolPtEntries 0 u))).all
        (fun i => !inRegion 11 7 (s.fld Fd.poolPtBase 0 u / 65536 + i)) = true) ∧
      (s.pte 0 3).valid = true ∧ (s.pte 0 3).res = 0 ∧ (s.pte 0 3).frame = 65536 * f ∧ (s.pte 0 3).shadow = false ∧ (s.pte 0 3).pin = false ∧
      s.syncPool.chooseFrame none none = some 0 ∧ pooled.retiring 11 7 = false ∧
      ((z.retiring 11 7 && z.regionEmpty 11 7) || (!z.bitOf Fd.stackStateRetired 11 0 7 && z.regionBroken 11 7)) = true ∧
      ((pooled.retiring 11 7 && pooled.regionEmpty 11 7) || (!pooled.bitOf Fd.stackStateRetired 11 0 7 && pooled.regionBroken 11 7)) = false := by
  decide +kernel

/-- TheScrubberGoesOn. -/
theorem test_meets_scrub :
    let s := pooled.setFld Fd.stackScrubPeriod 0 0 1
    s.fld Fd.stackScrubPeriod 0 ≠ 0 ∧ s.inReset .stack 0 = false ∧ s.stk.scrubAt = [] ∧ s.bitOf Fd.stackStateInService 0 0 0 = true ∧
      s.bitOf Fd.stackStateRetired 0 0 0 = false ∧ s.stk.bursts = [] ∧ (∀ c, c < 128 → s.lostPins 0 c = []) ∧
      (s.setFld Fd.stackScrubPeriod 0 0 0).fld Fd.stackScrubPeriod 0 = 0 := by decide +kernel

/-- A flash operation of the pool's own. -/
def poolOp (write : Bool) (purpose level : Nat) : FlashOp := ⟨write, purpose, none, 0, 3, 9, 40, level, none⟩
def flashing (o : FlashOp) (s : State := owned 40 pooled) : State := { s with flash := { s.flash with ops := [o] } }

/-- FlashReadsEnd, FlashWritesEnd: the first level, the last, and a write that a block takes. -/
theorem test_meets_flash_ends :
    (∀ l ∈ [0, 7, 8], (flashing (poolOp false 0 l)).flash.ops[0]? = some (poolOp false 0 l)) ∧
    (let s := flashing (poolOp true 4 0)
     s.flash.ops[0]? = some (poolOp true 4 0) ∧ (s.endFlash (poolOp true 4 0)).openBlock flashBlocks = some 0 ∧
       s.fld Fd.flashInUse < s.fld Fd.flashCapacity ∧ ((s.endFlash (poolOp true 4 0)).frameRead 40).fault = none) := by decide +kernel

/-- WearIsLevelled, ReadBlocksAreRefreshed, BlocksRetire. -/
theorem test_meets_blocks :
    let fl : FlashSt := { pooled.flash with map := [(9, some 0)], eraseCnt := [(1, 3000)], readCnt := [(0, 100000)], retired := [5], failing := [7] }
    let s : State := { pooled.setFld Fd.flashWearEraseMax 0 0 3000 with flash := fl }
    s.fld Fd.flashWearSpread < s.fld Fd.flashWearEraseMax - s.fld Fd.flashWearEraseMin ∧
      s.pickBlock (fun x y => decide (x < y)) (s.knownBlocks.filter (fun b => !(s.pagesIn b).isEmpty)) = some 0 ∧
      s.pickBlock (fun x y => decide (y < x)) (s.knownBlocks.filter (fun b => (s.pagesIn b).isEmpty && !s.flash.failing.contains b)) = some 1 ∧
      100000 ≤ Tab.get (fun _ => 0) s.flash.readCnt 0 ∧ Tab.get (fun _ => 0) s.flash.readCnt 1 < 100000 ∧ 5 ∈ s.flash.retired ∧
      7 ∉ s.flash.retired ∧ 7 < flashBlocks ∧ 7 ∈ s.flash.failing ∧ (0 < s.erased 1 ∧ s.pagesIn 1 = []) ∧ ¬ (2 ∈ s.flash.failing ∨ 0 < s.erased 2) ∧
      pooled.fld Fd.flashWearEraseMax - pooled.fld Fd.flashWearEraseMin ≤ pooled.fld Fd.flashWearSpread := by decide +kernel

/-! ## Witnesses: the fabric -/

/-- A flit of a kind and number on channel 3, with its CRC. -/
def flitOf (kind seq : Nat) : List Byte :=
  let b := leBytes 6 (2 ^ 28 * kind + 2 ^ 24 * 3 + seq) ++ List.replicate 248 0
  let c := crc16 b
  b ++ [BitVec.ofNat 8 (c / 256), BitVec.ofNat 8 c]

set_option maxRecDepth 20000 in
/-- PortsTakeAndReplayFlits: a healthy port and another; the first flit of a channel after reset, head and head with tail; a wrong one. -/
theorem test_meets_flits :
    (portIn 2 PortSt.init).healthy 23 = true ∧ (portIn 0 PortSt.init).healthy 23 = false ∧ (PortSt.init).waiting = [] ∧
    (∀ q, q < 24 → ((portIn 2 PortSt.init).port q).owed = []) ∧ (portIn 2 PortSt.init).arriving 23 (poolOf 3 0) = none ∧
    (∀ kind ∈ [1, 4], let bs := flitOf kind 0
      bs.length = 256 ∧ crc16 (sliceB bs 0 254) = ofBe (sliceB bs 254 2) ∧ bitsOf (fieldB bs 0 6) 30 28 = kind ∧ bitsOf (fieldB bs 0 6) 25 24 = 3 ∧
        bitsOf (fieldB bs 0 6) 11 0 = (((portIn 2 PortSt.init).port 23).lastAt 3 + 1) % 4096) := by decide +kernel

/-- A packet, and a state with it in the router or delivered. -/
def packetOf (dst op : Nat) : Packet := ⟨dst, 5, 0, op, 0, 77, 0x300000000000, 4, [1, 2, 3, 4]⟩
def transitOf (p : Packet) (e : Option (BitVec 64)) (vc : Nat) : Transit :=
  { id := 0, pkt := p, port := some 23, vc, dcls := 0, pool := poolOf vc 0, bodies := p.bodies, whole := true, moved := false, entry := e, esc := false
    out := none, here := false, got := [], drop := false, via := none, cmd := none }
def routing (x : Transit) (s : State := portIn 2 PortSt.init) : State := { s with fab := { s.fab with transit := [x] } }
def arrived (p : Packet) (out : List RemAcc) : State := { held with fab := ⟨[], [], [p], out, 0, 0⟩ }

set_option maxRecDepth 20000 in
/-- PortsTakeAndReplayFlits: the second flit of a channel, of a packet that is arriving; and a packet of it that is not whole. -/
theorem test_meets_later_flits :
    let y := { transitOf (packetOf 9 1) none 3 with whole := false, bodies := [(1, [])] }
    let s := { portIn 2 { PortSt.init with lastSeq := [(3, 0)] } with fab := { (portIn 2 { PortSt.init with lastSeq := [(3, 0)] }).fab with transit := [y] } }
    s.healthy 23 = true ∧ s.arriving 23 (poolOf 3 0) = some y ∧ y.here = false ∧ y.drop = false ∧ y.out = none ∧ (s.port 23).waiting = [] ∧
      (∀ kind ∈ [2, 3], let bs := flitOf kind 1
        bs.length = 256 ∧ crc16 (sliceB bs 0 254) = ofBe (sliceB bs 254 2) ∧ bitsOf (fieldB bs 0 6) 30 28 = kind ∧
          bitsOf (fieldB bs 0 6) 11 0 = ((s.port 23).lastAt 3 + 1) % 4096) := by decide +kernel

/-- PacketsArriveOrAreDropped, PacketsTakeAPortOrEscape. -/
theorem test_meets_routing :
    (∀ op ∈ [0, 3, 8, 15], let x := transitOf (packetOf 0 op) none 0
      (routing x).fab.transit[0]? = some x ∧ x.pkt.op = op ∧ (Packet.ofBytes (x.bodies.map Prod.snd).flatten).op = op) ∧
    (packetOf 0 0).dst = (routing (transitOf (packetOf 0 0) none 0)).moduleId ∧
    (let x := transitOf (packetOf 9 7) none 0
     x.pkt.dst ≠ (routing x).moduleId ∧ x.pkt.hops < 255 ∧ ((x.entry.getD ((routing x).routeEntry x.pkt.dst)).getLsbD 63 = false) ∧
       (routing x).fab.outstanding = [] ∧ (routing x).weav.insts = []) ∧
    (∀ vc ∈ [0, 2], let e : BitVec 64 := BitVec.ofNat 64 (2 ^ 63 + 2 ^ 23)
      let x := transitOf (packetOf 9 0) (some e) vc
      let s := (routing x).putPacket x
      e.getLsbD 63 = true ∧ s.mostCredits (2 * x.vc) (s.healthyOf ((List.range 24).filter (fun p => e.toNat.testBit p))) = some 23 ∧
        (let z := (routing x (portIn 2 { PortSt.init with credits := [(0, 0), (4, 0)] })).putPacket x
         z.mostCredits (2 * x.vc) (z.healthyOf ((List.range 24).filter (fun p => e.toNat.testBit p))) = none ∧
           z.healthyOf ((List.range 24).filter (fun p => e.toNat.testBit p)) ≠ [])) := by decide +kernel

/-- RequestsAreServedAndAnswered, AccessesTimeOut: requests, a response that is waited for and one that is not. -/
theorem test_meets_requests :
    (∀ op ∈ [0, 1, 2, 3], (arrived (packetOf 0 op) []).fab.arrived[0]? = some (packetOf 0 op) ∧ (packetOf 0 op).op = op) ∧
    (let s := arrived (packetOf 0 0) []
     let p := packetOf 0 0
     ((s.slicesBefore p.addr p.len).globalRead p.ctx p.addr p.len).wait = false ∧
       ((s.slicesBefore p.addr p.data.length).globalWrite p.ctx p.addr p.data).wait = false) ∧
    (let s := (arrived (packetOf 0 2) [⟨77, .fetch 0 0 0 0⟩]).onCell 0 (fun y => { y with xfers := [⟨0, 0, [(0x300000000008, [])], 0, none⟩] })
     s.byTag 77 = some ⟨77, .fetch 0 0 0 0⟩ ∧ ∃ y ∈ (s.cell 0).xfers, y.num = 0 ∧ y.unit = 0) ∧
    (arrived (packetOf 0 2) []).byTag 77 = none ∧
    (arrived (packetOf 0 2) [⟨77, .fetch 0 0 0 0⟩]).byTag 77 = some ⟨77, .fetch 0 0 0 0⟩ ∧
    (arrived (packetOf 0 3) [⟨77, .store 0 0 0 0⟩]).byTag 77 = some ⟨77, .store 0 0 0 0⟩ ∧ (packetOf 0 3).fault = none ∧
    ({ packetOf 0 3 with addr := 0x5004 }).fault = some cLinkDown := by decide +kernel

/-- ControlPacketsAct: an abort of the one running Weaver command. -/
theorem test_meets_abort :
    let k := cmdOf 0x0605 []
    let x := Inst.start 0 15 3 0 0 0x0605 0
    let s := { running k with weav := ⟨[x], []⟩ }
    s.weav.insts = [x] ∧ x.opcode ≠ 0x0603 ∧ s.cmd x.cell x.cmd = some k ∧ k.opcode ≠ 0x0702 := by decide +kernel

/-! ## Witnesses: the Weaver -/

/-- The running Weaver command of cell 0, of two members of one tray. -/
def instOf (op ph : Nat) : Inst := { Inst.start 0 1 3 0 0 op 0 with phase := ph, group := [(0, 0), (1, 0)] }

/-- Cell 0 with it. -/
def weaving (x : Inst) (k : Cmd) : State := { running k with weav := ⟨[x], []⟩ }

/-- VOTE and REDUCE: results that go to the cell store. -/
theorem test_meets_vote_and_reduce :
    (let x := { instOf 0x0605 4 with words := [7] }
     let k := cmdOf 0x0605 [(48, 6, 0x300000001000)]
     let s := weaving x k
     AtPhase s x k 0 0x0605 4 ∧ (let bs := x.words.flatMap (fun v => leBytes 8 v.toNat)
       WentThrough ((s.slicesBefore (k.addr 48) bs.length).globalWrite (k.ctx 0) (k.addr 48) bs) s)) ∧
    (let x := { instOf 0x0601 6 with flag := true }
     let k := cmdOf 0x0601 [(88, 6, 0x300000001000)]
     let s := weaving x k
     AtPhase s x k 0 0x0601 6 ∧ (WI.mk (W.mk s 0 k .go) x).redSend = WI.mk (W.mk s 0 k .go) x ∧ x.allPassed k = true ∧
       WentThrough ((s.slicesBefore (k.addr 88) 4).globalWrite (k.ctx 0) (k.addr 88) (leBytes 4 (b2n x.flag))) s) := by unfold AtPhase WentThrough; decide +kernel

/-- GATHER: all shards landed, a shard to come with its tag here, and a grant. -/
theorem test_meets_gather :
    (let x := { instOf 0x0602 2 with landed := [0, 1], passed := [1] }
     AtPhase (weaving x (cmdOf 0x0602 [])) x (cmdOf 0x0602 []) 0 0x0602 2 ∧ x.nextPeer = none ∧ x.landed.length = x.group.length ∧
       x.passed.length = x.peers.length) ∧
    (let x := { instOf 0x0602 2 with group := [(0, 0), (1, 0), (2, 0)], landed := [0], passed := [1, 2], tags := [(1, 0, 0, 0)] }
     AtPhase (weaving x (cmdOf 0x0602 [])) x (cmdOf 0x0602 []) 0 0x0602 2 ∧ x.nextPeer = none ∧ 1 ∈ x.passed ∧ x.landed.length ≠ x.group.length ∧
       x.tags.find? (fun y => decide (y.1 = 1)) = some (1, 0, 0, 0) ∧ (cmdOf 0x0602 []).u 72 1 % 4 = 0 ∧ x.landed.length + 1 ≠ x.group.length) ∧
    (∀ u, u < 2 → (weaving (instOf 0x0602 2) (cmdOf 0x0602 [])).inReset .weaver 0 u = false) := by
  unfold AtPhase; decide +kernel

/-- PERMUTE: without moves, at its second phase, and while a move has yet to land. -/
theorem test_meets_permute :
    AtPhase (weaving (instOf 0x0603 1) (cmdOf 0x0603 [])) (instOf 0x0603 1) (cmdOf 0x0603 []) 0 0x0603 1 ∧ (cmdOf 0x0603 []).u 32 4 = 0 ∧
    (instOf 0x0603 1).words = [] ∧
    AtPhase (weaving (instOf 0x0603 4) (cmdOf 0x0603 [])) (instOf 0x0603 4) (cmdOf 0x0603 []) 0 0x0603 4 ∧
    (let x := { instOf 0x0603 2 with words := [1, 8, 0, 0] }
     let m : CollMsg := ⟨1, 0, 1, 3, 0, 0, .landed true⟩
     AtPhase (weaving x (cmdOf 0x0603 [])) x (cmdOf 0x0603 []) 0 0x0603 2 ∧ x.inbound.all (fun e => x.landed.contains e) = false ∧ x.above.map (fun e => e.2) ≠ some m.sender ∧
       m.epoch.toNat = (weaving x (cmdOf 0x0603 [])).layoutEpoch x.t) := by unfold AtPhase; decide +kernel

/-- MCAST at its source: all sent and all credited. -/
theorem test_meets_multicast_end :
    let x := { instOf 0x0604 1 with sent := 4, credits := [(1, 4)] }
    let k := cmdOf 0x0604 [(32, 5, 4), (56, 6, 0x300000001000)]
    let s := weaving x k
    AtPhase s x k 0 0x0604 1 ∧ x.me = 0 ∧ x.sent = k.u 32 5 ∧ k.u 32 5 ≤ x.leastCredit (k.u 32 5) ∧
      WentThrough ((s.slicesBefore (k.addr 56) x.detachList.length).globalWrite (k.ctx 0) (k.addr 56) x.detachList) s := by unfold AtPhase WentThrough; decide +kernel

/-- MCAST at its source: a credit that is not the last. -/
theorem test_meets_multicast_credit :
    let x := { instOf 0x0604 1 with sent := 4 }
    let k := cmdOf 0x0604 [(32, 5, 4), (56, 6, 0x300000001000)]
    let m : McastCreditMsg := ⟨0, 1, 3, 1, 2⟩
    let y := { x with credits := Tab.set (fun _ => 0) x.credits m.member (max (x.creditOf m.member) m.count) }
    AtPhase (weaving x k) x k 0 0x0604 1 ∧ m.member ∈ x.attached ∧ y.leastCredit (k.u 32 5) < k.u 32 5 := by unfold AtPhase; decide +kernel

/-- MCAST at its source: a receiver that holds the stream back; the detach list goes to a hole. -/
theorem test_meets_multicast_detach :
    let x := { instOf 0x0604 1 with sent := 4 }
    let k := cmdOf 0x0604 [(32, 5, 4), (56, 6, 0x500000000000)]
    let s := weaving x k
    let y := { x with detached := x.detached ++ [(1, x.creditOf 1)] }
    AtPhase s x k 0 0x0604 1 ∧ x.me = 0 ∧ x.sent = k.u 32 5 ∧ x.holdsBack k 1 = true ∧ x.attached = [1] ∧
      isBelow k.mcFanout 1 (x.group.length + 1) 1 = true ∧ y.attached = [] ∧ k.addr 56 = 0x500000000000 ∧ y.detachList.length < 2 ^ 40 := by
  unfold AtPhase; decide +kernel
theorem test_meets_detach_write (z : State) (x : Ctx) (bs : List Byte) (h : bs.length < 2 ^ 40) :
    WentThrough ((z.slicesBefore 0x500000000000 bs.length).globalWrite x 0x500000000000 bs) z := by
  have hh : inHole 0x500000000000 bs.length := ⟨by decide, by omega⟩
  rw [slices_hole hh]
  obtain ⟨h1, h2, h3, h4, h5⟩ := write_hole hh z x
  exact ⟨h1, h2, h3, h5, h4⟩

/-- MCAST at a receiver: the first packet of the stream, and one beyond a gap; a timeout; nothing running. -/
theorem test_meets_multicast_receiver :
    ∀ off ∈ [0, 2],
      let x := { instOf 0x0604 1 with me := 1 }
      let k := cmdOf 0x0604 [(32, 5, 4), (40, 6, 0x300000001000)]
      let s := weaving x k
      let m : McastMsg := ⟨0, 1, 3, 0, 1, off, [7, 8]⟩
      let z := s.putInst { x with mbox := [m] }
      AtPhase s x k 0 0x0604 1 ∧ x.me ≠ 0 ∧ x.children m.fanout x.me = [] ∧ m.epoch.toNat = s.layoutEpoch x.t ∧ x.ranges = [] ∧
        (if m.off = 0 then m.bytes.length else 0) < k.u 32 5 ∧
        WentThrough ((z.slicesBefore ((k.addr 40 + m.off) % 2 ^ 48) m.bytes.length).globalWrite (k.ctx 0) ((k.addr 40 + m.off) % 2 ^ 48) m.bytes) z ∧
        x.peers ≠ [] := by
  unfold AtPhase WentThrough; decide +kernel
/-- COLL_TIMEOUT: an MCAST that waits for a receiver. -/
theorem test_meets_coll_timeout :
    let x := { instOf 0x0604 1 with sent := 4 }
    let k := cmdOf 0x0604 [(32, 5, 4), (56, 6, 0x300000001000)]
    AtPhase (weaving x k) x k 0 0x0604 1 ∧ x.waitsPeer k = true := by unfold AtPhase; decide +kernel
theorem test_meets_early_grant : held.weav.insts = [] ∧ ((3 + 2 ^ 32 - held.fld Fd.weaverChanSeq 0 0) % 2 ^ 32 < 2 ^ 31) := by decide +kernel

/-! ## Witnesses: transactions and snapshots -/

/-- TransactionCommandsAct: TXN_BEGIN with a name in use, with eight open, and with room; TXN_ABORT. -/
theorem test_meets_txn_begin :
    let k := cmdOf 0x0701 [(14, 2, 5)]
    let used := running k ((pooled.setTxnState 0 7 1).setFld Fd.poolTxnSlotId 0 7 5)
    let full := running k ((List.range 8).foldl (fun z j => z.setTxnState 0 j 1) pooled)
    let room := running k (pooled.setTxnState 0 0 4)
    k.tenant = some 0 ∧ Working used 0 0 k 0x0701 ∧ k.sub = 0 ∧ (used.txnSlot 0 k.txnId).isSome = true ∧ Working full 0 0 k 0x0701 ∧
      full.txnSlot 0 k.txnId = none ∧ 8 ≤ full.openTxns 0 ∧ Working room 0 0 k 0x0701 ∧ room.txnSlot 0 k.txnId = none ∧ room.openTxns 0 < 8 ∧
      k.u 20 4 = 0 ∧ room.freeTxn 0 = some 1 ∧
      (let y := cmdOf 0x0703 [(14, 2, 5)]
       Working (running y ((pooled.setTxnState 0 7 1).setFld Fd.poolTxnSlotId 0 7 5)) 0 0 y 0x0703 ∧ Working (running y pooled) 0 0 y 0x0703 ∧
         (running y ((pooled.setTxnState 0 7 1).setFld Fd.poolTxnSlotId 0 7 5)).txnSlot 0 y.txnId = some 7 ∧
         (running y pooled).txnSlot 0 y.txnId = none) := by unfold Working; decide +kernel

/-- TransactionCommandsAct: the three modes of TXN_COMMIT with the outcomes that decide them, and without. -/
theorem test_meets_commit :
    ∀ m ∈ [0, 1, 2], ∀ o ∈ [some [true, false, false], some [false, true, false], some [false, false, false], none],
      let k := { cmdOf 0x0702 [(32, 1, m)] with outcome := o }
      Working (running k) 0 0 k 0x0702 ∧ k.tenant = some 0 ∧ (running k).instAt 0 0 = none ∧ k.u 32 1 % 4 = m ∧
        ((running k).advanceEpoch 0).2 = true := by unfold Working; decide +kernel

/-- ShadowsAreMade, ShadowsAreCopiedBack. -/
theorem test_meets_shadow :
    let s := ((owned 40 pooled).setTxnState 0 7 1).setFld Fd.poolPinLimitLimit 0 0 10
    let z := (s.readPte 0 3).st
    let p := z.pte 0 3
    s.txnState 0 7 = 1 ∧ s.inTable 0 3 = true ∧ s.pageBusy 256 0 0 3 = false ∧ (s.readPte 0 3).fault = none ∧ p.valid = true ∧ p.ref < 2 ∧
      z.shadowOf 0 3 = none ∧ z.fld Fd.poolTxnSlotShadows 0 7 < 65536 ∧ z.pinRoom 0 = true ∧ p.res = 0 ∧ z.pool.waiters = [] ∧ z.stk.bursts = [] ∧
      (∀ c, c < 128 → z.lostPins (stackOf p.frame) c = []) ∧ z.inReset .stack (stackOf (p.frame / 65536 * 65536)) = false ∧
      z.retired (p.frame / 65536 * 65536) = false ∧ z.inTable 0 3 = true ∧
      z.chooseFrame (some (stackOf p.frame, regionOf p.frame)) none = some 0 := by decide +kernel
theorem test_meets_copy_back :
    let x : Shadow := ⟨0, 7, 3, 40, 41, some 6⟩
    let s := { pooled with pool := ⟨[], [], [x], []⟩ }
    let z := { running { cmdOf 0x0101 [] with epoch := 5 } pooled with pool := ⟨[], [], [x], []⟩ }
    s.pool.shadows[0]? = some x ∧ s.drained x.t ((6 + 2 ^ 32 - 1) % 2 ^ 32) 64 = true ∧ (s.copyFrame 41 40).fault = none ∧
      z.pool.shadows[0]? = some x ∧ z.drained x.t ((6 + 2 ^ 32 - 1) % 2 ^ 32) 64 = false := by decide +kernel

/-- SnapshotsSaveAndRestore: the reserved modes, a save to flash with room and without, a restore at its start, of an image that does not
check, and of one that does. -/
theorem test_meets_snapshots :
    (∀ m ∈ [2, 3], Working (running (cmdOf 0x0704 [(16, 1, m)])) 0 0 (cmdOf 0x0704 [(16, 1, m)]) 0x0704 ∧
      2 ≤ (cmdOf 0x0704 [(16, 1, m)]).u 16 1 % 4) ∧
    (∀ n ∈ [0, 1], let k := cmdOf 0x0704 [(16, 1, 4)]
      let s := running k (held.setFld Fd.moduleSnapSlot 0 0 n)
      let man := (W.mk s 0 k .go).snapRead (k.addr 24) (16 * k.u 20 4)
      let r := man.2.snapBody man.1
      Working s 0 0 k 0x0704 ∧ k.u 16 1 % 4 = 0 ∧ k.issued = 0 ∧ k.bit 16 2 = true ∧ k.bit 16 3 = false ∧ man.2.halt = .go ∧ r.2.halt = .go ∧
        r.2.c = 0 ∧ r.2.k.num = 0 ∧ r.2.k.bit 16 2 = true ∧ r.2.k.bit 16 3 = false ∧ (r.2.s.cmd 0 0).isSome = true ∧ man.2.c = 0 ∧ man.2.k.num = 0 ∧
        (man.2.s.cmd 0 0).isSome = true ∧ r.2.s.inReset .flash 0 = false ∧ r.2.s.fld Fd.moduleSnapSlot = s.fld Fd.moduleSnapSlot ∧
        (if n = 1 then 512 + bodySize (k.u 20 4) man.1 ≤ s.fld Fd.moduleSnapSlot * 65536
          else s.fld Fd.moduleSnapSlot * 65536 < 512 + 16 * k.u 20 4)) ∧
    (let k := cmdOf 0x0704 [(16, 1, 5)]
     Working (running k) 0 0 k 0x0704 ∧ k.u 16 1 % 4 = 1 ∧ k.bit 16 2 = true ∧ k.tenantNo = 0 ∧ k.outcome = none ∧ k.issued = 0 ∧ (running k).inReset .flash 0 = false) ∧
    (let k := { cmdOf 0x0704 [(16, 1, 5)] with outcome := some [true] }
     Working (running k) 0 0 k 0x0704 ∧ imageValid ((running k).flash.snap.bytes k.snapBase 512) [] = false) ∧
    (let k := { cmdOf 0x0704 [(16, 1, 5)] with outcome := some [true] }
     let s := running k { held with flash := { held.flash with snap := [(k.snapBase, 1)] } }
     let hdr := s.flash.snap.bytes k.snapBase 512
     Working s 0 0 k 0x0704 ∧ fieldB hdr 0 4 = 1 ∧ fieldB hdr 32 8 = 0 ∧ imageValid hdr [] = true ∧ k.u 20 4 = 0 ∧ fieldB hdr 24 4 = 0) := by
  unfold Working; decide +kernel

/-! ## Witnesses: hosts -/

/-- Port 3 is UP, and tenant 0 has a session. -/
def online (x : Session) (qps : List Qp) : State :=
  { (held.setFld Fd.ethState 3 0 2).setFld Fd.resetLockBootLock 0 0 1 with eth := { State.reset.eth with sessions := [(0, x)], qps := qps } }

/-- A frame for port 3 after reset, with an encapsulation header that begins with a byte, and a body. -/
def frameOf (b : Nat) (net : EthNet) (body : List Byte) : EthFrame := ⟨0, none, 64, net, 0, 0, true, leBytes 16 b, body, []⟩

/-- FramesAreChecked: a frame that asks, one that is not for the port, one of another version, and a HELLO of one segment. -/
theorem test_meets_frames :
    let o := (online Session.init []).setFld Fd.ethEncapPort 3 0 4791
    let s := { o with regs := Tab.put o.regs (Fd.ethMac.reg 3 0) 0 }
    let udp := some (BitVec.ofNat 16 4791)
    s.ethUp 3 = true ∧ held.ethUp 3 = false ∧ s.asks 3 (frameOf 0x11 (.arp true 0) []) = true ∧
      s.asks 3 (frameOf 0x11 .other []) = false ∧ s.takes 3 (frameOf 0x11 .other []) = false ∧
      (∀ b ∈ [0x10, 0x31], let f := frameOf b (.ip4 0 true udp) []
        s.asks 3 f = false ∧ s.takes 3 f = true ∧ (fieldB f.hdr 0 1 % 16 ≠ 1 ∨ 3 ≤ fieldB f.hdr 0 1 / 16)) ∧
      (let f := frameOf 0x11 (.ip6 0 true udp) [0, 0, 1, 0, 0, 0, 0, 2, 7, 8]
       s.asks 3 f = false ∧ s.takes 3 f = true ∧ fieldB f.hdr 0 1 = 0x11 ∧ (fieldB f.hdr 1 1).testBit 1 = false ∧
         f.body = [0, 0, 1, 0] ++ beBytes 4 [(7 : Byte), 8].length ++ [7, 8] ∧ s.eth.joins = [] ∧ s.eth.passed = []) := by decide +kernel

/-- PortsComeAndGo, HellosBeginHandshakes: a HELLO that is taken, one of a module that is not locked, one of no tenant. -/
theorem test_meets_hello :
    held.inReset .eth 3 = false ∧ (online Session.init []).fld Fd.ethState 3 = 2 ∧
    ((online Session.init []).session 0).hs.any (fun y => !y.signed) = false ∧ (online Session.init []).flag Fd.resetLockBootLock = true ∧
    (online Session.init []).admitted 0 = true ∧ ((online Session.init []).recentHellos 3).length < 16 ∧
    held.flag Fd.resetLockBootLock ≠ true ∧ 16 ≤ (16 : BitVec 8).toNat := by decide +kernel

/-- A HELLO, and the handshake that it began. -/
def helloOf : HelloMsg := ⟨0, true, [], [], [], 0, 0⟩
def handshakeOf (signed : Bool) (tries : Nat) : Handshake := ⟨helloOf, 3, 0, signed, [], 0, tries, SeqWin.init, 1⟩

/-- HandshakesReportAndFinish: before its report, after it, and at its last attempt. -/
theorem test_meets_handshake :
    (∀ signed ∈ [false, true], ∀ tries ∈ [1, 100],
      ((online { Session.init with hs := some (handshakeOf signed tries) } []).session 0).hs = some (handshakeOf signed tries)) ∧
    (handshakeOf true 1).prev < 4 ∧ (handshakeOf true 1).port < 4 ∧
    (let s := (online { Session.init with hs := some (handshakeOf true 1) } []).setFld Fd.ethRetransRetry 0 0 7
     max 1 (s.fld Fd.ethRetransRetry) ≤ 100 ∧ ¬ max 1 (s.fld Fd.ethRetransRetry) ≤ 1) := by decide +kernel

/-- QueuePairsOpenAndClose: an open session, and a host's entry for port 3 and for any port. -/
theorem test_meets_queue_pairs :
    let s := ((online Session.init []).setFld Fd.ethSessionState 0 0 2).setFld Fd.ethAdmitMaxQp 0 0 4
    s.sessOpen 0 = true ∧ s.openQps (fun q => decide (q.t = 0)) < s.fld Fd.ethAdmitMaxQp 0 0 ∧ s.openQps (fun _ => true) < 4096 ∧
      s.qpPort 0 (3 : BitVec 8).toNat = some 3 ∧ s.qpPort 0 (15 : BitVec 8).toNat = some 3 ∧ (s.session 0).hs = none := by decide +kernel

/-- Queue pair 9 of tenant 0 on port 3, which expects PSN 5. -/
def qpOf (un : List TxReq) : Qp :=
  ⟨9, 0, 3, false, 1, 0, 0, 4096, Keys.none, Keys.none, SeqWin.init, 1, false, 5, [], [], [], 0, un, 400000000, none, none⟩

/-- Region 0 of tenant 0: addresses of the shared cache from its start, with all permissions. -/
def hosting (un : List TxReq) : State :=
  (((online Session.init [qpOf un]).setFld Fd.ethRegionKind 0 0 2).setFld Fd.ethRegionBase 0 0 0x200000000000).setFld Fd.ethRegionLength 0 0 1024 |>.setFld
    Fd.ethRegionPerm 0 0 7

/-- HostRequestsRunInOrder: requests that are performed, some that are refused or not valid, a duplicate and one out of order. -/
theorem test_meets_host_requests :
    OpenQp (hosting []) 9 (qpOf []) ∧ (qpOf []).qpn = (9 : BitVec 24).toNat ∧ (hosting []).hostHas (qpOf []) 5 = false ∧
    (let q := { qpOf [] with held := [(5, HostOp.write 0 8 [])] }
     (hosting []).hostHas q 5 = true) ∧
    (∀ op ∈ [HostOp.write 0 8 [1, 2], .read 0 8 4, .fetchAdd 0 8 1, .cmpSwap 0 8 0 1], let z := (hosting []).takePassed 9 0
      let r := z.hostRun 0 ((hosting []).epoch 0) op
      ((5 : BitVec 24).toNat + 2 ^ 24 - (qpOf []).expPsn) % 2 ^ 24 = 0 ∧ (qpOf []).beyond = [] ∧ (qpOf []).held = [] ∧
        (qpOf []).txSeq + 1 ≤ 2 ^ 48 ∧ r.2.eth = z.eth ∧ (match r.1 with | .ok _ => true | _ => false) = true) ∧
    ((hosting []).hostRun 0 0 (.read 0 65536 4)).1 = .access none ∧ ((hosting []).hostRun 0 0 (.fetchAdd 0 9 4)).1 = .invalid ∧
    (((hosting []).setFld Fd.ethRegionBase 0 0 0x10000).hostRun 0 0 (.read 0 8 4)).1 = .access (some 0x2005) ∧
    2 ^ 23 ≤ ((4 : BitVec 24).toNat + 2 ^ 24 - (qpOf []).expPsn) % 2 ^ 24 ∧
    (0 < ((6 : BitVec 24).toNat + 2 ^ 24 - (qpOf []).expPsn) % 2 ^ 24 ∧ ((6 : BitVec 24).toNat + 2 ^ 24 - (qpOf []).expPsn) % 2 ^ 24 < 2 ^ 23 ∧
      (qpOf []).sack = false ∧ (hosting []).eth.waiting = [] ∧ (qpOf []).txSeq ≤ 2 ^ 48) := by unfold OpenQp; decide +kernel

/-- HostRequestsRunInOrder: a request whose page is in flash waits for it. -/
theorem test_meets_host_wait :
    let s := { (((hosting []).setFld Fd.ethRegionKind 0 0 1).setFld Fd.ethRegionBase 0 0 3) with
      regs := ((((((hosting []).setFld Fd.ethRegionKind 0 0 1).setFld Fd.ethRegionBase 0 0 3).setFld Fd.poolPtEntries 0 0 16).setFld Fd.poolPtBase 0 0 0x80000).setFld
        Fd.stackStateInService 0 0 1 |>.setFld Fd.poolFree 0 0 131072).regs }
    ((s.setPte 0 3 (inFlash 9)).hostRun 0 0 (.read 0 8 4)).1 = .wait := by decide +kernel

/-- HostRequestsRunInOrder: acknowledgements of a queue pair with the extension and of one without. -/
theorem test_meets_host_acks :
    let r : TxReq := ⟨7, 0, 0, 0, 0, []⟩
    let q := { qpOf [r] with sack := true }
    let s := { hosting [r] with eth := { (hosting [r]).eth with qps := [q] } }
    OpenQp (hosting [r]) 9 (qpOf [r]) ∧ (qpOf [r]).sack = false ∧ (qpOf [r]).txSeq + 1 ≤ 2 ^ 48 ∧ OpenQp s 9 q ∧ q.sack = true ∧
      (q.unacked.filter (fun x => psnUpTo 6 x.psn && !(sackMarks 6 [false, true]).contains x.psn)).filter
        (fun x => (sackMarks 6 [false, true]).any (fun m => psnUpTo x.psn m)) = [r] := by unfold OpenQp; decide +kernel

/-- HostRequestsRunInOrder: a request that waits, at its first attempt and its last; a rate that may be cut. -/
theorem test_meets_host_timers :
    let r : TxReq := ⟨0, 0, 0, 0, 0, []⟩
    let s := (hosting [r]).setFld Fd.ethRetransRetry 0 0 7
    OpenQp s 9 (qpOf [r]) ∧ (qpOf [r]).unacked = r :: [] ∧ r.tries + 1 < max 1 (s.fld Fd.ethRetransRetry) ∧
      max 1 (s.fld Fd.ethRetransRetry) ≤ ({ r with tries := 6 }).tries + 1 ∧ (qpOf []).cutAt = none := by unfold OpenQp; decide +kernel

/-! ## Witnesses: the Clerk -/

/-- An owner command of an operation for a module, with nothing signed. -/
def ownerMsg (op target : Nat) : List Byte := [BitVec.ofNat 8 (op / 256), BitVec.ofNat 8 op, BitVec.ofNat 8 (target / 256), BitVec.ofNat 8 target] ++
  List.replicate 20 0

/-- OwnerCommandsAreTaken: before and after the boot, for this module, for a neighbour and for one without a way. -/
theorem test_meets_owner_commands :
    State.reset.ownerTaken = false ∧ (inPhase .running).ownerTaken = true ∧ ownTarget (ownerMsg 3 0) = (inPhase .running).moduleId ∧
    ownOp (ownerMsg 3 0) ≠ 8 ∧ (inPhase .running).clk.accepted = none ∧ ownTarget (ownerMsg 3 7) ≠ (inPhase .running).moduleId ∧
    (inPhase .running).wayTo 7 = none ∧
    (((inPhase .running).setFld Fd.scecyStateLink 23 0 2).setFld Fd.scecyStatePartnerMod 23 0 7).wayTo 7 = some (some 23) := by decide +kernel

/-- An accepted command. -/
def accepting (op : Nat) (body : List Byte) (s : State) : State := { s with clk := { s.clk with accepted := some ⟨op, 1, body, .module 5⟩ } }

/-- AcceptedCommandsAct: ADMIT of a tenant in single tenancy, of one that is admitted, and of one with room; the other commands. -/
theorem test_meets_accepted :
    let body : List Byte := [1, 0, 0, 0, 0, 1, 0, 0, 0, 0, 0, 16, 0, 0, 0, 0]
    let s := accepting 1 body (pooled.setFld Fd.resetStrapSingle 0 0 0)
    Accepted (accepting 1 body (pooled.setFld Fd.resetStrapSingle 0 0 1)) 1 ⟨1, 1, body, .module 5⟩ ∧
      (accepting 1 body (pooled.setFld Fd.resetStrapSingle 0 0 1)).flag Fd.resetStrapSingle = true ∧
      s.flag Fd.resetStrapSingle = false ∧ (AdmitBody.ofBytes body).tenant < 16 ∧ s.admitRefusal (AdmitBody.ofBytes body) = none ∧
      s.tableRun (tableFrames (AdmitBody.ofBytes body).entries) ≠ none ∧
      s.admitRefusal (AdmitBody.ofBytes (0 :: body.drop 1)) = some cAdmitTenantHeld ∧
      (∀ op ∈ [2, 3, 5, 6, 7], Accepted (accepting op [15] (inPhase .running)) op ⟨op, 1, [15], .module 5⟩) ∧ fieldB [15] 0 1 = (15 : Fin 16).val ∧
      (inPhase .running).clk.phase ≠ .hold := by simp only [Accepted, reduceCtorEq, false_implies, implies_true, and_true]; decide +kernel

/-- The results of a boot in which every test passes. -/
def cleanBoot : BootObs := ⟨[], [], [], [], [], none, 0⟩
theorem test_meets_resume :
    let s := { (inPhase .hold).setFld Fd.resetStrapSingle 0 0 0 with clk := { ClkSt.init with phase := .hold, obs := some cleanBoot } }
    Accepted (accepting 7 [] s) 7 ⟨7, 1, [], .module 5⟩ ∧ (accepting 7 [] s).clk.phase = .hold ∧ (accepting 7 [] s).clk.obs = some cleanBoot ∧
      (accepting 7 [] s).fld Fd.resetStrapSingle = 0 := by simp only [Accepted, reduceCtorEq, false_implies, implies_true, and_true]; decide +kernel

/-- ImageSegmentsAreTaken, OptionsAreLoaded, BootsEndInTheirPhase. -/
theorem test_meets_boot :
    (inPhase .running).clk.phase ≠ .recovery ∧ (inPhase .recovery).clk.taken = [] ∧ 0 < (4 : BitVec 32).toNat ∧
    (4 : BitVec 32).toNat + [(1 : Byte)].length ≤ imageMax ∧ State.reset.clk.phase = .loading ∧ State.reset.clk.source ≠ 3 ∧
    decideStrap [List.replicate 8 63] ≠ none ∧ decideStrap [] = none ∧ decideStrap (List.replicate 16 []) = none ∧
    (inPhase .loaded).clk.phase = .loaded ∧ ((inPhase .loaded).setFld Fd.resetStrapWindow 0 0 2).fld Fd.resetStrapWindow = 2 ∧
    (inPhase .loaded).fld Fd.resetStrapWindow ≠ 2 := by decide +kernel

/-- ImagesAreHandledInTheChain, UpdatesEnd: busy, at the chain's last position, and updates of each kind. -/
theorem test_meets_updates :
    ((inPhase .running).setFld Fd.moduleUpdateCtrlBusy 0 0 1).flag Fd.moduleUpdateCtrlBusy = true ∧
    (inPhase .running).flag Fd.moduleUpdateCtrlBusy = false ∧ (inPhase .running).managed = true ∧ [(7 : BitVec 16)].length ≤ 0 + 1 ∧
    (let u : UpdSt := ⟨[], [7, 8], [], 0, 1, false⟩
     u.next ≠ 0 ∧ u.origin = false ∧ u.chain.length ≤ u.next + 1) ∧
    ({ inPhase .running with clk := { ClkSt.init with update := some ⟨[], [], [], 0, 0, true⟩ } }).updateWaits = true ∧
    State.reset.flag Fd.moduleTelemEnable = false := by decide +kernel

/-- ClocksTestsAndSamplesAreTaken: no sensor at its trip limit; hot, cool and between; no crossing of the risk threshold. -/
theorem test_meets_power :
    let s := (inPhase .running).setFld Fd.moduleRiskArmed 0 0 0
    s.managed = true ∧ s.clerkRuns = true ∧ (∀ i, i < 39 → s.fld Fd.moduleTempCur 0 i < s.fld Fd.moduleTempTrip 0 i) ∧ s.anyHot = false ∧
      s.allCool = true ∧ (s.setFld Fd.moduleTempCur 0 38 700).anyHot = true ∧ s.clk.below < 99 ∧
      s.flag Fd.moduleRiskArmed ≠ true := by decide +kernel

/-! ## Witnesses: whole commands and memories -/

/-- IdleStepCountsCyclesOnly and TinkersKeepTheMemoriesCanonical. -/
theorem test_meets_idle : State.reset.pending = [] := rfl
theorem test_meets_canonical : insideCell (.store 0 5 1 2 false 3) = true ∧ MemoriesWf (tkState (withG [(1, 0x200010), (5, 7)])) ∧
    after (.store 0 5 1 2 false 3) (tkState (withG [(1, 0x200010), (5, 7)])) (fun t => decide (t.stores = [(0x10, 7)])) = true := by
  unfold MemoriesWf; decide +kernel

/-! ## Witnesses: tiles of a Till -/

theorem went_of_goes {r w : W} {n op : Nat} (h : GoesOn r w) (hk : w.k.num = n ∧ w.k.opcode = op ∧ w.k.finished = false ∧ w.k.cancelled = false)
    (hs : (w.s.cmd w.c n).isSome = true) : RowWent r w.c n op := by
  obtain ⟨h1, h2, h3, h4⟩ := h
  refine ⟨h1, h2, by rw [h3]; exact hk.1, by rw [h3]; exact hk.2.1, by rw [h3]; exact hk.2.2.1, by rw [h3]; exact hk.2.2.2, ?_⟩
  have : r.s.cmd w.c n = w.s.cmd w.c n := by simp [State.cmd, State.cell, h4]
  rw [this]; exact hs

/-- A TILL_FLUSH on one tile in a hole. -/
def tileCmd (mode : Nat) : Cmd := cmdOf 0x0203 [(16, 1, mode), (18, 1, 3), (20, 4, 1), (32, 6, 0x500000000000), (40, 6, 0x600000000000), (48, 6, 0x700000000000)]
def tileWork (mode : Nat) : W := W.mk (running (tileCmd mode)) 0 (tileCmd mode) .go

theorem tile_in_hole : ∀ mode ∈ [2, 3, 4], tileInHole ((tileCmd mode).addr 32) ((tileCmd mode).u 24 4 + 0) := by unfold tileInHole; decide +kernel

/-- TillCommandsDoTheirModes: one tile to clear, to read and to merge. -/
theorem test_meets_tile_modes : ∀ mode ∈ [2, 3, 4], let k := tileCmd mode
    Working (running k) 0 0 k 0x0203 ∧ (running k).tillBefore 0 0 = false ∧ k.u 20 4 = 1 ∧ k.pos = 0 ∧ k.cancelled = false ∧ k.u 16 1 % 8 = mode ∧
      (running k).tileClaimed 0 (k.addr 32) (k.u 24 4) = false := by unfold Working; decide +kernel

theorem test_meets_tile_clear :
    RowWent ((tileWork 2).writeTile ((tileCmd 2).addr 32) ((tileCmd 2).u 24 4) (-128) (List.replicate 16384 0)) 0 0 0x0203 :=
  went_of_goes (w := tileWork 2) (write_tile_goes rfl (tile_in_hole 2 (by decide)) _ _ (by rw [List.length_replicate])) (by decide +kernel)
    (by decide +kernel)

theorem count_keeps (x : Cmd) (n : Counts) : (x.count n).num = x.num ∧ (x.count n).opcode = x.opcode ∧ (x.count n).finished = x.finished ∧
    (x.count n).cancelled = x.cancelled := by
  unfold Cmd.count
  constructor <;> (try constructor) <;> (try constructor) <;> (dsimp only; split <;> split <;> rfl)

/-- Work that went on with some counts is the row of a command. -/
theorem went_of_counts {mode : Nat} {r : W} {n : Counts} (h1 : r.halt = .go) (h2 : r.c = (tileWork mode).c) (h3 : r.k = (tileWork mode).k.count n)
    (h4 : r.s.cells = (tileWork mode).s.cells)
    (hk : (tileWork mode).k.num = 0 ∧ (tileWork mode).k.opcode = 0x0203 ∧ (tileWork mode).k.finished = false ∧ (tileWork mode).k.cancelled = false)
    (hs : ((tileWork mode).s.cmd 0 0).isSome = true) : RowWent r 0 0 0x0203 := by
  have hx := count_keeps (tileWork mode).k n
  have he : r.s.cmd 0 0 = (tileWork mode).s.cmd 0 0 := by simp [State.cmd, State.cell, h4]
  exact ⟨h1, h2, by rw [h3, hx.1, hk.1], by rw [h3, hx.2.1, hk.2.1], by rw [h3, hx.2.2.1, hk.2.2.1], by rw [h3, hx.2.2.2, hk.2.2.2],
    by rw [he]; exact hs⟩

theorem test_meets_tile_read : RowWent (tileWork 3).readOut 0 0 0x0203 := by
  obtain ⟨n, h1, h2, h3, h4⟩ := read_out_goes (w := tileWork 3) rfl (by decide +kernel) (tile_in_hole 3 (by decide)) (by unfold inHole; decide +kernel)
    (by unfold inHole; decide +kernel)
  exact went_of_counts h1 h2 h3 h4 (by decide +kernel) (by decide +kernel)

theorem test_meets_tile_merge : RowWent (tileWork 4).mergeTile 0 0 0x0203 := by
  obtain ⟨n, z, g, h1, h2, h3, h4⟩ := merge_tile_goes (w := tileWork 4) rfl (by decide +kernel) (by unfold tileInHole; decide +kernel)
    (tile_in_hole 4 (by decide))
  exact went_of_counts h1 h2 h3 h4 (by decide +kernel) (by decide +kernel)

end Sys2Proof.Tests
end

section
/-! PROOFS. Writes of a register of control space: what each access code does to the bits of its field (R11 to R13, R109), and what
REGISTER_WRITE does to a register that sets nothing off and to one that R417 does not let its issuer write. -/

namespace Sys2Proof.Proofs

open Sys2Proof Sys2Proof.Machine Sys2Proof.Claims

/-! ## Bits of numbers -/

theorem land_add_ldiff (a b : Nat) : (a &&& b) + a.ldiff b = a := by
  induction a using Nat.binaryRec generalizing b with
  | zero => simp [Nat.ldiff]
  | bit x m ih =>
    cases b using Nat.bitCasesOn with
    | bit y n =>
      have := ih n
      rw [Nat.land_bit, Nat.ldiff_bit]
      cases x <;> cases y <;> simp [Nat.bit_val] <;> omega

/-- Taking away the bits that a number shares with another clears them and no other. -/
theorem testBit_sub_land (a b n : Nat) : (a - Nat.land a b).testBit n = (a.testBit n && !b.testBit n) := by
  have h : a - (a &&& b) = a.ldiff b := by have := land_add_ldiff a b; omega
  rw [← Nat.testBit_ldiff, ← h]
  rfl

@[simp] theorem testBit_nat_land (a b n : Nat) : (Nat.land a b).testBit n = (a.testBit n && b.testBit n) := Nat.testBit_and a b n

@[simp] theorem testBit_nat_lor (a b n : Nat) : (Nat.lor a b).testBit n = (a.testBit n || b.testBit n) := Nat.testBit_or a b n

theorem testBit_bitsOf (x hi lo n : Nat) : (bitsOf x hi lo).testBit n = (decide (n < hi + 1 - lo) && x.testBit (n + lo)) := by
  rw [bitsOf, Nat.testBit_mod_two_pow, Nat.testBit_div_two_pow]

theorem testBit_putBits {w : Nat} (hw : 0 < w) (x lo v n : Nat) :
    (putBits x lo w v).testBit n = if lo ≤ n ∧ n < lo + w then v.testBit (n - lo) else x.testBit n := by
  split
  case isTrue h =>
    have hput : putBits x lo w v = putBits x lo w (v % 2 ^ w) := by simp [putBits]
    have hbits := congrArg (·.testBit (n - lo)) (put_bits_get x lo w (v % 2 ^ w) hw (Nat.mod_lt _ (Nat.two_pow_pos w)))
    simp only [testBit_bitsOf, Nat.testBit_mod_two_pow, Nat.sub_add_cancel h.1, ← hput] at hbits
    simpa [show n - lo < lo + w - 1 + 1 - lo by omega, show n - lo < w by omega] using hbits
  case isFalse h => exact put_bits_other x lo w v n (by omega) hw

theorem putBits_lt {x lo w : Nat} (hw : 0 < w) (hx : x < 2 ^ 64) (h : lo + w ≤ 64) (v : Nat) : putBits x lo w v < 2 ^ 64 := by
  refine Nat.lt_pow_two_of_testBit _ fun n hn => ?_
  rw [testBit_putBits hw, if_neg (by omega)]
  exact Nat.testBit_lt_two_pow (hx.trans_le (Nat.pow_le_pow_right (by omega) hn))

theorem satTo_eq_min (lim x : Nat) : satTo lim x = min lim x := by unfold satTo; split <;> omega

/-! ## Fields of the state -/

theorem fld_lt (s : State) (f : Field) (hw : 0 < f.w) (b i : Nat) : s.fld f b i < 2 ^ f.w := by
  have := bits_lt (s.reg (f.reg b i)).toNat (f.lo + f.w - 1) f.lo
  rwa [show f.lo + f.w - 1 + 1 - f.lo = f.w by omega] at this

/-- A field set to a value that fits reads back as it. -/
theorem fld_setFld_self (s : State) {f : Field} (hw : 0 < f.w) (h64 : f.lo + f.w ≤ 64) (b i : Nat) {v : Nat} (hv : v < 2 ^ f.w) :
    (s.setFld f b i v).fld f b i = v := by
  rw [State.fld, State.setFld, State.reg_set_self, BitVec.toNat_ofNat, Nat.mod_eq_of_lt (putBits_lt hw (BitVec.isLt _) h64 v),
    put_bits_get _ _ _ _ hw hv]

/-- A SAT counter counts up to its limit (R13). -/
theorem fld_bump_self (s : State) {f : Field} (hw : 0 < f.w) (h64 : f.lo + f.w ≤ 64) (b i n : Nat) :
    (s.bump f b i n).fld f b i = min (2 ^ f.w - 1) (s.fld f b i + n) := by
  have := Nat.two_pow_pos f.w
  rw [State.bump, satTo_eq_min, fld_setFld_self s hw h64 b i (by omega)]

/-- A field reads the same where its register does. -/
theorem fld_congr {s t : State} {f : Field} {b i : Nat} (h : t.reg (f.reg b i) = s.reg (f.reg b i)) : t.fld f b i = s.fld f b i := by
  rw [State.fld, State.fld, h]

theorem onlyRegs_setReg (s : State) {o : Nat} {os : List Nat} (h : o ∈ os) (v : BitVec 64) : OnlyRegs os s (s.setReg o v) :=
  ⟨rfl, fun _ hp => State.reg_set_other s v (fun e => hp (e ▸ h))⟩

theorem onlyRegs_bump (s : State) {f : Field} {b i : Nat} {os : List Nat} (h : f.reg b i ∈ os) (n : Nat) : OnlyRegs os s (s.bump f b i n) :=
  onlyRegs_setReg s h _

theorem onlyRegs_trans {os : List Nat} {s t u : State} (h : OnlyRegs os s t) (h' : OnlyRegs os t u) : OnlyRegs os s u := by
  obtain ⟨hst, hreg⟩ := h
  obtain ⟨htu, hreg'⟩ := h'
  exact ⟨by rw [htu, hst], fun o ho => (hreg' o ho).trans (hreg o ho)⟩

/-! ## One field under a write, by its access code -/

/-- R12: a write leaves an RO field. -/
theorem field_ro (w : RegWrite) {f : Field} (ha : f.acs = .ro) (v : Nat) : w.field f v = (v, 0) := by
  simp [RegWrite.field, ha]

/-- A write to an RW field counts no coincidence. -/
theorem field_rw_coincidences (w : RegWrite) {f : Field} (ha : f.acs = .rw) (v : Nat) : (w.field f v).2 = 0 := by
  simp [RegWrite.field, ha]

/-- R11, R12: a write stores the addressed bits of an RW field, and no other bit. -/
theorem testBit_field_rw (w : RegWrite) {f : Field} (ha : f.acs = .rw) (hw : 0 < f.w) (v n : Nat) :
    (w.field f v).1.testBit n =
      if (f.lo ≤ n ∧ n < f.lo + f.w) ∧ w.mask.testBit n = true then w.val.testBit n else v.testBit n := by
  simp only [RegWrite.field, ha, testBit_putBits hw, testBit_nat_lor, testBit_nat_land, testBit_sub_land, testBit_bitsOf]
  by_cases h : f.lo ≤ n ∧ n < f.lo + f.w
  · have hn : n - f.lo < f.lo + f.w - 1 + 1 - f.lo := by omega
    cases hm : w.mask.testBit n <;> simp [h, hn, hm]
  · simp [h]

/-- R12, R109: in a W1C field an addressed 1 clears its bit, and a bit that hardware sets at the same time is set. -/
theorem testBit_field_w1c (w : RegWrite) {f : Field} (ha : f.acs = .w1c) (hw : 0 < f.w) (v n : Nat) :
    (w.field f v).1.testBit n =
      if f.lo ≤ n ∧ n < f.lo + f.w then (v.testBit n && !(w.val.testBit n && w.mask.testBit n)) || w.hw.testBit n else v.testBit n := by
  simp only [RegWrite.field, ha, testBit_putBits hw, testBit_nat_lor, testBit_nat_land, testBit_sub_land, testBit_bitsOf]
  by_cases h : f.lo ≤ n ∧ n < f.lo + f.w
  · have hn : n - f.lo < f.lo + f.w - 1 + 1 - f.lo := by omega
    simp [h, hn]
  · simp [h]

/-- R109: the coincidences of a W1C field are the bits that the write clears and hardware sets. -/
theorem field_w1c_coincidences (w : RegWrite) {f : Field} (ha : f.acs = .w1c) (v : Nat) :
    (w.field f v).2 = ((List.range f.w).filter (fun b =>
      w.val.testBit (b + f.lo) && w.mask.testBit (b + f.lo) && w.hw.testBit (b + f.lo))).length := by
  simp only [RegWrite.field, ha, testBit_nat_land, testBit_bitsOf]
  refine congrArg List.length (List.filter_congr fun b hb => ?_)
  have hb := List.mem_range.mp hb
  simp [show b < f.lo + f.w - 1 + 1 - f.lo by omega]

/-- R13: without an event of its counter in the same cycle, a write clears a SAT counter if it writes 0 to all of it, and else leaves
it. -/
theorem field_sat (w : RegWrite) {f : Field} (ha : f.acs = .sat) (hhw : w.hw = 0) (v : Nat) :
    w.field f v =
      (if bitsOf w.mask (f.lo + f.w - 1) f.lo + 1 = 2 ^ f.w ∧ bitsOf w.val (f.lo + f.w - 1) f.lo = 0 ∧ bitsOf v (f.lo + f.w - 1) f.lo ≠ 0
        then putBits v f.lo f.w 0 else v, 0) := by
  have h0 : bitsOf 0 (f.lo + f.w - 1) f.lo = 0 := by simp [bitsOf]
  simp only [RegWrite.field, ha, hhw, h0]
  by_cases hold : bitsOf v (f.lo + f.w - 1) f.lo = 0
  · simp [hold]
  · by_cases hc : bitsOf w.mask (f.lo + f.w - 1) f.lo + 1 = 2 ^ f.w ∧ bitsOf w.val (f.lo + f.w - 1) f.lo = 0
    · simp [hc, hold, Ne.symm hold, satTo_eq_min]
    · simp [hc, hold]

/-! ## A register under a write -/

/-- The fields of a register under a write, one after the other: the new value and the coincidences. -/
def writeFields (w : RegWrite) (fs : List (Field × Nat)) (v : Nat) : Nat × Nat :=
  fs.foldl (fun x fi => ((w.field fi.1 x.1).1, x.2 + (w.field fi.1 x.1).2)) (v, 0)

theorem writeFields_single (w : RegWrite) (f : Field) (i v : Nat) : writeFields w [(f, i)] v = w.field f v := by simp [writeFields]

/-- A register of a block stored with the coincidences that the block counts (R109). -/
def putReg (s : State) (o : Nat) (b : Blk) (i : Nat) (r : Nat × Nat) : State :=
  if r.2 = 0 then s.setReg o (BitVec.ofNat 64 r.1) else (s.setReg o (BitVec.ofNat 64 r.1)).bump (Fd.coincideCnt b) i 0 r.2

/-- The fields whose registers do something when they are written. -/
def effectFields : List Field :=
  [Fd.cellTkRun0, Fd.cellTkRun1, Fd.cellDoorbell, Fd.stackMsGoKind, Fd.scecyCtrlEnable, Fd.moduleStreamSeed, Fd.moduleStreamBase,
    Fd.moduleStreamCfgRate, Fd.moduleStreamOffset, Fd.moduleDataPos, Fd.modulePartnerId, Fd.ethRegionKind, Fd.ethRegionBase,
    Fd.moduleMemReqStacks, Fd.moduleSwResetArm, Fd.moduleUpdateCtrlStart]

/-- A register of a block, with its fields, whose write stores them by their access codes and sets nothing off. -/
structure StoresOnly (o : Nat) (b : Blk) (i : Nat) (fs : List (Field × Nat)) : Prop where
  aligned : o % 8 = 0
  block : (blockOf o).map (fun x => (x.1, x.2.1)) = some (b, i)
  fields : fieldsAt o = fs
  taken : ∀ fi ∈ fs, fi.1 ≠ Fd.stackMode ∧ fi.1 ≠ Fd.ethRegionKind
  quiet : ∃ fi ∈ fs.head?, fi.1 ∉ effectFields ∧ fi.1 ≠ Fd.swrstReset b

theorem writeEffect_quiet (s : State) (who : Who) (b : Blk) (bi : Nat) {f : Field} (i old : Nat) (w : RegWrite) (hf : f ∉ effectFields)
    (hb : f ≠ Fd.swrstReset b) : s.writeEffect who b bi f i old w = s := by
  simp only [effectFields, List.mem_cons, not_or, List.not_mem_nil, not_false_eq_true, and_true] at hf
  simp [State.writeEffect, hf, hb]

section
variable {s : State} {who : Who} {o : Nat} {b : Blk} {i : Nat} {fs : List (Field × Nat)}

theorem storeReg_storesOnly (h : StoresOnly o b i fs) (w : RegWrite) :
    s.storeReg who o w = putReg s o b i (writeFields w fs (s.reg o).toNat) := by
  obtain ⟨⟨b', i', p⟩, hblock, hbi⟩ := Option.map_eq_some_iff.mp h.block
  obtain ⟨rfl, rfl⟩ := Prod.mk.inj hbi
  have hfold : fs.foldl (fun (x : Nat × Nat) fi => if s.writeIgnored who w fi.1 fi.2 then x
      else let y := w.field fi.1 x.1; (y.1, x.2 + y.2)) ((s.reg o).toNat, 0) = writeFields w fs (s.reg o).toNat := by
    refine List.foldl_ext _ _ _ fun x fi hfi => ?_
    simp [State.writeIgnored, h.taken fi hfi]
  simp only [State.storeReg, h.fields, hblock, hfold]
  rfl

/-- A permitted write to a register that sets nothing off stores its fields (R11, R417). -/
theorem ctlWriteMask_storesOnly (h : StoresOnly o b i fs) (hmay : MayWrite s who o) (mask v hw : Nat) :
    (s.ctlWriteMask who o mask v hw).2 =
      putReg s o b i (writeFields ⟨mask, Nat.land v mask, hw, s.flag Fd.resetLockBootLock⟩ fs (s.reg o).toNat) := by
  obtain ⟨hperm, hreset⟩ := hmay
  obtain ⟨fi, hhead, heff, hswrst⟩ := h.quiet
  obtain ⟨⟨b', i', p⟩, hblock, hbi⟩ := Option.map_eq_some_iff.mp h.block
  obtain ⟨rfl, rfl⟩ := Prod.mk.inj hbi
  simp only [Option.mem_def] at hhead
  simp only [State.ctlWriteMask, hreset, hperm, storeReg_storesOnly h, hblock, h.fields, hhead, ne_eq, not_true_eq_false, if_false,
    Bool.false_eq_true, writeEffect_quiet _ _ _ _ _ _ _ heff hswrst]

/-- A write that R417 does not permit, outside a block in reset, counts in CTL_DENY_CNT and does nothing else. -/
theorem ctlWriteMask_denied (hreset : s.ctlInReset o = false) (hperm : s.ctlPerm who o ≠ .full) (mask v hw : Nat) :
    (s.ctlWriteMask who o mask v hw).2 = s.bump Fd.ethCtlDenyCnt := by
  simp [State.ctlWriteMask, hreset, hperm]

theorem putReg_no_coincidence {r : Nat × Nat} (h : r.2 = 0) : putReg s o b i r = s.setReg o (BitVec.ofNat 64 r.1) := by
  simp [putReg, h]

theorem onlyRegs_putReg (r : Nat × Nat) : OnlyRegs [o, (Fd.coincideCnt b).reg i 0] s (putReg s o b i r) := by
  have hset : OnlyRegs [o, (Fd.coincideCnt b).reg i 0] s (s.setReg o (BitVec.ofNat 64 r.1)) := onlyRegs_setReg s (by simp) _
  unfold putReg
  split
  · exact hset
  · exact onlyRegs_trans hset (onlyRegs_bump _ (by simp) _)

theorem reg_putReg_self (ho : o ≠ (Fd.coincideCnt b).reg i 0) (r : Nat × Nat) : (putReg s o b i r).reg o = BitVec.ofNat 64 r.1 := by
  unfold putReg
  split
  · exact State.reg_set_self ..
  · exact (State.reg_set_other _ _ ho).trans (State.reg_set_self ..)

/-- R109: COINCIDE_CNT of the block counts the coincidences, saturating (R13). -/
theorem fld_putReg_coincideCnt (ho : o ≠ (Fd.coincideCnt b).reg i 0) (r : Nat × Nat) :
    (putReg s o b i r).fld (Fd.coincideCnt b) i = min (2 ^ 32 - 1) (s.fld (Fd.coincideCnt b) i + r.2) := by
  have hset : (s.setReg o (BitVec.ofNat 64 r.1)).fld (Fd.coincideCnt b) i = s.fld (Fd.coincideCnt b) i :=
    fld_congr (State.reg_set_other _ _ ho.symm)
  unfold putReg
  split
  case isTrue h0 =>
    have : s.fld (Fd.coincideCnt b) i < 2 ^ 32 := fld_lt s _ (by decide : 0 < 32) i 0
    rw [hset, h0]
    omega
  case isFalse => rw [fld_bump_self _ (by decide : 0 < 32) (by decide : 0 + 32 ≤ 64), hset]; rfl

/-! ## REGISTER_WRITE -/

/-- REGISTER_WRITE of all eight bytes is one write with the full mask. -/
theorem registerWrite_whole (halign : o % 8 = 0) (ho : o < 2 ^ 28) (v hw : BitVec 64) :
    exec (.registerWrite who (BitVec.ofNat 28 o) 3 v hw) s = .next (s.ctlWriteMask who o (2 ^ 64 - 1) v.toNat hw.toNat).2 := by
  show execRegisterWrite .. = _
  have hoff : (BitVec.ofNat 28 o).toNat / 8 * 8 = o := by rw [BitVec.toNat_ofNat]; omega
  have hv : v.toNat % 2 ^ 64 = v.toNat := Nat.mod_eq_of_lt v.isLt
  simp only [execRegisterWrite, State.ctlWrite, show sizeBytes 3 = 8 from rfl, hoff, halign, hv, show o / 8 * 8 = o by omega, Nat.reduceMul,
    Nat.pow_zero, Nat.mul_one]

/-- A whole write as its register sees it. -/
def wholeWrite (v hw : BitVec 64) (locked : Bool) : RegWrite := ⟨2 ^ 64 - 1, v.toNat, hw.toNat, locked⟩

/-- A permitted REGISTER_WRITE of all eight bytes to a register that sets nothing off. -/
theorem registerWrite_storesOnly (h : StoresOnly o b i fs) (ho : o < 2 ^ 28) (hmay : MayWrite s who o) (v hw : BitVec 64) :
    exec (.registerWrite who (BitVec.ofNat 28 o) 3 v hw) s =
      .next (putReg s o b i (writeFields (wholeWrite v hw (s.flag Fd.resetLockBootLock)) fs (s.reg o).toNat)) := by
  have hval : Nat.land v.toNat (2 ^ 64 - 1) = v.toNat := (Nat.and_two_pow_sub_one_eq_mod _ _).trans (Nat.mod_eq_of_lt v.isLt)
  rw [registerWrite_whole h.aligned ho, ctlWriteMask_storesOnly h hmay, hval]
  rfl

/-- REGISTER_WRITE of the one byte above the first is a write with the mask of bits [15:8]. -/
theorem registerWrite_second_byte (halign : o % 8 = 0) (ho : o + 1 < 2 ^ 28) (v hw : BitVec 64) :
    exec (.registerWrite who (BitVec.ofNat 28 (o + 1)) 0 v hw) s =
      .next (s.ctlWriteMask who o 0xFF00 (v.toNat % 256 * 256) hw.toNat).2 := by
  show execRegisterWrite .. = _
  have hoff : (BitVec.ofNat 28 (o + 1)).toNat = o + 1 := by rw [BitVec.toNat_ofNat]; omega
  simp only [execRegisterWrite, State.ctlWrite, show sizeBytes 0 = 1 from rfl, hoff, Nat.div_one, Nat.mul_one,
    show (o + 1) / 8 * 8 = o by omega, show (o + 1) % 8 = 1 by omega, Nat.reducePow, Nat.reduceSub, Nat.reduceMul]

end

/-! ## RISK, HOLE_CNT and TK_TRAP0 -/

/-- The fields of RISK, the register of RISK_THRESH. -/
def riskFields : List (Field × Nat) :=
  [(Fd.moduleRiskLevel, 0), (Fd.moduleRiskThresh, 0), (Fd.moduleRiskHyst, 0), (Fd.moduleRiskArmed, 0), (Fd.moduleRiskScores, 0),
    (Fd.moduleRiskPeriods, 0)]

theorem storesOnly_risk : StoresOnly (Fd.moduleRiskThresh.reg 0 0) .module 0 riskFields :=
  ⟨by decide, by decide +kernel, by decide +kernel, by decide, by decide⟩

theorem storesOnly_holeCnt : StoresOnly (Fd.moduleHoleCnt.reg 0 0) .module 0 [(Fd.moduleHoleCnt, 0)] :=
  ⟨by decide, by decide +kernel, by decide +kernel, by decide, by decide⟩

/-- Where a register of a cell stands (R10). -/
theorem blockOf_cell (c : Fin 256) {p : Nat} (hp : p < 0x10000) : blockOf (Blk.cell.base c + p) = some (.cell, c.val, p) := by
  have hc := c.isLt
  have hholds : Blk.cell.holds (Blk.cell.base c + p) = true := by
    simp [Blk.holds, Blk.base, Blk.count, Blk.size]; omega
  rw [blockOf, Blk.all, List.find?_cons_of_pos (by exact hholds)]
  simp [Blk.base, Blk.size]
  omega

theorem storesOnly_tkTrap0 (c : Fin 256) : StoresOnly (Fd.cellTkTrap0.reg c 0) .cell c [(Fd.cellTkTrap0, 0)] := by
  have hblock : blockOf (Fd.cellTkTrap0.reg c 0) = some (.cell, c.val, 0x818) := blockOf_cell c (by decide)
  refine ⟨?_, by rw [hblock]; rfl, ?_, by decide, by decide⟩
  · simp [Field.reg, Fd.cellTkTrap0, Blk.base]; omega
  · rw [fieldsAt, hblock]; rfl

/-- RISK under a write: THRESH and HYST take the addressed bits, and the RO fields beside them stay. -/
theorem testBit_writeFields_risk (w : RegWrite) (v n : Nat) :
    (writeFields w riskFields v).1.testBit n = if (4 ≤ n ∧ n < 12) ∧ w.mask.testBit n = true then w.val.testBit n else v.testBit n := by
  have hfields : (writeFields w riskFields v).1 = (w.field Fd.moduleRiskHyst (w.field Fd.moduleRiskThresh v).1).1 := by
    simp only [writeFields, riskFields, List.foldl_cons, List.foldl_nil, field_ro w (f := Fd.moduleRiskLevel) rfl,
      field_ro w (f := Fd.moduleRiskArmed) rfl, field_ro w (f := Fd.moduleRiskScores) rfl, field_ro w (f := Fd.moduleRiskPeriods) rfl]
  rw [hfields, testBit_field_rw w rfl (by decide), testBit_field_rw w rfl (by decide)]
  simp only [Fd.moduleRiskHyst, Fd.moduleRiskThresh]
  cases w.mask.testBit n with
  | false => simp
  | true =>
    simp only [and_true]
    by_cases hhyst : 8 ≤ n ∧ n < 8 + 4
    · rw [if_pos hhyst, if_pos (by omega)]
    · by_cases hthresh : 4 ≤ n ∧ n < 4 + 4
      · rw [if_neg hhyst, if_pos hthresh, if_pos (by omega)]
      · rw [if_neg hhyst, if_neg hthresh, if_neg (by omega)]

theorem writeFields_risk_coincidences (w : RegWrite) (v : Nat) : (writeFields w riskFields v).2 = 0 := by
  simp [writeFields, riskFields, field_ro, field_rw_coincidences, Fd.moduleRiskLevel, Fd.moduleRiskThresh, Fd.moduleRiskHyst,
    Fd.moduleRiskArmed, Fd.moduleRiskScores, Fd.moduleRiskPeriods]

/-- RISK under a write by bytes, as a word. -/
theorem ofNat_writeFields_risk (r m : BitVec 64) (x hw : Nat) (locked : Bool) :
    BitVec.ofNat 64 (writeFields ⟨m.toNat, Nat.land x m.toNat, hw, locked⟩ riskFields r.toNat).1 =
      (r &&& ~~~(0xFF0#64 &&& m)) ||| (BitVec.ofNat 64 x &&& (0xFF0#64 &&& m)) := by
  refine BitVec.eq_of_getLsbD_eq fun n hn => ?_
  have hfields : (0xFF0#64).getLsbD n = decide (4 ≤ n ∧ n < 12) := by decide +revert
  rw [BitVec.getLsbD_ofNat, testBit_writeFields_risk, testBit_nat_land]
  simp only [BitVec.getLsbD_or, BitVec.getLsbD_and, BitVec.getLsbD_not, BitVec.getLsbD_ofNat, hfields, BitVec.testBit_toNat, hn]
  by_cases hin : 4 ≤ n ∧ n < 12 <;> cases m.getLsbD n <;> simp [hin]

/-- A write of RISK by bytes stores the bits of THRESH and HYST among those it addresses, and no other register. -/
theorem ctlWriteMask_risk {s : State} {who : Who} (hmay : MayWrite s who (Fd.moduleRiskThresh.reg 0 0)) (m : BitVec 64) (x : Nat) :
    let o := Fd.moduleRiskThresh.reg 0 0
    let t := (s.ctlWriteMask who o m.toNat x 0).2
    OnlyRegs [o] s t ∧ t.reg o = (s.reg o &&& ~~~(0xFF0#64 &&& m)) ||| (BitVec.ofNat 64 x &&& (0xFF0#64 &&& m)) := by
  intro o t
  have ht : t = s.setReg o _ :=
    (ctlWriteMask_storesOnly storesOnly_risk hmay _ _ _).trans (putReg_no_coincidence (writeFields_risk_coincidences ..))
  rw [ht, State.reg_set_self]
  exact ⟨onlyRegs_setReg s (by simp) _, ofNat_writeFields_risk ..⟩

/-- R11, R12, at RISK_THRESH. -/
theorem registerWrite_riskThresh {s : State} {who : Who} (hmay : MayWrite s who (Fd.moduleRiskThresh.reg 0 0)) (v : BitVec 64) :
    let o := Fd.moduleRiskThresh.reg 0 0
    ∃ t, exec (.registerWrite who (BitVec.ofNat 28 o) 3 v 0) s = .next t ∧ OnlyRegs [o] s t ∧
      t.reg o = (s.reg o &&& ~~~0xFF0#64) ||| (v &&& 0xFF0#64) := by
  refine ⟨_, registerWrite_whole storesOnly_risk.aligned (by decide) v 0, ?_⟩
  have h := ctlWriteMask_risk hmay (BitVec.allOnes 64) v.toNat
  rwa [BitVec.and_allOnes, BitVec.ofNat_toNat, BitVec.setWidth_eq] at h

/-- R11 at the second byte of RISK_THRESH. -/
theorem registerWrite_riskThresh_byte {s : State} {who : Who} (hmay : MayWrite s who (Fd.moduleRiskThresh.reg 0 0)) (v : BitVec 64) :
    let o := Fd.moduleRiskThresh.reg 0 0
    ∃ t, exec (.registerWrite who (BitVec.ofNat 28 (o + 1)) 0 v 0) s = .next t ∧ OnlyRegs [o] s t ∧
      t.reg o = (s.reg o &&& ~~~0xF00#64) ||| ((v <<< 8) &&& 0xF00#64) := by
  refine ⟨_, registerWrite_second_byte storesOnly_risk.aligned (by decide) v 0, ?_⟩
  have hplace : BitVec.ofNat 64 (v.toNat % 256 * 256) &&& 0xF00#64 = (v <<< 8) &&& 0xF00#64 := by
    refine BitVec.eq_of_getLsbD_eq fun n hn => ?_
    have hbyte : (0xF00#64).getLsbD n = decide (8 ≤ n ∧ n < 12) := by decide +revert
    rw [BitVec.getLsbD_and, BitVec.getLsbD_and, hbyte, BitVec.getLsbD_ofNat, show (256 : Nat) = 2 ^ 8 from rfl, Nat.testBit_mul_two_pow,
      Nat.testBit_mod_two_pow, BitVec.getLsbD_shiftLeft, BitVec.testBit_toNat]
    by_cases hin : 8 ≤ n ∧ n < 12
    · simp [hin, hn, show n - 8 < 8 by omega]
    · simp [hin]
  have h := ctlWriteMask_risk hmay 0xFF00#64 (v.toNat % 256 * 256)
  rwa [show 0xFF0#64 &&& 0xFF00#64 = 0xF00#64 by decide, hplace] at h

/-- A field of a register of ones is ones. -/
theorem bitsOf_ones {lo w : Nat} (hw : 0 < w) (h64 : lo + w ≤ 64) : bitsOf (2 ^ 64 - 1) (lo + w - 1) lo = 2 ^ w - 1 := by
  refine Nat.eq_of_testBit_eq fun n => ?_
  rw [testBit_bitsOf, Nat.testBit_two_pow_sub_one, Nat.testBit_two_pow_sub_one, show lo + w - 1 + 1 - lo = w by omega]
  by_cases hn : n < w
  · simp [hn, show n + lo < 64 by omega]
  · simp [hn]

/-- A SAT counter under a write of its whole register, without an event in the same cycle (R13). -/
theorem fld_setReg_sat_whole (s : State) {f : Field} (ha : f.acs = .sat) (hw : 0 < f.w) (h64 : f.lo + f.w ≤ 64) (b i : Nat) (v : BitVec 64)
    (locked : Bool) :
    (s.setReg (f.reg b i) (BitVec.ofNat 64 ((wholeWrite v 0 locked).field f (s.reg (f.reg b i)).toNat).1)).fld f b i =
      if bitsOf v.toNat (f.lo + f.w - 1) f.lo = 0 then 0 else s.fld f b i := by
  have hmask : bitsOf (wholeWrite v 0 locked).mask (f.lo + f.w - 1) f.lo + 1 = 2 ^ f.w := by
    have := Nat.two_pow_pos f.w
    rw [wholeWrite, bitsOf_ones hw h64]; omega
  have hset : (s.setReg (f.reg b i) (BitVec.ofNat 64 (putBits (s.reg (f.reg b i)).toNat f.lo f.w 0))).fld f b i = 0 :=
    fld_setFld_self s hw h64 b i (Nat.two_pow_pos _)
  have hkeep : (s.setReg (f.reg b i) (BitVec.ofNat 64 (s.reg (f.reg b i)).toNat)).fld f b i = s.fld f b i :=
    fld_congr (by rw [State.reg_set_self, BitVec.ofNat_toNat, BitVec.setWidth_eq])
  rw [field_sat _ ha rfl]
  simp only [hmask, true_and, show (wholeWrite v 0 locked).val = v.toNat from rfl]
  by_cases hclear : bitsOf v.toNat (f.lo + f.w - 1) f.lo = 0
  · by_cases hzero : s.fld f b i = 0
    · rw [if_neg (fun h => h.2 hzero), if_pos hclear, hkeep, hzero]
    · rw [if_pos ⟨hclear, hzero⟩, if_pos hclear, hset]
  · rw [if_neg (fun h => hclear h.1), if_neg hclear, hkeep]

/-- R13 at HOLE_CNT. -/
theorem registerWrite_holeCnt {s : State} {who : Who} (hmay : MayWrite s who (Fd.moduleHoleCnt.reg 0 0)) (v : BitVec 64) :
    let o := Fd.moduleHoleCnt.reg 0 0
    ∃ t, exec (.registerWrite who (BitVec.ofNat 28 o) 3 v 0) s = .next t ∧ OnlyRegs [o] s t ∧
      t.fld Fd.moduleHoleCnt = if v.toNat % 2 ^ Fd.moduleHoleCnt.w = 0 then 0 else s.fld Fd.moduleHoleCnt := by
  intro o
  have hval : bitsOf v.toNat (Fd.moduleHoleCnt.lo + Fd.moduleHoleCnt.w - 1) Fd.moduleHoleCnt.lo = v.toNat % 2 ^ Fd.moduleHoleCnt.w := by
    simp [bitsOf, Fd.moduleHoleCnt]
  refine ⟨_, registerWrite_storesOnly storesOnly_holeCnt (by decide) hmay v 0, ?_⟩
  rw [writeFields_single, putReg_no_coincidence (by rw [field_sat _ rfl rfl]), ← hval]
  exact ⟨onlyRegs_setReg s (by simp [o]) _, fld_setReg_sat_whole s rfl (by decide) (by decide) 0 0 v _⟩

/-- A write of a whole register that is one W1C field, as a word (R12, R109). -/
theorem ofNat_field_w1c_whole {f : Field} (ha : f.acs = .w1c) (hlo : f.lo = 0) (hw64 : f.w = 64) (r v hw : BitVec 64) (locked : Bool) :
    BitVec.ofNat 64 ((wholeWrite v hw locked).field f r.toNat).1 = (r &&& ~~~v) ||| hw := by
  refine BitVec.eq_of_getLsbD_eq fun n hn => ?_
  rw [BitVec.getLsbD_ofNat, testBit_field_w1c _ ha (by omega), if_pos (by omega)]
  simp only [wholeWrite, BitVec.testBit_toNat, Nat.testBit_two_pow_sub_one, hn, decide_true, Bool.and_true, BitVec.getLsbD_or,
    BitVec.getLsbD_and, BitVec.getLsbD_not, Bool.true_and]

/-- The coincidences of such a write. -/
theorem field_w1c_whole_coincidences {f : Field} (ha : f.acs = .w1c) (hlo : f.lo = 0) (hw64 : f.w = 64) (v hw : BitVec 64) (locked : Bool)
    (x : Nat) : ((wholeWrite v hw locked).field f x).2 = ((List.range 64).filter (fun b => v.getLsbD b && hw.getLsbD b)).length := by
  rw [field_w1c_coincidences _ ha, hlo, hw64]
  refine congrArg List.length (List.filter_congr fun b hb => ?_)
  have hb := List.mem_range.mp hb
  simp only [wholeWrite, Nat.add_zero, BitVec.testBit_toNat, Nat.testBit_two_pow_sub_one, hb, decide_true, Bool.and_true]

/-- R12, R109 at TK_TRAP0 of a cell. -/
theorem registerWrite_tkTrap0 {s : State} {who : Who} (c : Fin 256) (hmay : MayWrite s who (Fd.cellTkTrap0.reg c 0)) (v hw : BitVec 64) :
    let o := Fd.cellTkTrap0.reg c 0
    ∃ t, exec (.registerWrite who (BitVec.ofNat 28 o) 3 v hw) s = .next t ∧
      OnlyRegs [o, (Fd.coincideCnt .cell).reg c 0] s t ∧ t.reg o = (s.reg o &&& ~~~v) ||| hw ∧
      t.fld (Fd.coincideCnt .cell) c =
        min (2 ^ 32 - 1) (s.fld (Fd.coincideCnt .cell) c + ((List.range 64).filter (fun b => v.getLsbD b && hw.getLsbD b)).length) := by
  intro o
  have hother : o ≠ (Fd.coincideCnt .cell).reg c 0 := by simp [o, Field.reg, Fd.cellTkTrap0, Fd.coincideCnt, Blk.base]
  have hsmall : o < 2 ^ 28 := by simp [o, Field.reg, Fd.cellTkTrap0, Blk.base]; omega
  refine ⟨_, registerWrite_storesOnly (storesOnly_tkTrap0 c) hsmall hmay v hw, onlyRegs_putReg _, ?_, ?_⟩
  · rw [reg_putReg_self hother, writeFields_single]
    exact ofNat_field_w1c_whole rfl rfl rfl ..
  · rw [fld_putReg_coincideCnt hother, writeFields_single, field_w1c_whole_coincidences rfl rfl rfl]

/-- R417 at RISK_THRESH: a write that is not permitted is counted. -/
theorem registerWrite_denied {s : State} {who : Who} (hperm : s.ctlPerm who (Fd.moduleRiskThresh.reg 0 0) ≠ .full) (v : BitVec 64) :
    ∃ t, exec (.registerWrite who (BitVec.ofNat 28 (Fd.moduleRiskThresh.reg 0 0)) 3 v 0) s = .next t ∧
      OnlyRegs [Fd.ethCtlDenyCnt.reg 0 0] s t ∧ t.fld Fd.ethCtlDenyCnt = min (2 ^ 32 - 1) (s.fld Fd.ethCtlDenyCnt + 1) := by
  have hreset : s.ctlInReset (Fd.moduleRiskThresh.reg 0 0) = false := by
    have hblock : blockOf (Fd.moduleRiskThresh.reg 0 0) = some (.module, 0, 0x110) := by decide +kernel
    simp [State.ctlInReset, hblock]
  refine ⟨_, registerWrite_whole storesOnly_risk.aligned (by decide) v 0, ?_⟩
  rw [ctlWriteMask_denied hreset hperm]
  exact ⟨onlyRegs_bump s (by simp) 1, fld_bump_self s (by decide) (by decide) 0 0 1⟩

/-- Settles O17: each register by the access codes of its fields, bit by bit. -/
theorem registerWritesFollowTheAccessCodes : Obligations.RegisterWritesFollowTheAccessCodes := by
  unfold Obligations.RegisterWritesFollowTheAccessCodes
  intro who v hw s
  exact ⟨fun hmay => ⟨registerWrite_riskThresh hmay v, registerWrite_riskThresh_byte hmay v⟩, fun hmay => registerWrite_holeCnt hmay v,
    fun c hmay => registerWrite_tkTrap0 c hmay v hw, fun hperm => registerWrite_denied hperm v⟩

end Sys2Proof.Proofs
end

section
/-! PROOFS. Pieces of a Mill command's work: what keeping a piece of work leaves, when a chain has not ended, and what the shared operations
that take an event of a chain give where its condition holds (R55, R117, R127, R131). -/

namespace Sys2Proof.Proofs

open Sys2Proof Sys2Proof.Machine Sys2Proof.Claims

/-! ## The started commands of a cell -/

theorem mem_of_tabGet {α : Type} {d : Nat → α} {m : Tab α} {x : Nat} {v : α} (h : Tab.get d m x = v) (hv : v ≠ d x) : (x, v) ∈ m := by
  induction m with
  | nil => exact absurd h.symm hv
  | cons e m ih =>
    obtain ⟨y, u⟩ := e
    by_cases hxy : x = y
    · simp_all [Tab.get]
    · exact List.mem_cons_of_mem _ (ih (by simpa [Tab.get, hxy] using h))

@[simp] theorem cell_putCmd (s : State) (c : Nat) (k : Cmd) :
    (s.putCmd c k).cell c = { s.cell c with cmds := (s.cell c).cmds.map (fun y => if y.num = k.num then k else y) } := by
  simp [State.putCmd]

theorem cmds_putCmd_single {s : State} {c : Nat} {k y : Cmd} (h : (s.cell c).cmds = [k]) (hnum : k.num = y.num) :
    ((s.putCmd c y).cell c).cmds = [y] := by
  simp [h, hnum]

/-- Replacing a started command leaves a command of its number where there was one. -/
theorem cmd_putCmd_self {s : State} {c : Nat} {k y : Cmd} (h : s.cmd c y.num = some k) : (s.putCmd c y).cmd c y.num = some y := by
  have hfind : (fun z : Cmd => decide (z.num = y.num)) ∘ (fun z => if z.num = y.num then y else z) = fun z => decide (z.num = y.num) := by
    funext z
    by_cases hz : z.num = y.num <;> simp [hz]
  have hnum : k.num = y.num := by simpa using List.find?_some h
  rw [State.cmd] at h
  rw [State.cmd, cell_putCmd, List.find?_map, hfind, h, Option.map_some, if_pos hnum]

@[simp] theorem cell_syncMill (s : State) (c d : Nat) : (s.syncMill c).cell d = s.cell d := rfl
@[simp] theorem stores_syncMill (s : State) (c : Nat) : (s.syncMill c).stores = s.stores := rfl

@[simp] theorem cell_setDrain (s : State) (c b d : Nat) (v : Bool) : (s.setDrain c b v).cell d = s.cell d := rfl
@[simp] theorem stores_setDrain (s : State) (c b : Nat) (v : Bool) : (s.setDrain c b v).stores = s.stores := rfl

@[simp] theorem cmds_setBank (s : State) (c b : Nat) (x : Option Bank) : ((s.setBank c b x).cell c).cmds = (s.cell c).cmds := by
  simp [State.setBank]

@[simp] theorem cmds_setQueue (s : State) (c q : Nat) (l : List QEnt) : ((s.setQueue c q l).cell c).cmds = (s.cell c).cmds := by
  simp [State.setQueue]

/-! ## Keeping what a piece of work has done -/

section Keep

variable {w : W} (hgo : w.halt = .go)
include hgo

theorem keep_of_go : w.keep = (w.s.putCmd w.c w.k).syncMill w.c := by simp [W.keep, hgo]

theorem cmd_keep {y : Cmd} (h : w.s.cmd w.c w.k.num = some y) : w.keep.cmd w.c w.k.num = some w.k := by
  rw [keep_of_go hgo, ← cmd_putCmd_self h]
  simp [State.cmd]

theorem cmds_keep_single {y : Cmd} (h : (w.s.cell w.c).cmds = [y]) (hnum : y.num = w.k.num) : (w.keep.cell w.c).cmds = [w.k] := by
  rw [keep_of_go hgo, cell_syncMill, cmds_putCmd_single h hnum]

theorem bank_keep (b : Nat) : w.keep.bank w.c b = w.s.bank w.c b := by
  rw [keep_of_go hgo]
  simp [State.bank]

theorem nextBank_keep : (w.keep.cell w.c).nextBank = (w.s.cell w.c).nextBank := by
  rw [keep_of_go hgo]
  simp

theorem stores_keep : w.keep.stores = w.s.stores := by
  rw [keep_of_go hgo]
  simp

end Keep

/-- Work on a started command of one of the opcodes is done, and what it gives is kept. -/
theorem work_of_working {s : State} {c n op : Nat} {k : Cmd} {ops : List Nat} {f : W → W} (hw : Working s c n k op) (hop : op ∈ ops) :
    s.work c n ops f = (f (W.mk s c k .go)).keep := by
  obtain ⟨hdead, hcmd, hopc, hfin, -⟩ := hw
  simp [State.work, hdead, hcmd, hfin, hopc, hop]

/-! ## The end of a chain -/

/-- A command with a tile in a bank holds something (R117). -/
theorem holds_of_bank {s : State} {c b : Nat} {k : Cmd} {x : Bank} (h : s.bank c b = some x) (hnum : x.num = k.num) :
    s.holds c k = true := by
  have hmem := mem_of_tabGet h (by simp)
  simp only [State.holds, Bool.or_eq_true, List.any_eq_true]
  exact .inr ⟨_, hmem, by simp [hnum]⟩

/-- Work does not end while a bank holds a tile of its command (R117, R127). -/
theorem millEnd_of_bank {w : W} {b : Nat} {x : Bank} (h : w.s.bank w.c b = some x) (hnum : x.num = w.k.num) : w.millEnd = w := by
  simp [W.millEnd, holds_of_bank h hnum]

/-- Work v stands where work w did: the same banks and started commands in the cell, and of its own command the same name and the same note
of the tiles that a stop left. -/
structure SameBanksAndTiles (w v : W) : Prop where
  c : v.c = w.c
  halt : v.halt = w.halt
  cmds : (v.s.cell w.c).cmds = (w.s.cell w.c).cmds
  bank : ∀ b, v.s.bank w.c b = w.s.bank w.c b
  num : v.k.num = w.k.num
  tiles : v.k.tiles = w.k.tiles

/-- The end of a chain marks its command and clears its ports (R127); banks and started commands stay. -/
theorem millEnd_sameBanksAndTiles (w : W) : SameBanksAndTiles w w.millEnd := by
  simp only [W.millEnd]
  split
  · constructor <;> simp [W.finish, State.clearPorts, State.bank]
  · exact ⟨rfl, rfl, rfl, fun _ => rfl, rfl, rfl⟩

/-! ## Taking one event of a chain -/

theorem steps_of_no_progress {f : State → State × Bool} {s : State} (h : f s = (s, false)) (n : Nat) : State.steps f n s = s := by
  cases n <;> simp [State.steps, h]

section Event

variable {s : State} {c n op : Nat} {k : Cmd} (hw : Working s c n k op)
include hw

theorem millStep_of_go {f : W → W} (hgo : (f (W.mk s c k .go)).halt = .go) :
    s.millStep c n f = ((f (W.mk s c k .go)).millEnd.keep, true) := by
  obtain ⟨hdead, hcmd, -, hfin, -⟩ := hw
  simp [State.millStep, hdead, hcmd, hfin, hgo]

/-- An event that leaves a tile of its command in a bank does not end the work (R117): what it leaves is kept, that bank with it. -/
theorem millStep_of_bank {f : W → W} {b : Nat} {x : Bank} (hgo : (f (W.mk s c k .go)).halt = .go) (hc : (f (W.mk s c k .go)).c = c)
    (hbank : (f (W.mk s c k .go)).s.bank c b = some x) (hnum : x.num = (f (W.mk s c k .go)).k.num) :
    s.millStep c n f = ((f (W.mk s c k .go)).keep, true) ∧ (f (W.mk s c k .go)).keep.bank c b = some x := by
  have hstep := millStep_of_go hw hgo
  have hkept := bank_keep hgo b
  rw [millEnd_of_bank (by rw [hc]; exact hbank) hnum] at hstep
  rw [hc, hbank] at hkept
  exact ⟨hstep, hkept⟩

theorem millTry_of_ready (hmill : op = 0x0201 ∨ op = 0x0202) (ready : State → Cmd → Bool) (f : W → W) (h : ready s k = true) :
    s.millTry c n ready f = s.millStep c n f := by
  obtain ⟨-, hcmd, rfl, -, -⟩ := hw
  simp [State.millTry, hcmd, hmill, h]

end Event

theorem millTry_of_not_ready {s : State} {c n : Nat} {ready : State → Cmd → Bool} (h : ∀ k, s.cmd c n = some k → ready s k = false)
    (f : W → W) : s.millTry c n ready f = (s, false) := by
  unfold State.millTry
  cases hcmd : s.cmd c n with
  | none => rfl
  | some k => simp [h k hcmd]

theorem onBank_of_ready {s : State} {c b n : Nat} {x : Bank} {ready : State → Nat → Nat → Bool} (hbank : s.bank c b = some x)
    (hnum : x.num = n) (h : ready s c b = true) (f : W → Nat → W) : s.onBank c b ready f = (s.millStep c n (fun w => f w b)).1 := by
  simp [State.onBank, hbank, hnum, h]

/-- In a cell of one command, the command is the one that is tried. -/
theorem anyMill_single {s : State} {c : Nat} {k : Cmd} (h : (s.cell c).cmds = [k]) (ready : State → Cmd → Bool) (f : W → W) :
    s.anyMill c ready f = (s.millTry c k.num ready f).1 := by
  simp only [State.anyMill, h, List.map_cons, List.map_nil, State.firstOf]
  split <;> rfl

end Sys2Proof.Proofs
end

section
/-! PROOFS. The chain of a GEMM or GEMM_DW: what each of its events leaves (R55, R126, R130, R212, R247, R249). -/

namespace Sys2Proof.Proofs

open Sys2Proof Sys2Proof.Machine Sys2Proof.Claims

/-- A chain runs its steps, and then its end. -/
theorem chainRun_of_working {s : State} {c n op : Nat} {k : Cmd} (hw : Working s c n k op) :
    s.chainRun c n op = ((State.steps (State.chainStep c n) k.chainFuel s).work c n [op] W.millEnd).endAdds c := by
  obtain ⟨hdead, hcmd, hop, hfin, -⟩ := hw
  simp [State.chainRun, hdead, hcmd, hop, hfin]

theorem chainsRun : ChainsRun := by
  intro c n k s
  exact ⟨fun hw => congrArg Host.Outcome.next (chainRun_of_working hw), fun hw => congrArg Host.Outcome.next (chainRun_of_working hw)⟩

/-- The bank in which the next tile of a command starts: it latches window, trim and function (R55, R56). -/
def startedBank (k : Cmd) : Bank :=
  let t := (k.runs k.geo).getD k.pos (0, 0)
  ⟨k.num, t.1, t.2, k.pos, k.i 30 2, if k.geo.dw then 0 else k.i 32 1, k.u 33 1, [], false, 0⟩

/-- R55, R69: what a tile that starts leaves of its cell; beside it only the count of wraps may change. -/
theorem tileStart_cell (s : State) (c : Nat) (k : Cmd) :
    let b := (s.cell c).nextBank % 2
    let w := (W.mk s c k .go).tileStart
    w.s.cell c = { s.cell c with banks := Tab.set (fun _ => none) (s.cell c).banks b (some (startedBank k)), nextBank := (b + 1) % 2 } ∧
      w.s.stores = s.stores ∧ w.k = { k with pos := k.pos + 1, sub := 0, kread := 0 } ∧ w.c = c ∧ w.halt = .go := by
  refine ⟨?_, ?_, rfl, rfl, rfl⟩
  · simp only [W.tileStart]
    split <;> simp [State.bump, State.setBank, startedBank]
  · simp only [W.tileStart]
    split <;> simp

/-- The tile that accumulates is in a bank that has not closed. -/
theorem closed_of_openBank {s : State} {c n b : Nat} {x : Bank} (h : s.openBank c n = some (b, x)) : x.closed = false := by
  obtain ⟨a, -, ha⟩ := List.exists_of_findSome?_eq_some h
  split at ha
  · split at ha
    · simp_all
    · cases ha
  · cases ha

/-- R55: a bank that closes keeps its tile, and the multiply stage has one unit more. -/
theorem tileClose_of_bank {s : State} {c b : Nat} {x : Bank} (h : s.bank c b = some x) (k : Cmd) :
    (W.mk s c k .go).tileClose b =
      ⟨(s.setBank c b (some { x with closed := true })).setDrain c b true, c, k.onHand .multiply HandSt.make, .go⟩ := by
  simp only [W.tileClose, h]

/-- A tile that is handed on keeps its command's name, and what a stop has noted of its tiles. -/
theorem stageTile_keeps (k : Cmd) (g : Geo) (u rt ct : Nat) :
    (k.stageTile g u rt ct).num = k.num ∧ (k.stageTile g u rt ct).tiles = k.tiles := by
  simp only [Cmd.stageTile]
  split <;> exact ⟨rfl, rfl⟩

/-- R55: a bank that becomes free is empty; the cell's commands stay, and the work goes on with the same command. -/
theorem bankFree_of_bank {s : State} {c b : Nat} {x : Bank} (h : s.bank c b = some x) (k : Cmd) :
    let w := (W.mk s c k .go).bankFree b
    w.s = (s.setBank c b none).setDrain c b false ∧ w.c = c ∧ w.halt = .go ∧ w.k.num = k.num ∧ w.k.tiles = k.tiles := by
  simp only [W.bankFree, h, true_and]
  split
  · exact ⟨rfl, rfl⟩
  · exact stageTile_keeps ..

section Events

variable {s : State} {c : Fin 256} {n op : Nat} {k : Cmd}

/-- R126: one tally passed or one credit returned. -/
theorem stageHandover_moves_one (hw : Working s c n k op) (hmill : op = 0x0201 ∨ op = 0x0202) (h : Handover) (credit : Bool) :
    ∃ t, exec (.stageHandover c n h credit) s = .next t ∧
      t.cmd c n = some (k.onHand h (if credit then HandSt.giveBack else HandSt.pass)) ∧ t.stores = s.stores := by
  have hops : op ∈ [0x0201, 0x0202] := by simpa using hmill
  refine ⟨_, congrArg Host.Outcome.next (work_of_working hw hops), ?_, stores_keep rfl⟩
  obtain ⟨-, hcmd, -, -, rfl⟩ := hw
  exact cmd_keep rfl hcmd

/-- R59: a command that has read its bitmaps does not read them again. -/
theorem latchMaps_done (hw : Working s c n k op) (hmaps : k.maps.isSome = true) :
    s.millTry c n (fun _ y => y.mapsDue) W.latchMaps = (s, false) := by
  obtain ⟨-, hcmd, -⟩ := hw
  refine millTry_of_not_ready (fun y hy => ?_) _
  obtain rfl : k = y := Option.some.inj (hcmd.symm.trans hy)
  simp [Cmd.mapsDue, Option.isNone_eq_false_iff.mpr hmaps]

/-- R55: the next bank is open, empty, for the next tile. -/
theorem tileStart_opens_next_bank (hw : Working s c n k op) (hmill : op = 0x0201 ∨ op = 0x0202) (hmaps : k.maps.isSome = true)
    (hready : s.tileReady c k = true) :
    let b := (s.cell c).nextBank % 2
    ∃ t, exec (.tileStart c n) s = .next t ∧ t.bank c b = some (startedBank k) ∧ (t.cell c).nextBank = (b + 1) % 2 ∧
      t.cmd c n = some { k with pos := k.pos + 1, sub := 0, kread := 0 } ∧ t.stores = s.stores := by
  intro b
  obtain ⟨hcell, hstores, hk, hc, hgo⟩ := tileStart_cell s c k
  have hbank : (W.mk s c k .go).tileStart.s.bank c b = some (startedBank k) := by simp [State.bank, hcell, b]
  have hmapped := latchMaps_done hw hmaps
  have htry := millTry_of_ready hw hmill (fun z y => z.tileReady c y) W.tileStart hready
  obtain ⟨hstep, hkept⟩ := millStep_of_bank hw hgo hc hbank (by simp [startedBank, hk])
  obtain ⟨-, hcmd, -, -, rfl⟩ := hw
  set w := (W.mk s c k .go).tileStart
  have hcmd' : w.s.cmd w.c w.k.num = some k := by rw [State.cmd, hc, hcell, hk]; exact hcmd
  refine ⟨w.keep, ?_, hkept, ?_, ?_, (stores_keep hgo).trans hstores⟩
  · change Host.Outcome.next _ = _
    rw [hmapped, htry, hstep]
  · rw [← hc, nextBank_keep hgo, hc, hcell]
  · simpa only [hc, hk] using cmd_keep hgo hcmd'

/-- R55, R58: where no k-step is left to read, the bank closes. -/
theorem tileKstepsDone_closes (hw : Working s c n k op) (hmill : op = 0x0201 ∨ op = 0x0202) {b : Fin 2} {x : Bank}
    (hbank : s.bank c b = some x) (hnum : x.num = n) (hopen : s.openBank c n = some (b.val, x)) (hsteps : s.stepsReady c k = false)
    (hclose : s.closeReady c k = true) :
    ∃ t, exec (.tileKstepsDone c b) s = .next t ∧ t.bank c b = some { x with closed := true } ∧ t.stores = s.stores := by
  subst hnum
  have ⟨_, hcmd, _, _, hnum⟩ := hw
  have hread : ∀ fuel, State.steps (fun z => z.millTry c x.num (fun y k => y.stepsReady c k) W.millSteps) fuel s = s := by
    refine steps_of_no_progress (millTry_of_not_ready (fun y hy => ?_) _)
    obtain rfl : k = y := Option.some.inj (hcmd.symm.trans hy)
    exact hsteps
  have hclose1 := tileClose_of_bank hbank k
  have htry := millTry_of_ready hw hmill (fun z y => z.closeReady c y) (fun w => w.tileClose b) hclose
  obtain ⟨hstep, hkept⟩ := millStep_of_bank hw (f := fun w => w.tileClose b) (b := b) (x := { x with closed := true }) (by rw [hclose1])
    (by rw [hclose1]) (by simp [hclose1, State.bank, State.setBank]) (by rw [hclose1]; exact hnum.symm)
  refine ⟨_, ?_, hkept, ?_⟩
  · change execTileKstepsDone c b s = _
    simp only [execTileKstepsDone, hbank, closed_of_openBank hopen, Bool.false_eq_true, if_false, hread, htry, hstep]
  · rw [stores_keep (by rw [hclose1]), hclose1]
    simp

/-- R55, R127: a bank whose last row has left becomes free; a command that was not stopped has nothing to code with it. -/
theorem bankFree_frees (hw : Working s c n k op) {b : Fin 2} {x : Bank} (hbank : s.bank c b = some x) (hnum : x.num = n)
    (hready : s.freeReady c b = true) (hcmds : (s.cell c).cmds = [k]) (htiles : k.tiles = none) :
    ∃ t, exec (.bankFree c b) s = .next t ∧ t.bank c b = none ∧ t = ((W.mk s c k .go).bankFree b).millEnd.keep := by
  obtain ⟨hs, hc, hgo, hk, htiles'⟩ := bankFree_of_bank hbank k
  have hfree := onBank_of_ready hbank hnum hready W.bankFree
  rw [millStep_of_go hw hgo] at hfree
  set w := (W.mk s c k .go).bankFree b
  obtain ⟨hce, hhalt, hcmdse, hbanke, hnume, htilese⟩ := millEnd_sameBanksAndTiles w
  have hgoe : w.millEnd.halt = .go := hhalt.trans hgo
  have hcmdsw : (w.millEnd.s.cell w.millEnd.c).cmds = [k] := by rw [hce, hcmdse, hc, hs, cell_setDrain, cmds_setBank, hcmds]
  have hkept : (w.millEnd.keep.cell c).cmds = [w.millEnd.k] := by
    simpa only [hce, hc] using cmds_keep_single hgoe hcmdsw (hnume.trans hk).symm
  have hflush : w.millEnd.keep.millTry c w.millEnd.k.num (fun y t => y.flushReady c t) W.flushHeld = (w.millEnd.keep, false) := by
    refine millTry_of_not_ready (fun y hy => ?_) _
    obtain rfl : w.millEnd.k = y := by simpa [State.cmd, hkept] using hy
    simp [State.flushReady, htilese, htiles', htiles]
  refine ⟨w.millEnd.keep, ?_, ?_, rfl⟩
  · change Host.Outcome.next ((s.onBank c b State.freeReady W.bankFree).anyMill c (fun y t => y.flushReady c t) W.flushHeld) = _
    rw [hfree, anyMill_single hkept, hflush]
  · have hbank' := bank_keep hgoe b
    rw [hce, hbanke, hc, hs] at hbank'
    rw [hbank']
    simp [State.bank, State.setBank]

/-- R247: one output tile through the coder. -/
theorem compressStageTile_takes_one_tile (hw : Working s c n k op) (hmill : op = 0x0201 ∨ op = 0x0202) (hready : k.compressReady = true) :
    exec (.compressStageTile c n) s = .next (s.millStep c n W.compressTile).1 :=
  congrArg (fun r : State × Bool => Host.Outcome.next r.1) (millTry_of_ready hw hmill (fun _ y => y.compressReady) W.compressTile hready)

/-- R249: one place of the resident operand, of the cell's one command. -/
theorem cooperPlaceDecode_resident (hw : Working s c n k op) (hmill : op = 0x0201 ∨ op = 0x0202) (hcmds : (s.cell c).cmds = [k])
    (hready : s.placeAReady c k = true) : exec (.cooperPlaceDecode c 0) s = .next (s.millStep c n W.placeA).1 := by
  have htry := millTry_of_ready hw hmill (fun z y => z.placeAReady c y) W.placeA hready
  obtain ⟨-, -, -, -, rfl⟩ := hw
  change Host.Outcome.next (s.anyMill c (fun z y => z.placeAReady c y) W.placeA) = _
  rw [anyMill_single hcmds, htry]

/-- R249: one place of the streaming operand, of the cell's one command. -/
theorem cooperPlaceDecode_streaming (hw : Working s c n k op) (hmill : op = 0x0201 ∨ op = 0x0202) (hcmds : (s.cell c).cmds = [k])
    (hready : s.placeBReady c k = true) : exec (.cooperPlaceDecode c 1) s = .next (s.millStep c n W.placeB).1 := by
  have htry := millTry_of_ready hw hmill (fun z y => z.placeBReady c y) W.placeB hready
  obtain ⟨-, -, -, -, rfl⟩ := hw
  change Host.Outcome.next (s.anyMill c (fun z y => z.placeBReady c y) W.placeB) = _
  rw [anyMill_single hcmds, htry]

end Events

theorem chainEventsTakeOneStep : ChainEventsTakeOneStep := by
  intro c n k s op hw hmill
  refine ⟨stageHandover_moves_one hw hmill, fun hmaps hready _ => ?_, fun b x hbank hnum => ⟨tileKstepsDone_closes hw hmill hbank hnum, ?_, ?_, ?_⟩,
    compressStageTile_takes_one_tile hw hmill, cooperPlaceDecode_resident hw hmill, cooperPlaceDecode_streaming hw hmill⟩
  · obtain ⟨t, hexec, hbank, hnext, hcmd, hstores⟩ := tileStart_opens_next_bank hw hmill hmaps hready
    obtain ⟨-, -, -, -, rfl⟩ := hw
    exact ⟨t, startedBank k, hexec, hbank, rfl, rfl, rfl, rfl, rfl, hnext, ⟨_, hcmd, rfl⟩, hstores⟩
  · exact fun hready => congrArg Host.Outcome.next (onBank_of_ready hbank hnum hready W.drainRow)
  · exact bankFree_frees hw hbank hnum
  · exact fun hready => congrArg Host.Outcome.next (onBank_of_ready hbank hnum hready W.slotDrain)

/-- Settles O27: a chain as a whole, and each of its single events. -/
theorem chainsTakeTheirSteps : Obligations.ChainsTakeTheirSteps := ⟨chainsRun, chainEventsTakeOneStep⟩

end Sys2Proof.Proofs
end

section
/-! PROOFS. Units that arrive on a command's behalf before it asks for them: the prologue of a chained successor (R136, R137), and the
credits of a die-row multicast (R64, R65). -/

namespace Sys2Proof.Proofs

open Sys2Proof Sys2Proof.Machine Sys2Proof.Claims

/-- The head of a queue that keeps what its prologue fetched (R137). -/
def keepsEarly (e : QEnt) (w : W) : QEnt := { e with early := some { w.k with kdone := false, hand := w.k.settle.hand } }

/-- R136, R137: the prologue of a GEMM's successor y runs once the predecessor k has fetched everything. -/
theorem successorPrologue_of_pastFetch {c : Fin 256} {n : Nat} {k y : Cmd} {e : QEnt} {es : List QEnt} {s : State} {h : Cmd × Bool × State}
    (hdead : s.cellDead c = false) (hcmd : s.cmd c n = some k) (hqueue : s.queue c k.q = e :: es) (hpred : e.pred = some n)
    (hlive : e.cancelled = false) (hpast : k.pastFetch = true) (hmill : isMill k.opcode = true) (hh : s.headCmd c k.q e = h)
    (hy : h.1.resume e.early = y) (hread : h.2.1 = false) (hop : y.opcode = 0x0201 ∨ y.opcode = 0x0202) (hfence : y.fence = false)
    (htally : y.tallyIn = 0) (hfin : y.finished = false) :
    let w := (W.mk h.2.2 c y .go).prologue (y.ring + 3)
    exec (.successorPrologue c n) s = .next (w.s.setQueue c k.q (keepsEarly e w :: es)) := by
  have hdense : (decide (y.opcode = 0x0201) || decide (y.opcode = 0x0202)) = true := by simpa using hop
  have hmilly : isMill y.opcode = true := by rcases hop with hop | hop <;> rw [hop] <;> rfl
  change execSuccessorPrologue c n s = _
  simp only [execSuccessorPrologue, hcmd, hqueue, hh, hy, hdense, if_true]
  rw [if_neg (by simp [hdead, hpred, hlive, hread, hmilly, hmill, hfence, hpast, htally, hfin])]
  rfl

theorem successorsFetchAhead : SuccessorsFetchAhead := by
  intro c n k e es s hdead hcmd hqueue hpred hlive hpast hmill h y hread hop hfence htally hfin w
  exact ⟨_, successorPrologue_of_pastFetch hdead hcmd hqueue hpred hlive hpast hmill rfl rfl hread hop hfence htally hfin,
    State.queue_set_self .., cmds_setQueue ..⟩

/-- R64: the lead finds the multicast command that is its cell's one command. -/
theorem mcastMemberCredit_single {c m : Fin 256} {k : Cmd} {s : State} (hdead : s.cellDead c = false) (hcmds : (s.cell c).cmds = [k])
    (hop : k.opcode = 0x0201 ∨ k.opcode = 0x0202) (hfin : k.finished = false) (hmany : 1 < (k.members c).length)
    (hmem : m.val ∈ k.members c) :
    let have_ := max k.issued (Tab.get (fun _ => 0) k.mcCredit m.val)
    exec (.mcastMemberCredit c m) s = .next (if have_ < s.memberCredit m (k.u 36 2) then
      s.putCmd c { k with mcCredit := Tab.set (fun _ => 0) k.mcCredit m.val (have_ + 1) } else s) := by
  change execMcastMemberCredit c m s = _
  simp only [execMcastMemberCredit, hcmds]
  rw [List.find?_cons_of_pos (by simp [hop, hfin, hmany, hmem])]
  simp only [hdead, Bool.false_or, Bool.not_eq_true', decide_eq_false_iff_not, ite_not]

theorem multicastMembersGiveCredits : MulticastMembersGiveCredits := by
  intro c m k s hdead hcmds hop hfin hmany hmem have_
  have hexec := mcastMemberCredit_single hdead hcmds hop hfin hmany hmem
  refine ⟨fun hmore => ⟨_, hexec.trans (congrArg Host.Outcome.next (if_pos hmore)), rfl, _, cmds_putCmd_single hcmds rfl, ?_, rfl⟩,
    fun hnone => hexec.trans (congrArg Host.Outcome.next (if_neg (Nat.not_lt.mpr hnone)))⟩
  simp [have_]

/-- Settles O53: the prologue of a successor, and the credits of a multicast's members. -/
theorem unitsArriveAheadAndByMulticast : Obligations.UnitsArriveAheadAndByMulticast := ⟨successorsFetchAhead, multicastMembersGiveCredits⟩

end Sys2Proof.Proofs
end

section
/-! PROOFS. The Tinkers' instruction words: the fields of a word of each format, and decoding as the inverse of encoding (R85 to R109). -/

namespace Sys2Proof.Proofs

open Sys2Proof Sys2Proof.Machine Sys2Proof.Claims

/-! ## Fields of words put together from fields

The formats write a word as a chain of `++` of a total width 32, which is no sum of two variables: `no_index` lets these rules match it. -/

@[simp] theorem extractLsb'_append_high {v w s l : Nat} (hi : BitVec v) (lo : BitVec w) (h : w ≤ s) :
    BitVec.extractLsb' s l (no_index (hi ++ lo)) = hi.extractLsb' (s - w) l := by
  rw [BitVec.extractLsb'_append_eq_ite, dif_neg (by omega)]

@[simp] theorem extractLsb'_append_low {v w s l : Nat} (hi : BitVec v) (lo : BitVec w) (h : s + l ≤ w) :
    BitVec.extractLsb' s l (no_index (hi ++ lo)) = lo.extractLsb' s l := by
  refine BitVec.eq_of_getLsbD_eq fun i hi => ?_
  simp only [BitVec.getLsbD_extractLsb', hi, decide_true, Bool.true_and, BitVec.getLsbD_append, if_pos (show s + i < w by omega)]

theorem getLsbD_append_high {v w s : Nat} (hi : BitVec v) (lo : BitVec w) (h : w ≤ s) :
    BitVec.getLsbD (no_index (hi ++ lo)) s = hi.getLsbD (s - w) := by
  rw [BitVec.getLsbD_append, if_neg (by omega)]

theorem getLsbD_append_low {v w s : Nat} (hi : BitVec v) (lo : BitVec w) (h : s < w) :
    BitVec.getLsbD (no_index (hi ++ lo)) s = lo.getLsbD s := by
  rw [BitVec.getLsbD_append, if_pos h]

/-! ## The words of each format -/

/-- The words of an instruction: Tinker k decodes it from them, field checks aside, and the first word tells whether there is a second. -/
def Spells (k : Fin 25600) (i : Instr) (w : BitVec 32) (w1 : Option (BitVec 32)) : Prop :=
  decMajor k w (w1.getD 0) = some i ∧ (isLongForm w = true ↔ w1 ≠ none)

section
variable {k : Fin 25600} {i : Instr} {rd rs1 rs2 rs3 : BitVec 5} {pg : BitVec 3}

theorem spells_encR {f : BitVec 11} (h : decR k rd rs1 rs2 f = some i) : Spells k i (encR rd rs1 rs2 f) none := by
  simpa [Spells, decMajor, encR, isLongForm] using h

theorem spells_encA {kind : BitVec 6} (h : decA k rd rs1 rs2 rs3 kind = some i) : Spells k i (encA rd rs1 rs2 rs3 kind) none := by
  simpa [Spells, decMajor, encA, isLongForm] using h

theorem spells_encS {csr f : BitVec 8} (h : decS k rd rs1 csr f = some i) : Spells k i (encS rd rs1 csr f) none := by
  simpa [Spells, decMajor, encS, isLongForm] using h

theorem spells_encLong {hi : BitVec 16} {m : BitVec 32} (h : decLong k rd rs1 hi m = some i) :
    Spells k i (encLong rd rs1 hi) (some m) := by
  simpa [Spells, decMajor, encLong, isLongForm] using h

theorem spells_vfp {f : BitVec 8} (h : decVfp k rd rs1 rs2 pg f = some i) : Spells k i (encV 32 rd rs1 rs2 pg f) none := by
  simpa [Spells, decMajor, encV, isLongForm] using h

theorem spells_vint {f : BitVec 8} (h : decVint k rd rs1 rs2 pg f = some i) : Spells k i (encV 33 rd rs1 rs2 pg f) none := by
  simpa [Spells, decMajor, encV, isLongForm] using h

theorem spells_vlog {f : BitVec 8} (h : decVlog k rd rs1 rs2 pg f = some i) : Spells k i (encV 34 rd rs1 rs2 pg f) none := by
  simpa [Spells, decMajor, encV, isLongForm] using h

theorem spells_vsf {sel : BitVec 7} {xc : Bool} (h : decVsf k rd rs1 pg sel xc = some i) :
    Spells k i (encV 35 rd rs1 rs2 pg (sel ++ BitVec.ofBool xc)) none := by
  simpa [Spells, decMajor, encV, isLongForm, getLsbD_append_low, -BitVec.getLsbD_eq_getElem] using h

theorem spells_vcvt {f : BitVec 8} (h : decVcvt k rd rs1 pg f = some i) : Spells k i (encV 36 rd rs1 rs2 pg f) none := by
  simpa [Spells, decMajor, encV, isLongForm] using h

theorem spells_vcmp {f : BitVec 8} (h : decVcmp k rd rs1 rs2 pg f = some i) : Spells k i (encV 37 rd rs1 rs2 pg f) none := by
  simpa [Spells, decMajor, encV, isLongForm] using h

theorem spells_vmov {f : BitVec 8} (h : decVmov k rd rs1 rs2 pg f = some i) : Spells k i (encV 38 rd rs1 rs2 pg f) none := by
  simpa [Spells, decMajor, encV, isLongForm] using h

theorem spells_vred {f : BitVec 8} (h : decVred k rd rs1 pg f = some i) : Spells k i (encV 39 rd rs1 rs2 pg f) none := by
  simpa [Spells, decMajor, encV, isLongForm] using h

end

/-! ## Decoding inverts encoding -/

/-- The words that the encoder gives an instruction spell it: format by format. -/
theorem spells_encodeTinker (i : Instr) {w : BitVec 32} {w1 : Option (BitVec 32)} :
    encodeTinker i = some (w, w1) → ∃ k, Spells k i w w1 := by
  cases i with
  | add k | sub k | and k | or k | xor k | sll k | srl k | sra k | slt k | sltu k | mul k | mulh k | mulhu k | min k | max k =>
    rintro ⟨⟩
    exact ⟨k, spells_encR rfl⟩
  | addi k | andi k | ori k | xori k | slti k | sltiu k | shi k | jalr k | lui k | beq k | bne k | blt k | bge k | bltu k | bgeu k =>
    rintro ⟨⟩
    exact ⟨k, by simp [Spells, decMajor, encI, isLongForm]⟩
  | bp k =>
    rintro ⟨⟩
    exact ⟨k, by simp [Spells, decMajor, encBP, isLongForm]⟩
  | jal k =>
    rintro ⟨⟩
    exact ⟨k, by simp [Spells, decMajor, encJ, isLongForm]⟩
  | load k | store k | loadg k | storeg k =>
    rintro ⟨⟩
    exact ⟨k, by simp [Spells, decMajor, encM, isLongForm, getLsbD_append_low, getLsbD_append_high, -BitVec.getLsbD_eq_getElem]⟩
  | fai k | faa k | cas k | hmerge k | hpred k =>
    rintro ⟨⟩
    exact ⟨k, spells_encA rfl⟩
  | vld k | vst k =>
    rintro ⟨⟩
    exact ⟨k, by simp [Spells, decMajor, encVM, isLongForm, getLsbD_append_low, getLsbD_append_high, -BitVec.getLsbD_eq_getElem]⟩
  | vfadd k | vfsub k | vfmul k | vfma k | vfmin k | vfmax k | vfabs k | vfneg k =>
    rintro ⟨⟩
    exact ⟨k, spells_vfp rfl⟩
  | vadd k | vsub k | vmul k | vand k | vor k | vxor k | vsll k | vsrl k | vsra k | vmin k | vmax k =>
    rintro ⟨⟩
    exact ⟨k, spells_vint rfl⟩
  | lmul k | ldiv k | ladd k | lsub k | lhalf k | lnegx k =>
    rintro ⟨⟩
    exact ⟨k, spells_vlog rfl⟩
  | exp2X k | log2X k | exp2F k | log2F k =>
    rintro ⟨⟩
    exact ⟨k, spells_vsf rfl⟩
  | f2x k | x2f k | f2i k | i2f k | q2f k | f2q k =>
    rintro ⟨⟩
    exact ⟨k, spells_vcvt rfl⟩
  | feq k | flt k | fle k | ieq k | ilt k | iltu k | leq k | llt k | lle k | pand k | por k | pxor k | pnot k =>
    rintro ⟨⟩
    exact ⟨k, spells_vcmp rfl⟩
  | vmv k | vbcast k | ptog k | gtop k =>
    rintro ⟨⟩
    exact ⟨k, spells_vmov rfl⟩
  | vext k =>
    rintro ⟨⟩
    exact ⟨k, spells_vmov (by simp [decVmov])⟩
  | vfrsum k | vfrmax k | virsum k | vlrmax k =>
    rintro ⟨⟩
    exact ⟨k, spells_vred rfl⟩
  | csrr k | csrw k | csrc k | fenceT k | iflush k | halt k | trap k | rett k =>
    rintro ⟨⟩
    exact ⟨k, spells_encS rfl⟩
  | qdone k | waitq k =>
    rintro ⟨⟩
    exact ⟨k, spells_encS (by simp [decS])⟩
  | issue k =>
    rintro ⟨⟩
    exact ⟨k, by simp [Spells, decMajor, encQ, isLongForm, getLsbD_append_low, getLsbD_append_high, -BitVec.getLsbD_eq_getElem]⟩
  | li k | lip k | ja k =>
    rintro ⟨⟩
    exact ⟨k, spells_encLong rfl⟩
  | issueL k =>
    rintro ⟨⟩
    exact ⟨k, spells_encLong (by simp [decLong, getLsbD_append_low, getLsbD_append_high, -BitVec.getLsbD_eq_getElem])⟩
  | _ => exact nofun

/-- Settles O15: the words of a well-formed instruction spell it, and the field checks pass it. -/
theorem decodingInvertsEncoding : Obligations.DecodingInvertsEncoding := by
  unfold Obligations.DecodingInvertsEncoding
  intro i w w1 hwf henc
  obtain ⟨k, hdec, hlong⟩ := spells_encodeTinker i henc
  exact ⟨k, by simp only [decodeTinker, hdec, Option.filter_some, hwf, if_true], hlong⟩

/-- Settles O16: each word decoded field by field. -/
theorem wordsFromTheFormatsDecode : Obligations.WordsFromTheFormatsDecode := fun _ => ⟨rfl, rfl, rfl, rfl, rfl⟩

end Sys2Proof.Proofs
end

section
/-! PROOFS. The arithmetic of words that the claims state in whole numbers, and what the shared operations of the Tinkers leave: a
register written, a jump, a branch, a trap (R76, R84, R87 to R89). -/

namespace Sys2Proof.Proofs

open Sys2Proof Sys2Proof.Machine Sys2Proof.Claims

/-! ## Words -/

section
variable (a b : Word)

theorem word_add : a + b = BitVec.ofNat 32 (a.toNat + b.toNat) := BitVec.add_def a b

theorem word_sub : a - b = BitVec.ofInt 32 (a.toInt - b.toInt) := by
  rw [Int.sub_eq_add_neg, BitVec.ofInt_add, BitVec.ofInt_neg, BitVec.ofInt_toInt, BitVec.ofInt_toInt, BitVec.sub_eq_add_neg]

theorem word_and : a &&& b = BitVec.ofNat 32 (a.toNat &&& b.toNat) := by
  rw [← BitVec.toNat_and, BitVec.ofNat_toNat, BitVec.setWidth_eq]

theorem word_or : a ||| b = BitVec.ofNat 32 (a.toNat ||| b.toNat) := by
  rw [← BitVec.toNat_or, BitVec.ofNat_toNat, BitVec.setWidth_eq]

theorem word_xor : a ^^^ b = BitVec.ofNat 32 (a.toNat ^^^ b.toNat) := by
  rw [← BitVec.toNat_xor, BitVec.ofNat_toNat, BitVec.setWidth_eq]

theorem word_mul : a * b = BitVec.ofNat 32 (a.toNat * b.toNat) := BitVec.mul_def

theorem word_shiftLeft (n : Nat) : a <<< n = BitVec.ofNat 32 (a.toNat * 2 ^ n) :=
  BitVec.eq_of_toNat_eq (by rw [BitVec.toNat_shiftLeft, Nat.shiftLeft_eq, BitVec.toNat_ofNat])

theorem word_shiftRight (n : Nat) : a >>> n = BitVec.ofNat 32 (a.toNat / 2 ^ n) := by
  rw [← Nat.shiftRight_eq_div_pow, ← BitVec.toNat_ushiftRight, BitVec.ofNat_toNat, BitVec.setWidth_eq]

theorem word_sshiftRight (n : Nat) : a.sshiftRight n = BitVec.ofInt 32 (a.toInt / 2 ^ n) := by
  have h := BitVec.toInt_sshiftRight (x := a) (n := n)
  rw [Int.shiftRight_eq_div_pow, Nat.cast_pow, Nat.cast_ofNat] at h
  rw [← h, BitVec.ofInt_toInt]

theorem word_low_five : (b &&& 31#32).toNat = b.toNat % 32 := by
  rw [BitVec.toNat_and, show (31#32 : Word).toNat = 2 ^ 5 - 1 from rfl, Nat.and_two_pow_sub_one_eq_mod]

theorem word_sll : a <<< (b &&& 31#32).toNat = BitVec.ofNat 32 (a.toNat * 2 ^ (b.toNat % 32)) := by rw [word_low_five, word_shiftLeft]

theorem word_srl : a >>> (b &&& 31#32).toNat = BitVec.ofNat 32 (a.toNat / 2 ^ (b.toNat % 32)) := by rw [word_low_five, word_shiftRight]

theorem word_sra : a.sshiftRight (b &&& 31#32).toNat = BitVec.ofInt 32 (a.toInt / 2 ^ (b.toNat % 32)) := by
  rw [word_low_five, word_sshiftRight]

theorem word_min : (if BitVec.slt a b then a else b) = if a.toInt ≤ b.toInt then a else b := by
  rw [BitVec.slt_eq_decide]
  rcases Int.lt_trichotomy a.toInt b.toInt with h | h | h
  · simp [h, Int.le_of_lt h]
  · simp [BitVec.toInt_inj.mp h]
  · simp [Int.not_lt.mpr (Int.le_of_lt h), Int.not_le.mpr h]

theorem word_max : (if BitVec.slt a b then b else a) = if a.toInt ≤ b.toInt then b else a := by
  rw [BitVec.slt_eq_decide]
  rcases Int.lt_trichotomy a.toInt b.toInt with h | h | h
  · simp [h, Int.le_of_lt h]
  · simp [BitVec.toInt_inj.mp h]
  · simp [Int.not_lt.mpr (Int.le_of_lt h), Int.not_le.mpr h]

theorem word_slt : (if BitVec.slt a b then (1 : Word) else 0) = if a.toInt < b.toInt then 1 else 0 := by simp [BitVec.slt_eq_decide]

theorem word_ult : (if BitVec.ult a b then (1 : Word) else 0) = if a.toNat < b.toNat then 1 else 0 := by simp [BitVec.ult_eq_decide]

theorem word_sge : (!BitVec.slt a b) = decide (b.toInt ≤ a.toInt) := by rw [BitVec.slt_eq_decide, ← decide_not, decide_eq_decide, Int.not_lt]

theorem word_uge : (!BitVec.ult a b) = decide (b.toNat ≤ a.toNat) := by rw [BitVec.ult_eq_decide, ← decide_not, decide_eq_decide, Nat.not_lt]

/-- Adding a sign-extended offset. -/
theorem word_add_signExtend {w : Nat} (m : BitVec w) : a + m.signExtend 32 = BitVec.ofInt 32 (a.toInt + m.toInt) := by
  rw [BitVec.ofInt_add, BitVec.ofInt_toInt]; rfl

end

/-- Bits [1:0] cleared. -/
theorem word_align : ~~~3#32 = 0xFFFFFFFC#32 := rfl

/-- The target of a jump by a signed offset in words. -/
theorem pcPlus_eq {w : Nat} (pc : Word) (off : BitVec w) : pcPlus pc off.toInt = (pc + (off.signExtend 32 <<< 2)) &&& ~~~3#32 := by
  have h4 : off.signExtend 32 <<< 2 = BitVec.ofInt 32 (4 * off.toInt) := by
    rw [BitVec.shiftLeft_eq_mul_twoPow, BitVec.ofInt_mul, BitVec.mul_comm]; rfl
  rw [pcPlus, BitVec.ofInt_add, BitVec.ofInt_toInt, h4, word_align]

/-! ## One Tinker's step -/

theorem onlyTinker_setTinker (s : State) (k : Nat) (x : Tinker) : OnlyTinker k s (s.setTinker k x) :=
  ⟨rfl, fun _ h => State.tinker_set_other s x h⟩

/-- A Tinker instruction that its Tinker can run, of a defined encoding, has its effect. -/
theorem exec_of_tkExec {i : Instr} {k : Nat} {s : State} {f : State → State} (hexec : exec i s = .next (s.tkExec k i f))
    (hrun : s.canRun k = true) (hwf : wellFormed i = true) : exec i s = .next (f s) := by
  rw [hexec, State.tk_exec_runs hrun hwf]

/-- A general register written: its value, g0 and the others. -/
theorem gr_setG_self (a : Tinker) (rd : BitVec 5) (v : Word) : (a.setG rd.toNat v).gr rd.toNat = if rd = 0 then 0 else v := by
  rw [Tinker.gr_set_g, if_pos rfl]
  simp [BitVec.toNat_eq]

theorem gr_setG_other (a : Tinker) {r q : Nat} (v : Word) (h : q ≠ r) : (a.setG r v).gr q = a.gr q := by
  rw [Tinker.gr_set_g, if_neg h]

theorem writesG_advance (a : Tinker) (rd : BitVec 5) (v : Word) (n : Nat) :
    WritesG rd v (BitVec.ofNat 32 n) a ((a.setG rd.toNat v).advance n) := by
  refine ⟨?_, gr_setG_self a rd v, fun r h => gr_setG_other a v h⟩
  rw [Tinker.advance_frame, Tinker.set_g_frame]

theorem writesG_jump (a : Tinker) (rd : BitVec 5) (v target : Word) :
    WritesG rd v ((target &&& ~~~3#32) - a.pc) a ((a.setG rd.toNat v).jump target) := by
  refine ⟨?_, gr_setG_self a rd v, fun r h => gr_setG_other a v h⟩
  rw [Tinker.jump_frame, Tinker.set_g_frame, BitVec.add_comm, BitVec.sub_add_cancel]

theorem movesPc_advance (a : Tinker) (n : Nat) : MovesPc (a.pc + BitVec.ofNat 32 n) a (a.advance n) := Tinker.advance_frame a n

theorem movesPc_jump (a : Tinker) (target : Word) : MovesPc (target &&& ~~~3#32) a (a.jump target) := Tinker.jump_frame a target

/-- An instruction that leaves its Tinker changed and nothing else. -/
theorem exists_onlyTinker {i : Instr} {k : Nat} {s : State} {x : Tinker} {P : Tinker → Prop} (hexec : exec i s = .next (s.setTinker k x))
    (hx : P x) : ∃ t, exec i s = .next t ∧ OnlyTinker k s t ∧ P (t.tinker k) :=
  ⟨_, hexec, onlyTinker_setTinker s k x, by rwa [State.tinker_set_self]⟩

/-- A scalar instruction that writes one register. -/
theorem runsG_of_scalarOp {i : Instr} {k : Nat} {rd : BitVec 5} {f : Tinker → Word} {v : Word} {s : State} (hrun : s.canRun k = true)
    (hv : f (s.tinker k) = v) (hexec : exec i s = .next (s.tkExec k i (fun z => z.scalarOp k rd f)) := by rfl)
    (hwf : wellFormed i = true := by rfl) : RunsG i k s rd v 4 :=
  exists_onlyTinker (exec_of_tkExec hexec hrun hwf) (hv ▸ writesG_advance ..)

/-- A predicate instruction. -/
theorem runsP_setP {i : Instr} {k : Nat} {pd : BitVec 5} {v : BitVec 8} {s : State}
    (hexec : exec i s = .next (s.setTinker k (((s.tinker k).setP (pd.toNat % 8) v).advance 4))) : RunsP i k s pd v := by
  refine ⟨_, hexec, onlyTinker_setTinker .., ?_, ?_, fun r hr => ?_⟩ <;> rw [State.tinker_set_self]
  · rw [Tinker.advance_frame, Tinker.set_p_frame]; rfl
  · rw [Tinker.pr_advance, Tinker.pr_set_p, if_pos rfl]
  · rw [Tinker.pr_advance, Tinker.pr_set_p, if_neg hr]

theorem runsP_of_predOp {i : Instr} {k : Nat} {pd : BitVec 5} {f : Tinker → BitVec 8} {v : BitVec 8} {s : State}
    (hrun : s.canRun k = true) (hwf : wellFormed i = true) (hexec : exec i s = .next (s.tkExec k i (fun z => z.predOp k pd f)) := by rfl)
    (hv : f (s.tinker k) = v := by rfl) : RunsP i k s pd v :=
  hv ▸ runsP_setP (exec_of_tkExec hexec hrun hwf)

/-! ## RUN and TRAP bits (R83, R84) -/

/-- The fields that hold the RUN and the TRAP bit of a Tinker, and their number there. -/
def runField (k : Nat) : Field := if k % 100 < 64 then Fd.cellTkRun0 else Fd.cellTkRun1
def trapField (k : Nat) : Field := if k % 100 < 64 then Fd.cellTkTrap0 else Fd.cellTkTrap1
def runBit (k : Nat) : Nat := if k % 100 < 64 then k % 100 else k % 100 - 64

theorem running_eq (s : State) (k : Nat) : s.running k = s.bitOf (runField k) (k / 100) 0 (runBit k) := by
  unfold State.running runField runBit tkNum tkCell
  split <;> rfl

theorem setRun_eq (s : State) (k : Nat) (v : Bool) : s.setRun k v = s.setBit (runField k) (k / 100) 0 (runBit k) v := by
  unfold State.setRun runField runBit tkNum tkCell
  split <;> rfl

theorem setTrapBit_eq (s : State) (k : Nat) : s.setTrapBit k = s.setBit (trapField k) (k / 100) 0 (runBit k) true := by
  unfold State.setTrapBit trapField runBit tkNum tkCell
  split <;> rfl

theorem runBit_lt (k : Nat) : runBit k < (runField k).w ∧ (runField k).lo + (runField k).w ≤ 64 := by
  unfold runBit runField
  split
  · exact ⟨by assumption, by decide⟩
  · exact ⟨show _ < 36 by omega, by decide⟩

theorem trapBit_lt (k : Nat) : runBit k < (trapField k).w ∧ (trapField k).lo + (trapField k).w ≤ 64 := by
  unfold runBit trapField
  split
  · exact ⟨by assumption, by decide⟩
  · exact ⟨show _ < 36 by omega, by decide⟩

/-- The offset of the register with the RUN bit of a Tinker. -/
theorem runField_reg (k : Nat) : (runField k).reg (k / 100) 0 = 0x1000000 + k / 100 * 0x10000 + if k % 100 < 64 then 0x808 else 0x810 := by
  unfold runField
  split <;> rfl

theorem trapField_reg (k : Nat) : (trapField k).reg (k / 100) 0 = 0x1000000 + k / 100 * 0x10000 + if k % 100 < 64 then 0x818 else 0x820 := by
  unfold trapField
  split <;> rfl

/-- A bit set or cleared reads as it was written, and the others of its field stay. -/
theorem bitOf_setBit (s : State) {f : Field} {n : Nat} (hf : n < f.w ∧ f.lo + f.w ≤ 64) (b i m : Nat) (v : Bool) :
    (s.setBit f b i n v).bitOf f b i m = if m = n then v else s.bitOf f b i m := by
  obtain ⟨hn, h64⟩ := hf
  have hw : 0 < f.w := by omega
  have hfit : putBits (s.fld f b i) n 1 (if v then 1 else 0) < 2 ^ f.w := by
    refine Nat.lt_pow_two_of_testBit _ fun j hj => ?_
    rw [testBit_putBits Nat.one_pos, if_neg (by omega)]
    exact Nat.testBit_lt_two_pow ((fld_lt s f hw b i).trans_le (Nat.pow_le_pow_right (by omega) hj))
  rw [State.bitOf, State.setBit, fld_setFld_self s hw h64 b i hfit, testBit_putBits Nat.one_pos]
  by_cases hm : m = n
  · rw [if_pos (by omega), if_pos hm, hm, Nat.sub_self]
    cases v <;> rfl
  · rw [if_neg (by omega), if_neg hm, State.bitOf]

theorem bitOf_setBit_other (s : State) {f g : Field} {b i c j : Nat} (h : g.reg c j ≠ f.reg b i) (n m : Nat) (v : Bool) :
    (s.setBit f b i n v).bitOf g c j m = s.bitOf g c j m := by
  have hfld : (s.setBit f b i n v).fld g c j = s.fld g c j := fld_congr (State.reg_set_other _ _ h)
  rw [State.bitOf, State.bitOf, hfld]

/-- Setting the RUN bit of a Tinker sets no other. -/
theorem running_setRun (s : State) (k j : Nat) (v : Bool) : (s.setRun k v).running j = if j = k then v else s.running j := by
  rw [running_eq, running_eq, setRun_eq]
  by_cases hreg : (runField j).reg (j / 100) 0 = (runField k).reg (k / 100) 0
  · rw [runField_reg, runField_reg] at hreg
    have hhalf : j % 100 < 64 ↔ k % 100 < 64 := by split at hreg <;> split at hreg <;> omega
    have hcell : j / 100 = k / 100 := by split at hreg <;> split at hreg <;> omega
    have hbit : runBit j = runBit k ↔ j = k := by unfold runBit; simp only [hhalf]; split <;> omega
    rw [show runField j = runField k by simp only [runField, hhalf], hcell, bitOf_setBit s (runBit_lt k)]
    simp only [hbit]
  · rw [bitOf_setBit_other s hreg, if_neg (fun h => hreg (by rw [h]))]

theorem running_setTrapBit (s : State) (k j : Nat) : (s.setTrapBit k).running j = s.running j := by
  rw [running_eq, running_eq, setTrapBit_eq, bitOf_setBit_other]
  rw [runField_reg, trapField_reg]
  split <;> split <;> omega

/-! ## Traps -/

/-- The two ways to write what R84 makes of cstat. -/
theorem trap_cstat (c x : Word) :
    (c &&& 0x00FEFFFF#32) ||| x ||| 0x00010000#32 = (c &&& 0x00FFFFFF#32) ||| 0x00010000#32 ||| x := by
  rw [show 0x00FFFFFF#32 = 0x00FEFFFF#32 ||| 0x00010000#32 from rfl]
  generalize 0x00FEFFFF#32 = m, 0x00010000#32 = b
  refine BitVec.eq_of_getLsbD_eq fun i _ => ?_
  simp only [BitVec.getLsbD_or, BitVec.getLsbD_and]
  cases c.getLsbD i <;> cases m.getLsbD i <;> cases b.getLsbD i <;> simp

/-- R84: a trap saves its state and enters the handler, or halts its Tinker. -/
theorem trapped_trap (s : State) (k cause : Nat) (tval : Word) : Trapped k cause tval s (s.trap k cause tval) := by
  unfold State.trap
  by_cases hhandler : (s.tinker k).tvec ≠ 0 ∧ (s.tinker k).cstat.getLsbD 16 = false
  · have hcond : (s.tinker k).tvec ≠ 0 ∧ (!(s.tinker k).inTrap) = true := by simpa [Tinker.inTrap] using hhandler
    simp only [if_pos hcond, Trapped, if_pos hhandler, State.tinker_set_self]
    exact ⟨trivial, trap_cstat .., fun j hj => State.tinker_set_other s _ hj, rfl, rfl⟩
  · have hcond : ¬((s.tinker k).tvec ≠ 0 ∧ (!(s.tinker k).inTrap) = true) := by simpa [Tinker.inTrap] using hhandler
    simp only [if_neg hcond, Trapped, if_neg hhandler]
    generalize hx : ({ s.tinker k with cstat := _, tval := _, epc := _, wait := _, fetched := _ } : Tinker) = x
    have htinker : ∀ j, (((s.setTinker k x).setRun k false).setTrapBit k).tinker j = (s.setTinker k x).tinker j := fun j => by
      rw [setTrapBit_eq, setRun_eq]; rfl
    refine ⟨?_, ?_, fun j hj => ?_, ?_, ?_, ?_, ?_⟩
    · rw [htinker, State.tinker_set_self, ← hx]
    · rw [htinker, State.tinker_set_self, ← hx]; exact trap_cstat ..
    · rw [htinker, State.tinker_set_other s _ hj]
    · rw [htinker, State.tinker_set_self, ← hx]
    · rw [running_setTrapBit, running_setRun, if_pos rfl]
    · rw [setTrapBit_eq, setRun_eq]; rfl
    · have hbit := bitOf_setBit ((s.setTinker k x).setRun k false) (trapBit_lt k) (k / 100) 0 (runBit k) true
      rw [if_pos rfl, ← setTrapBit_eq] at hbit
      unfold trapField runBit at hbit
      split <;> simp_all

/-- An instruction of an encoding that R86 leaves undefined traps (R84, R86). -/
theorem trapped_of_undefined {i : Instr} {k : Nat} {s : State} {f : State → State} (hrun : s.canRun k = true)
    (hwf : wellFormed i = false) (hexec : exec i s = .next (s.tkExec k i f) := by rfl) :
    ∃ t, exec i s = .next t ∧ Trapped k 1 (firstWord i) s t :=
  ⟨_, hexec.trans (congrArg _ (State.tk_exec_traps hrun hwf)), trapped_trap ..⟩

end Sys2Proof.Proofs
end

section
/-! PROOFS. The Tinkers' scalar instructions: arithmetic, branches, jumps, long forms (R87 to R89), traps and RETT (R84, R86), and the
moves between register files (R99, R100). -/

namespace Sys2Proof.Proofs

open Sys2Proof Sys2Proof.Machine Sys2Proof.Claims

/-! ## Arithmetic (R88) -/

/-- A three-register instruction with what it computes: what the claim says of it. -/
def RunsAlu (p : (Fin 25600 → BitVec 5 → BitVec 5 → BitVec 5 → Instr) × (Word → Word → Word)) : Prop :=
  ∀ (k : Fin 25600) (rd rs1 rs2 : BitVec 5) (s : State), s.canRun k = true →
    RunsG (p.1 k rd rs1 rs2) k s rd (p.2 ((s.tinker k).gr rs1.toNat) ((s.tinker k).gr rs2.toNat)) 4

/-- The model's operation gives the stated value. -/
theorem runsAlu {mk : Fin 25600 → BitVec 5 → BitVec 5 → BitVec 5 → Instr} {op stated : Word → Word → Word}
    (hval : ∀ a b, op a b = stated a b)
    (hexec : ∀ k rd rs1 rs2 s, exec (mk k rd rs1 rs2) s = .next (s.tkExec k (mk k rd rs1 rs2)
      (fun z => z.scalarOp k rd (fun t => op (t.gr rs1.toNat) (t.gr rs2.toNat)))) := by intros; rfl)
    (hwf : ∀ k rd rs1 rs2, wellFormed (mk k rd rs1 rs2) = true := by intros; rfl) : RunsAlu (mk, stated) :=
  fun k rd rs1 rs2 s hrun => runsG_of_scalarOp hrun (hval _ _) (hexec k rd rs1 rs2 s) (hwf k rd rs1 rs2)

theorem registerArithmeticWritesItsResult : RegisterArithmeticWritesItsResult := by
  suffices h : ∀ p ∈ aluOps, RunsAlu p from h
  simp only [aluOps, List.forall_mem_cons]
  exact ⟨runsAlu word_add, runsAlu word_sub, runsAlu word_and, runsAlu word_or, runsAlu word_xor,
    runsAlu word_sll, runsAlu word_srl, runsAlu word_sra, runsAlu word_slt, runsAlu word_ult, runsAlu word_mul,
    runsAlu fun _ _ => rfl, runsAlu fun _ _ => rfl, runsAlu word_min, runsAlu word_max, fun _ h => absurd h List.not_mem_nil⟩

/-- An immediate instruction with what it computes: what the claim says of it. -/
def RunsImm (p : (Fin 25600 → BitVec 5 → BitVec 5 → BitVec 16 → Instr) × (BitVec 16 → Word → Word)) : Prop :=
  ∀ (k : Fin 25600) (rd rs1 : BitVec 5) (m : BitVec 16) (s : State), s.canRun k = true →
    RunsG (p.1 k rd rs1 m) k s rd (p.2 m ((s.tinker k).gr rs1.toNat)) 4

theorem runsImm {mk : Fin 25600 → BitVec 5 → BitVec 5 → BitVec 16 → Instr} {op stated : BitVec 16 → Word → Word}
    (hval : ∀ m a, op m a = stated m a)
    (hexec : ∀ k rd rs1 m s, exec (mk k rd rs1 m) s = .next (s.tkExec k (mk k rd rs1 m)
      (fun z => z.scalarOp k rd (fun t => op m (t.gr rs1.toNat)))) := by intros; rfl)
    (hwf : ∀ k rd rs1 m, wellFormed (mk k rd rs1 m) = true := by intros; rfl) : RunsImm (mk, stated) :=
  fun k rd rs1 m s hrun => runsG_of_scalarOp hrun (hval _ _) (hexec k rd rs1 m s) (hwf k rd rs1 m)

theorem toNat_zeroExtend (m : BitVec 16) : (m.setWidth 32).toNat = m.toNat := BitVec.toNat_setWidth_of_le (by decide)

theorem toInt_signExtend (m : BitVec 16) : (m.signExtend 32).toInt = m.toInt := BitVec.toInt_signExtend_of_le (by decide)

section
variable (m : BitVec 16) (a : Word)

theorem imm_and : a &&& m.setWidth 32 = BitVec.ofNat 32 (a.toNat &&& m.toNat) := by rw [word_and, toNat_zeroExtend]

theorem imm_or : a ||| m.setWidth 32 = BitVec.ofNat 32 (a.toNat ||| m.toNat) := by rw [word_or, toNat_zeroExtend]

theorem imm_xor : a ^^^ m.setWidth 32 = BitVec.ofNat 32 (a.toNat ^^^ m.toNat) := by rw [word_xor, toNat_zeroExtend]

theorem imm_slt : (if BitVec.slt a (m.signExtend 32) then (1 : Word) else 0) = if a.toInt < m.toInt then 1 else 0 := by
  rw [word_slt, toInt_signExtend]

end

theorem immediateOps : ∀ p ∈ immOps, RunsImm p := by
  simp only [immOps, List.forall_mem_cons]
  exact ⟨runsImm fun m a => word_add_signExtend a m, runsImm imm_and, runsImm imm_or, runsImm imm_xor, runsImm imm_slt,
    runsImm fun m a => word_ult a (m.signExtend 32), fun _ h => absurd h List.not_mem_nil⟩

/-- The parts of the immediate of SHI: the kind and the count. -/
theorem shi_fields (hi : BitVec 9) (kind : BitVec 2) (n : BitVec 5) :
    (hi ++ kind ++ n : BitVec 16).toNat % 32 = n.toNat ∧ (hi ++ kind ++ n : BitVec 16).toNat / 32 % 4 = kind.toNat := by
  have hval : (hi ++ kind ++ n : BitVec 16).toNat = (hi.toNat * 4 + kind.toNat) * 32 + n.toNat := by
    rw [BitVec.toNat_append, BitVec.toNat_append, ← Nat.shiftLeft_add_eq_or_of_lt n.isLt, ← Nat.shiftLeft_add_eq_or_of_lt kind.isLt,
      Nat.shiftLeft_eq, Nat.shiftLeft_eq]
  omega

theorem runsG_shi {k : Fin 25600} {rd rs1 n : BitVec 5} {hi : BitVec 9} {kind : BitVec 2} {s : State} (hrun : s.canRun k = true)
    (hkind : kind ≠ 3) {v : Word} (hv : shiftImm (hi ++ kind ++ n) ((s.tinker k).gr rs1.toNat) = v) :
    RunsG (.shi k rd rs1 (hi ++ kind ++ n)) k s rd v 4 :=
  runsG_of_scalarOp hrun hv rfl (by simpa [wellFormed] using hkind)

theorem immediateArithmeticWritesItsResult : ImmediateArithmeticWritesItsResult := by
  refine ⟨immediateOps, fun k rd rs1 hi n s hrun => ⟨runsG_shi hrun (by decide) ?_, runsG_shi hrun (by decide) ?_, runsG_shi hrun (by decide) ?_⟩,
    fun k rd m s hrun => runsG_of_scalarOp hrun ?_⟩
  · obtain ⟨hn, hk⟩ := shi_fields hi 0#2 n
    simp only [shiftImm, hn, hk, word_shiftLeft]; rfl
  · obtain ⟨hn, hk⟩ := shi_fields hi 1#2 n
    simp only [shiftImm, hn, hk, word_shiftRight]; rfl
  · obtain ⟨hn, hk⟩ := shi_fields hi 2#2 n
    simp only [shiftImm, hn, hk, word_sshiftRight]; rfl
  · refine BitVec.eq_of_toNat_eq ?_
    rw [BitVec.toNat_append, BitVec.toNat_ofNat]
    simp [Nat.shiftLeft_eq]
    omega

/-- Settles O3: each operation on words is the stated one on numbers. -/
theorem scalarOperationsWriteTheirResults : Obligations.ScalarOperationsWriteTheirResults :=
  ⟨registerArithmeticWritesItsResult, immediateArithmeticWritesItsResult⟩

/-! ## Long forms (R87) -/

/-- R87: the pair that LIP writes. -/
theorem lip_writes {k : Fin 25600} {rd : BitVec 5} {hi : BitVec 16} {imm : BitVec 32} {s : State} (hrun : s.canRun k = true) :
    ∃ t, exec (.lip k rd hi imm) s = .next t ∧ OnlyTinker k s t ∧
      t.tinker k = { s.tinker k with g := (t.tinker k).g, pc := (s.tinker k).pc + 8, fetched := (t.tinker k).fetched } ∧
      (t.tinker k).gr (rd.toNat / 2 * 2) = (if rd.toNat / 2 = 0 then 0 else imm) ∧
      (t.tinker k).gr (rd.toNat / 2 * 2 + 1) = BitVec.ofNat 32 hi.toNat ∧
      ∀ r, r / 2 ≠ rd.toNat / 2 → (t.tinker k).gr r = (s.tinker k).gr r := by
  have hexec := exec_of_tkExec (i := .lip k rd hi imm) (s := s) rfl hrun rfl
  refine ⟨_, hexec, onlyTinker_setTinker .., ?_, ?_, ?_, fun r hr => ?_⟩ <;> simp only [State.longOp, State.tinker_set_self, Tinker.gr_advance]
  · rw [Tinker.advance_frame, Tinker.set_g_frame, Tinker.set_g_frame (s.tinker k)]; rfl
  · rw [gr_setG_other _ _ (by omega), Tinker.gr_set_g, if_pos rfl]
    simp
  · rw [Tinker.gr_set_g, if_pos rfl, if_neg (by omega), BitVec.ofNat_toNat]
  · rw [gr_setG_other _ _ (by omega), gr_setG_other _ _ (by omega)]

/-- Settles O4: LI writes one register, LIP a pair. -/
theorem longFormsLoadTheirRegisters : Obligations.LongFormsLoadTheirRegisters :=
  ⟨fun k rd m _ hrun => exists_onlyTinker
    (exec_of_tkExec (f := fun z => z.longOp k (fun t => t.setG rd.toNat m)) rfl hrun rfl) (writesG_advance ..), fun _ _ _ _ _ hrun => lip_writes hrun⟩

/-! ## Branches and jumps (R87, R89) -/

/-- A branch goes to its target where its condition holds, else on. -/
theorem branchOp_moves {i : Instr} {k : Nat} {off : BitVec 16} {cond : Tinker → Bool} {taken : Prop} [Decidable taken] {s : State}
    (hrun : s.canRun k = true) (hwf : wellFormed i = true) (hcond : cond (s.tinker k) = true ↔ taken)
    (hexec : exec i s = .next (s.tkExec k i (fun z => z.branchOp k off cond)) := by rfl) :
    ∃ t, exec i s = .next t ∧ OnlyTinker k s t ∧
      MovesPc (if taken then pcPlus (s.tinker k).pc off.toInt else (s.tinker k).pc + 4) (s.tinker k) (t.tinker k) := by
  refine exists_onlyTinker (P := MovesPc _ _) (exec_of_tkExec hexec hrun hwf) ?_
  rw [pcPlus_eq]
  by_cases h : taken
  · rw [if_pos h, if_pos (hcond.mpr h)]; exact movesPc_jump ..
  · rw [if_neg h, if_neg (h ∘ hcond.mp)]; exact movesPc_advance ..

/-- A branch on two registers with its condition: what the claim says of it. -/
def Branches (p : (Fin 25600 → BitVec 5 → BitVec 5 → BitVec 16 → Instr) × (Word → Word → Bool)) : Prop :=
  ∀ (k : Fin 25600) (rs1 rs2 : BitVec 5) (off : BitVec 16) (s : State), s.canRun k = true →
    ∃ t, exec (p.1 k rs1 rs2 off) s = .next t ∧ OnlyTinker k s t ∧
      MovesPc (if p.2 ((s.tinker k).gr rs1.toNat) ((s.tinker k).gr rs2.toNat) then pcPlus (s.tinker k).pc off.toInt
        else (s.tinker k).pc + 4) (s.tinker k) (t.tinker k)

theorem branches {mk : Fin 25600 → BitVec 5 → BitVec 5 → BitVec 16 → Instr} {cond stated : Word → Word → Bool}
    (hcond : ∀ a b, cond a b = stated a b)
    (hexec : ∀ k rs1 rs2 off s, exec (mk k rs1 rs2 off) s = .next (s.tkExec k (mk k rs1 rs2 off)
      (fun z => z.branchOp k off (fun t => cond (t.gr rs1.toNat) (t.gr rs2.toNat)))) := by intros; rfl)
    (hwf : ∀ k rs1 rs2 off, wellFormed (mk k rs1 rs2 off) = true := by intros; rfl) : Branches (mk, stated) :=
  fun k rs1 rs2 off s hrun => branchOp_moves hrun (hwf ..) (by rw [hcond]) (hexec k rs1 rs2 off s)

theorem branchesOnRegisters : ∀ p ∈ branchOps, Branches p := by
  simp only [branchOps, List.forall_mem_cons]
  exact ⟨branches fun _ _ => rfl, branches fun _ _ => rfl, branches fun _ _ => BitVec.slt_eq_decide,
    branches word_sge, branches fun _ _ => BitVec.ult_eq_decide, branches word_uge, fun _ h => absurd h List.not_mem_nil⟩

/-- The conditions of BP, by the eight bits. -/
theorem predCond_iff {cond : BitVec 2} (hcond : cond ≠ 3) (p : BitVec 8) :
    predCond cond p = true ↔ (cond = 0 ∧ ∃ i, i < 8 ∧ p.getLsbD i = true) ∨ (cond = 1 ∧ ∀ i, i < 8 → p.getLsbD i = true) ∨
      (cond = 2 ∧ ∀ i, i < 8 → p.getLsbD i = false) := by
  revert p cond
  decide +kernel

theorem branchesFollowTheirConditions : BranchesFollowTheirConditions :=
  ⟨branchesOnRegisters, fun k p cond off s hrun hcond =>
    branchOp_moves hrun (by simpa [wellFormed] using hcond) (predCond_iff hcond _)⟩

/-- A jump that writes a return address. -/
theorem linkJump_writes {i : Instr} {k : Nat} {rd : BitVec 5} {len : Nat} {target : Tinker → Word} {dest : Word} {s : State}
    (hrun : s.canRun k = true) (hdest : target (s.tinker k) &&& ~~~3#32 = dest)
    (hexec : exec i s = .next (s.tkExec k i (fun z => z.linkJump k rd len target)) := by rfl) (hwf : wellFormed i = true := by rfl) :
    ∃ t, exec i s = .next t ∧ OnlyTinker k s t ∧
      WritesG rd ((s.tinker k).pc + BitVec.ofNat 32 len) (dest - (s.tinker k).pc) (s.tinker k) (t.tinker k) :=
  exists_onlyTinker (exec_of_tkExec hexec hrun hwf) (hdest ▸ writesG_jump ..)

theorem jumpsLinkAndGo : JumpsLinkAndGo := fun _ _ _ hrun =>
  ⟨fun off => linkJump_writes hrun (pcPlus_eq _ off).symm, fun rs1 m =>
    linkJump_writes (target := fun t => t.gr rs1.toNat + m.signExtend 32) hrun (by rw [word_add_signExtend, word_align]),
    fun _ => linkJump_writes hrun rfl⟩

/-- Settles O5: branches by their conditions, jumps by their targets. -/
theorem branchesAndJumpsGoToTheirTargets : Obligations.BranchesAndJumpsGoToTheirTargets :=
  ⟨branchesFollowTheirConditions, jumpsLinkAndGo⟩

/-! ## Traps and RETT (R84, R86) -/

theorem undefinedEncodingsTakeTheIllegalTrap : UndefinedEncodingsTakeTheIllegalTrap := by
  intro k s hrun
  refine ⟨fun rd rs1 m hm => trapped_of_undefined hrun (by simp [wellFormed, hm]), fun p off => trapped_of_undefined hrun rfl,
    fun rd base u off => ⟨trapped_of_undefined hrun rfl, trapped_of_undefined hrun rfl, trapped_of_undefined hrun rfl,
      trapped_of_undefined hrun rfl⟩, fun vd va vb pg hv => trapped_of_undefined hrun ?_,
    fun w rest hfetched hdec => ⟨s.trap k 1 w, ?_, trapped_trap ..⟩⟩
  · simp only [wellFormed, vreg, Bool.and_eq_false_iff, decide_eq_false_iff_not]
    omega
  · have hundef : s.undefinedWord k = some w := by
      rw [State.undefinedWord, hfetched]
      exact if_pos ⟨rfl, hdec⟩
    show execInstructionFetch k s = _
    simp [execInstructionFetch, hundef, hrun, tIllegal]

/-- Settles O46: undefined encodings take the ILLEGAL trap, TRAP the SOFT one. -/
theorem trapsSaveStateAndEnterTheHandler : Obligations.TrapsSaveStateAndEnterTheHandler :=
  ⟨undefinedEncodingsTakeTheIllegalTrap, fun _ _ _ hrun => ⟨_, exec_of_tkExec rfl hrun rfl, trapped_trap ..⟩⟩

/-- The bits that RETT leaves in cstat. -/
theorem rett_mask {c : Word} {i : Nat} (hi : i ≠ 16) : (c.getLsbD i && (0xFFFEFFFF#32).getLsbD i) = c.getLsbD i := by
  have hmask : ∀ j < 32, j ≠ 16 → (0xFFFEFFFF#32).getLsbD j = true := by decide
  by_cases h : i < 32
  · rw [hmask i h hi, Bool.and_true]
  · rw [BitVec.getLsbD_of_ge _ _ (by omega), Bool.false_and]

/-- Settles O6: RETT restores the pc and clears INTRAP alone. -/
theorem rettReturnsFromTheHandler : Obligations.RettReturnsFromTheHandler := by
  intro k s hrun
  refine ⟨_, exec_of_tkExec rfl hrun rfl, onlyTinker_setTinker .., ?_, ?_, fun i hi => ?_⟩ <;>
    simp only [State.onTinker, State.tinker_set_self, Tinker.ret]
  · rfl
  · simp
  · rw [BitVec.getLsbD_and, rett_mask hi]

/-! ## Predicates and moves (R99, R100) -/

theorem predicateInstructionsCombine : PredicateInstructionsCombine := by
  intro k pd pa pb s hrun hpd
  have hwf : preg pd = true := decide_eq_true hpd
  exact ⟨runsP_of_predOp hrun hwf, runsP_of_predOp hrun hwf, runsP_of_predOp hrun hwf, runsP_of_predOp hrun hwf⟩

theorem vnum_eq {f : BitVec 5} (h : f.toNat < 16) : vnum f = f.toNat := Nat.mod_eq_of_lt h

theorem movesBetweenRegisterFiles : MovesBetweenRegisterFiles := by
  intro k rd ra lane s hrun
  refine ⟨fun hra => runsG_of_scalarOp hrun (by rw [vnum_eq hra]) rfl (decide_eq_true hra), runsG_of_scalarOp hrun ?_, ?_⟩
  · exact (BitVec.ofNat_toNat ..).symm
  · rw [BitVec.ofNat_toNat]
    exact runsP_of_predOp (f := fun t => (t.gr ra.toNat).setWidth 8) hrun rfl

/-- Settles O47: predicates combined, and moves between the files. -/
theorem predicatesAndMovesWriteTheirRegister : Obligations.PredicatesAndMovesWriteTheirRegister :=
  ⟨predicateInstructionsCombine, movesBetweenRegisterFiles⟩

end Sys2Proof.Proofs
end

section
/-! PROOFS. The Tinkers' vector instructions: lanes under a predicate, compares and reductions (R92 to R101). -/

namespace Sys2Proof.Proofs

open Sys2Proof Sys2Proof.Machine Sys2Proof.Claims

/-! ## Flags and counts of several lanes -/

/-- A saturating counter of a Tinker, counted up (R101). -/
def countUp (x : Word) (n : Nat) : Word := BitVec.ofNat 32 (satTo (2 ^ 32 - 1) (x.toNat + n))

theorem toNat_countUp (x : Word) (n : Nat) : (countUp x n).toNat = min (2 ^ 32 - 1) (x.toNat + n) := by
  rw [countUp, satTo_eq_min, BitVec.toNat_ofNat]
  omega

theorem countUp_zero (x : Word) : countUp x 0 = x := BitVec.eq_of_toNat_eq (by rw [toNat_countUp]; omega)

section
variable {ι : Type}

theorem toNat_foldl_countUp (f : ι → Nat) (l : List ι) (x : Word) :
    (l.foldl (fun y i => countUp y (f i)) x).toNat = min (2 ^ 32 - 1) (x.toNat + (l.map f).sum) := by
  induction l generalizing x with
  | nil => simp; omega
  | cons i l ih =>
    rw [List.foldl_cons, ih, toNat_countUp, List.map_cons, List.sum_cons]
    omega

theorem getLsbD_foldl_or (f : ι → FpFlags) (l : List ι) (x : Word) {n : Nat} (hn : n < 32) :
    (l.foldl (fun y i => y ||| (f i).setWidth 32) x).getLsbD n = true ↔
      x.getLsbD n = true ∨ (n < 4 ∧ ∃ i ∈ l, (f i).getLsbD n = true) := by
  induction l generalizing x with
  | nil => simp
  | cons i l ih =>
    have hlt : (f i).getLsbD n = true → n < 4 := BitVec.lt_of_getLsbD
    simp only [List.foldl_cons, ih, BitVec.getLsbD_or, BitVec.getLsbD_setWidth, hn, decide_true, Bool.true_and, Bool.or_eq_true,
      List.mem_cons, exists_eq_or_imp]
    tauto

end

/-- Noting what some lanes did. -/
def noteLanes (l : List (FpFlags × Counts)) (a : Tinker) : Tinker := l.foldl (fun z r => (z.addFlags r.1).addCounts r.2) a

theorem noteLanes_eq (l : List (FpFlags × Counts)) (a : Tinker) : noteLanes l a =
    { a with
      cstat := l.foldl (fun c r => c ||| r.1.setWidth 32) a.cstat
      satc := l.foldl (fun c r => countUp c r.2.sat) a.satc
      flsc := l.foldl (fun c r => countUp c r.2.flush) a.flsc
      narc := l.foldl (fun c r => countUp c (r.2.narOp + r.2.narRes)) a.narc } := by
  induction l generalizing a with
  | nil => rfl
  | cons r l ih => exact ih _

/-- A lane without flags and counts leaves nothing. -/
theorem note_nothing (a : Tinker) : (a.addFlags 0).addCounts Counts.none = a := by
  have h := noteLanes_eq [(0, Counts.none)] a
  simp only [noteLanes, List.foldl_cons, List.foldl_nil, Counts.none, countUp_zero] at h
  exact h.trans (by simp [countUp_zero])

/-! ## Lane by lane (R92) -/

/-- The lanes of a list write their results into a register, and add their flags and counts. -/
def runLanes (vd : Nat) (op : Nat → Lane) (l : List Nat) (a : Tinker) : Tinker :=
  l.foldl (fun z i => ((z.setV vd i (op i).w).addFlags (op i).f).addCounts (op i).c) a

theorem runLanes_frame (vd : Nat) (op : Nat → Lane) (l : List Nat) (a : Tinker) :
    runLanes vd op l a = { noteLanes (l.map fun i => ((op i).f, (op i).c)) a with v := (runLanes vd op l a).v } := by
  induction l generalizing a with
  | nil => rfl
  | cons i l ih =>
    refine (ih _).trans ?_
    rw [noteLanes_eq, noteLanes_eq]
    rfl

theorem vr_runLanes {vd : Nat} {op : Nat → Lane} {l : List Nat} (hl : ∀ i ∈ l, i < 8) (a : Tinker) (r : Nat) {j : Nat} (hj : j < 8) :
    (runLanes vd op l a).vr r j = if r = vd ∧ j ∈ l then (op j).w else a.vr r j := by
  induction l generalizing a with
  | nil => simp [runLanes]
  | cons i l ih =>
    obtain ⟨hi, hl⟩ := List.forall_mem_cons.mp hl
    refine (ih hl _).trans ?_
    rw [Tinker.vr_add_counts, Tinker.vr_add_flags, Tinker.vr_set_v _ _ _ _ _ _ hi hj]
    by_cases hr : r = vd <;> by_cases hji : j = i <;> simp [hr, hji]

/-- The active lanes of a predicate (R92). -/
def activeLanes (p : BitVec 8) : List Nat := (List.range 8).filter (fun j => p.getLsbD j)

theorem mem_activeLanes {p : BitVec 8} {j : Nat} : j ∈ activeLanes p ↔ j < 8 ∧ p.getLsbD j = true := by
  simp [activeLanes]

theorem lanesOp_eq (s : State) (k : Nat) (vd : BitVec 5) (pg : BitVec 3) (op : Tinker → Nat → Lane) :
    s.lanesOp k vd pg op = s.setTinker k
      ((runLanes (vnum vd) (op (s.tinker k)) (activeLanes ((s.tinker k).pr pg.toNat)) (s.tinker k)).advance 4) := by
  rw [runLanes, activeLanes, List.foldl_filter]
  rfl

theorem lanesRun_of_lanesOp {i : Instr} {k : Nat} {s : State} {vd : BitVec 5} {pg : BitVec 3} {f : Tinker → Nat → Lane} {op : Nat → Lane}
    (hrun : s.canRun k = true) (hwf : wellFormed i = true) (hvd : vd.toNat < 16) (hop : f (s.tinker k) = op)
    (hexec : exec i s = .next (s.tkExec k i (fun z => z.lanesOp k vd pg f)) := by rfl) : LanesRun i k s vd pg op := by
  have hact : ∀ j ∈ activeLanes ((s.tinker k).pr pg.toNat), j < 8 := fun j hj => (mem_activeLanes.mp hj).1
  refine ⟨_, (exec_of_tkExec hexec hrun hwf).trans (congrArg _ (lanesOp_eq ..)), onlyTinker_setTinker .., ?_⟩
  rw [State.tinker_set_self, vnum_eq hvd, hop]
  refine ⟨?_, fun j hj => ?_, fun r j hr hj => ?_, fun n hn => ?_, ?_, ?_, ?_⟩
  · rw [Tinker.advance_frame, runLanes_frame, noteLanes_eq]; rfl
  · rw [Tinker.vr_advance, vr_runLanes hact _ _ hj]
    simp only [true_and]; rfl
  · rw [Tinker.vr_advance, vr_runLanes hact _ _ hj, if_neg (fun h => hr h.1)]
  all_goals rw [runLanes_frame, noteLanes_eq]
  · refine (getLsbD_foldl_or _ _ _ hn).trans ?_
    simp only [List.mem_map, exists_exists_and_eq_and]; rfl
  · exact (toNat_foldl_countUp _ _ _).trans (by rw [List.map_map]; rfl)
  · exact (toNat_foldl_countUp _ _ _).trans (by rw [List.map_map]; rfl)
  · exact (toNat_foldl_countUp _ _ _).trans (by rw [List.map_map]; rfl)

/-- A vector instruction of two sources with what a lane gives: what the claim says of it. -/
def RunsVec2 (p : (Fin 25600 → BitVec 5 → BitVec 5 → BitVec 5 → BitVec 3 → Instr) × (Word → Word → Lane)) : Prop :=
  ∀ (k : Fin 25600) (vd va vb : BitVec 5) (pg : BitVec 3) (s : State), s.canRun k = true → vd.toNat < 16 → va.toNat < 16 → vb.toNat < 16 →
    LanesRun (p.1 k vd va vb pg) k s vd pg (fun j => p.2 ((s.tinker k).vr va.toNat j) ((s.tinker k).vr vb.toNat j))

theorem runsVec2 {mk : Fin 25600 → BitVec 5 → BitVec 5 → BitVec 5 → BitVec 3 → Instr} {op stated : Word → Word → Lane}
    (hval : ∀ a b, op a b = stated a b)
    (hexec : ∀ k vd va vb pg s, exec (mk k vd va vb pg) s = .next (s.tkExec k (mk k vd va vb pg)
      (fun z => z.vecOp2 k vd va vb pg op)) := by intros; rfl)
    (hwf : ∀ k vd va vb pg, wellFormed (mk k vd va vb pg) = (vreg vd && vreg va && vreg vb) := by intros; rfl) :
    RunsVec2 (mk, stated) := fun k vd va vb pg s hrun hvd hva hvb =>
  lanesRun_of_lanesOp hrun (by simp [hwf, vreg, hvd, hva, hvb]) hvd (by simp only [vnum_eq hva, vnum_eq hvb, hval]) (hexec ..)

/-- The same of one source. -/
def RunsVec1 (p : (Fin 25600 → BitVec 5 → BitVec 5 → BitVec 3 → Instr) × (Word → Lane)) : Prop :=
  ∀ (k : Fin 25600) (vd va : BitVec 5) (pg : BitVec 3) (s : State), s.canRun k = true → vd.toNat < 16 → va.toNat < 16 →
    LanesRun (p.1 k vd va pg) k s vd pg (fun j => p.2 ((s.tinker k).vr va.toNat j))

theorem runsVec1 {mk : Fin 25600 → BitVec 5 → BitVec 5 → BitVec 3 → Instr} {op stated : Word → Lane} (hval : ∀ a, op a = stated a)
    (hexec : ∀ k vd va pg s, exec (mk k vd va pg) s = .next (s.tkExec k (mk k vd va pg) (fun z => z.vecOp1 k vd va pg op)) := by intros; rfl)
    (hwf : ∀ k vd va pg, wellFormed (mk k vd va pg) = (vreg vd && vreg va) := by intros; rfl) :
    RunsVec1 (mk, stated) := fun k vd va pg s hrun hvd hva =>
  lanesRun_of_lanesOp hrun (by simp [hwf, vreg, hvd, hva]) hvd (by simp only [vnum_eq hva, hval]) (hexec ..)

/-- A VSF instruction, at both values of XC (R97). -/
def RunsVecSf (p : (Fin 25600 → BitVec 5 → BitVec 5 → BitVec 3 → Bool → Instr) × (Bool → Word → Lane)) : Prop :=
  ∀ xc, RunsVec1 (fun k vd va pg => p.1 k vd va pg xc, p.2 xc)

/-- A lane that gives a word alone. -/
theorem pure_eq_plain {w w' : Word} (h : w = w') : Lane.pure w = plain w' := h ▸ rfl

theorem lanesOfTwoSources : ∀ p ∈ vectorOps2, RunsVec2 p := by
  simp only [vectorOps2, List.forall_mem_cons]
  exact ⟨runsVec2 fun _ _ => rfl, runsVec2 fun _ _ => rfl, runsVec2 fun _ _ => rfl, runsVec2 fun _ _ => rfl, runsVec2 fun _ _ => rfl,
    runsVec2 fun a b => pure_eq_plain (word_add a b), runsVec2 fun a b => pure_eq_plain (word_sub a b),
    runsVec2 fun a b => pure_eq_plain (word_mul a b), runsVec2 fun a b => pure_eq_plain (word_and a b),
    runsVec2 fun a b => pure_eq_plain (word_or a b), runsVec2 fun a b => pure_eq_plain (word_xor a b),
    runsVec2 fun a b => pure_eq_plain (word_shiftLeft a (b.toNat % 32)), runsVec2 fun a b => pure_eq_plain (word_shiftRight a (b.toNat % 32)),
    runsVec2 fun a b => pure_eq_plain (word_sshiftRight a (b.toNat % 32)), runsVec2 fun a b => pure_eq_plain (word_min a b),
    runsVec2 fun a b => pure_eq_plain (word_max a b), runsVec2 fun _ _ => rfl, runsVec2 fun _ _ => rfl, runsVec2 fun _ _ => rfl,
    runsVec2 fun _ _ => rfl, fun _ h => absurd h List.not_mem_nil⟩

theorem fpAbs_eq (a : Word) : fpAbs a = BitVec.ofNat 32 (a.toNat % 2 ^ 31) := by
  rw [fpAbs, word_and, ← Nat.and_two_pow_sub_one_eq_mod]; rfl

theorem lanesOfOneSource : ∀ p ∈ vectorOps1, RunsVec1 p := by
  simp only [vectorOps1, List.forall_mem_cons]
  exact ⟨runsVec1 fun a => pure_eq_plain (fpAbs_eq a), runsVec1 fun a => pure_eq_plain (word_xor a 0x80000000), runsVec1 fun _ => rfl,
    runsVec1 fun _ => rfl, runsVec1 fun _ => rfl, runsVec1 fun _ => rfl, runsVec1 fun _ => rfl, runsVec1 fun _ => rfl, runsVec1 fun _ => rfl,
    runsVec1 fun _ => rfl, runsVec1 fun _ => rfl, fun _ h => absurd h List.not_mem_nil⟩

theorem lanesOfVsf : ∀ p ∈ vectorOpsSf, RunsVecSf p := by
  simp only [vectorOpsSf, List.forall_mem_cons]
  exact ⟨fun _ => runsVec1 fun _ => rfl, fun _ => runsVec1 fun _ => rfl, fun _ => runsVec1 fun _ => rfl, fun _ => runsVec1 fun _ => rfl,
    fun _ h => absurd h List.not_mem_nil⟩

/-- Settles O11: each operation is one fold over the active lanes. -/
theorem vectorInstructionsRunLaneByLane : Obligations.VectorInstructionsRunLaneByLane := by
  intro k vd va vb pg s hrun hvd hva hvb
  refine ⟨fun p hp => lanesOfTwoSources p hp k vd va vb pg s hrun hvd hva hvb, fun p hp => lanesOfOneSource p hp k vd va pg s hrun hvd hva,
    fun p hp xc => lanesOfVsf p hp xc k vd va pg s hrun hvd hva, lanesRun_of_lanesOp hrun ?_ hvd ?_,
    fun ga => lanesRun_of_lanesOp hrun (decide_eq_true hvd) hvd rfl⟩
  · simp [wellFormed, vreg, hvd, hva, hvb]
  · simp only [vnum_eq hvd, vnum_eq hva, vnum_eq hvb]; rfl

/-! ## Compares (R99) -/

/-- Bits put together into a number. -/
def bitSum (c : Nat → Bool) (n : Nat) : Nat := ((List.range n).map (fun i => if c i then 2 ^ i else 0)).foldl (· + ·) 0

theorem bitSum_succ (c : Nat → Bool) (n : Nat) : bitSum c (n + 1) = bitSum c n + if c n then 2 ^ n else 0 := by
  simp [bitSum, List.range_succ]

theorem bitSum_lt (c : Nat → Bool) (n : Nat) : bitSum c n < 2 ^ n := by
  induction n with
  | zero => simp [bitSum]
  | succ n ih => rw [bitSum_succ]; split <;> omega

theorem testBit_bitSum (c : Nat → Bool) (n j : Nat) : (bitSum c n).testBit j = (decide (j < n) && c j) := by
  induction n with
  | zero => simp [bitSum]
  | succ n ih =>
    have hbit : (bitSum c (n + 1)).testBit j = (decide (n = j) && c n || (bitSum c n).testBit j) := by
      rw [bitSum_succ]
      cases hc : c n with
      | false => simp
      | true =>
        have hor := Nat.two_pow_add_eq_or_of_lt (bitSum_lt c n) 1
        rw [Nat.mul_one] at hor
        rw [if_pos rfl, Nat.add_comm, hor, Nat.testBit_or, Nat.testBit_two_pow, Bool.and_true]
    rw [hbit, ih]
    rcases Nat.lt_trichotomy j n with h | h | h
    · simp [show n ≠ j by omega, h, show j < n + 1 by omega]
    · simp [h]
    · simp [show n ≠ j by omega, show ¬j < n by omega, show ¬j < n + 1 by omega]

/-- Noting the lanes of a list, of which only some did anything. -/
theorem noteLanes_active (on : Nat → Bool) (r : Nat → FpFlags × Counts) (l : List Nat) (a : Tinker) :
    noteLanes (l.map fun i => if on i then r i else (0, Counts.none)) a = noteLanes ((l.filter on).map r) a := by
  simp only [noteLanes, List.foldl_map, List.foldl_filter]
  congr 1
  funext z i
  cases on i
  · exact note_nothing z
  · rfl

/-- What cmpOp makes of its Tinker: the predicate of the active lanes' relations, and their flags and counts. -/
theorem cmpOp_eq (s : State) (k : Nat) (pd va vb : BitVec 5) (pg : BitVec 3) (op : Word → Word → Bool × FpFlags × Counts) :
    let a := s.tinker k
    let r (j : Nat) := op (a.vr (vnum va) j) (a.vr (vnum vb) j)
    let on (j : Nat) := (a.pr pg.toNat).getLsbD j
    s.cmpOp k pd va vb pg op = s.setTinker k
      (((noteLanes ((activeLanes (a.pr pg.toNat)).map fun j => (r j).2) a).setP (pnum pd)
        (BitVec.ofNat 8 (bitSum (fun j => on j && (r j).1) 8))).advance 4) := by
  intro a r on
  have hrel : ∀ j ∈ List.range 8, (if (((List.range 8).map (fun i => if active (a.pr pg.toNat) i then r i else (false, 0, Counts.none))).getD j
      (false, 0, Counts.none)).1 then 2 ^ j else 0) = if on j && (r j).1 then 2 ^ j else 0 := fun j hj => by
    have hj := List.mem_range.mp hj
    simp only [List.getD_eq_getElem?_getD, List.getElem?_map, List.getElem?_range hj, Option.map_some, Option.getD_some, active, on]
    by_cases hon : (a.pr pg.toNat).getLsbD j = true <;> simp [hon]
  have hnote : ((List.range 8).map (fun i => if active (a.pr pg.toNat) i then r i else (false, 0, Counts.none))).foldl
      (fun z x => (z.addFlags x.2.1).addCounts x.2.2) a = noteLanes ((activeLanes (a.pr pg.toNat)).map fun j => (r j).2) a := by
    rw [activeLanes, ← noteLanes_active, noteLanes, List.foldl_map, List.foldl_map]
    congr 1
    funext z i
    simp only [active]
    by_cases hon : (a.pr pg.toNat).getLsbD i = true <;> simp [hon]
  simp only [State.cmpOp]
  rw [show s.tinker k = a from rfl, hnote, List.map_congr_left hrel]
  rfl

/-- A compare with the relation of a lane: what the claim says of it. -/
def Compares (p : (Fin 25600 → BitVec 5 → BitVec 5 → BitVec 5 → BitVec 3 → Instr) × (Word → Word → Bool × FpFlags × Nat)) : Prop :=
  ∀ (k : Fin 25600) (pd va vb : BitVec 5) (pg : BitVec 3) (s : State), s.canRun k = true → pd.toNat < 8 → va.toNat < 16 → vb.toNat < 16 →
    ∃ t, exec (p.1 k pd va vb pg) s = .next t ∧ OnlyTinker k s t ∧
      let a := s.tinker k
      let b := t.tinker k
      let on := (List.range 8).filter (fun j => (a.pr pg.toNat).getLsbD j)
      let op (j : Nat) := p.2 (a.vr va.toNat j) (a.vr vb.toNat j)
      b = { a with p := b.p, pc := a.pc + 4, fetched := b.fetched, cstat := b.cstat, narc := b.narc } ∧
        (∀ r, r ≠ pd.toNat → b.pr r = a.pr r) ∧
        (∀ j, j < 8 → (b.pr pd.toNat).getLsbD j = (decide (pd = 0) || (decide (j ∈ on) && (op j).1))) ∧
        (∀ n, n < 32 → (b.cstat.getLsbD n = true ↔ a.cstat.getLsbD n = true ∨ (n < 4 ∧ ∃ j ∈ on, (op j).2.1.getLsbD n = true))) ∧
        b.narc.toNat = min (2 ^ 32 - 1) (a.narc.toNat + (on.map (fun j => (op j).2.2)).sum)

theorem foldl_countUp_zero {ι : Type} (l : List ι) (x : Word) : l.foldl (fun y _ => countUp y 0) x = x := by
  induction l with
  | nil => rfl
  | cons _ l ih => rw [List.foldl_cons, countUp_zero, ih]

/-- Lanes that count NaR operands alone change cstat and narc alone. -/
theorem noteLanes_narOps {ι : Type} (f : ι → FpFlags) (n : ι → Nat) (l : List ι) (a : Tinker) :
    noteLanes (l.map fun i => (f i, ⟨0, 0, n i, 0⟩)) a =
      { a with
        cstat := l.foldl (fun c i => c ||| (f i).setWidth 32) a.cstat
        narc := l.foldl (fun c i => countUp c (n i)) a.narc } := by
  rw [noteLanes_eq]
  simp only [List.foldl_map, foldl_countUp_zero, Nat.add_zero]

theorem compares {mk : Fin 25600 → BitVec 5 → BitVec 5 → BitVec 5 → BitVec 3 → Instr} {op : Word → Word → Bool × FpFlags × Counts}
    {stated : Word → Word → Bool × FpFlags × Nat}
    (hval : ∀ a b, op a b = ((stated a b).1, (stated a b).2.1, ⟨0, 0, (stated a b).2.2, 0⟩))
    (hexec : ∀ k pd va vb pg s, exec (mk k pd va vb pg) s = .next (s.tkExec k (mk k pd va vb pg)
      (fun z => z.cmpOp k pd va vb pg op)) := by intros; rfl)
    (hwf : ∀ k pd va vb pg, wellFormed (mk k pd va vb pg) = (preg pd && vreg va && vreg vb) := by intros; rfl) :
    Compares (mk, stated) := by
  intro k pd va vb pg s hrun hpd hva hvb
  have hnum : pnum pd = pd.toNat := Nat.mod_eq_of_lt hpd
  have hzero : pd.toNat = 0 ↔ pd = 0 := by simp [BitVec.toNat_eq]
  refine ⟨_, (exec_of_tkExec (hexec ..) hrun (by simp [hwf, preg, vreg, hpd, hva, hvb])).trans (congrArg _ (cmpOp_eq ..)),
    onlyTinker_setTinker .., ?_⟩
  simp only [State.tinker_set_self, vnum_eq hva, vnum_eq hvb, hnum, hval, noteLanes_narOps]
  refine ⟨?_, fun r hr => ?_, fun j hj => ?_, fun n hn => ?_, ?_⟩
  · rw [Tinker.advance_frame, Tinker.set_p_frame]; rfl
  · rw [Tinker.pr_advance, Tinker.pr_set_p, if_neg hr]; rfl
  · rw [Tinker.pr_advance, Tinker.pr_set_p, if_pos rfl]
    simp only [hzero, List.mem_filter, List.mem_range, hj, true_and, Bool.decide_eq_true]
    split
    next h =>
      have hones : ∀ j < 8, (0xFF : BitVec 8).getLsbD j = true := by decide
      rw [hones j hj, h]; rfl
    next h => simp only [BitVec.getLsbD_ofNat, testBit_bitSum, hj, h, decide_true, decide_false, Bool.true_and, Bool.false_or]
  · rw [Tinker.set_p_frame]
    exact getLsbD_foldl_or _ _ _ hn
  · rw [Tinker.set_p_frame]
    exact toNat_foldl_countUp _ _ _

/-! ### Codes of LX32 (R93, R99) -/

/-- R93, R99: the value of a code with its place among the values. -/
theorem lxVal_cases (w : Word) :
    (w = 0x80000000#32 ∧ lxVal w = .nar) ∨ w ≠ 0x80000000#32 ∧
      (lxVal w = .zero ∧ lxKey w = 0 ∨ (∃ l, lxVal w = .num false l) ∧ lxKey w = (w.toNat % 2 ^ 31 : Nat) ∨
        (∃ l, lxVal w = .num true l) ∧ lxKey w = -((w.toNat % 2 ^ 31 : Nat) : Int)) := by
  have hw := w.isLt
  have hnar : w = 0x80000000#32 ↔ w.toNat = 2 ^ 31 := BitVec.toNat_inj.symm
  have hmsb : w.msb = decide (2 ^ 31 ≤ w.toNat) := BitVec.msb_eq_decide w
  rw [ne_eq, hnar]
  unfold lxVal lxKey
  rw [hmsb]
  rcases Nat.lt_trichotomy w.toNat (2 ^ 31) with h | h | h
  · rw [Nat.mod_eq_of_lt h, if_pos h, decide_eq_false (by omega)]
    by_cases h0 : w.toNat = 0
    · exact .inr ⟨h.ne, .inl ⟨if_pos h0, by rw [h0]; rfl⟩⟩
    · exact .inr ⟨h.ne, .inr (.inl ⟨⟨_, if_neg h0⟩, rfl⟩)⟩
  · exact .inl ⟨h, by rw [h]; rfl⟩
  · rw [show w.toNat % 2 ^ 31 = w.toNat - 2 ^ 31 by omega, if_neg h.le.not_gt, decide_eq_true h.le]
    exact .inr ⟨h.ne', .inr (.inr ⟨⟨_, if_neg (by omega)⟩, rfl⟩)⟩

theorem lxVal_eq_nar {w : Word} : lxVal w = .nar ↔ w = 0x80000000#32 := by
  rcases lxVal_cases w with ⟨hw, hv⟩ | ⟨hw, ⟨hv, -⟩ | ⟨⟨l, hv⟩, -⟩ | ⟨⟨l, hv⟩, -⟩⟩
  · exact iff_of_true hv hw
  all_goals simp [hw, hv]

/-- Codes compared by their places, where neither is NaR (R99). -/
theorem lxCmp_of_ne_nar (rel : Int → Int → Bool) {a b : Word} (ha : a ≠ 0x80000000#32) (hb : b ≠ 0x80000000#32) :
    lxCmp rel a b = (rel (lxKey a) (lxKey b), 0, Counts.none) := by
  obtain ⟨h, -⟩ | ⟨-, hka⟩ := lxVal_cases a
  · exact absurd h ha
  obtain ⟨h, -⟩ | ⟨-, hkb⟩ := lxVal_cases b
  · exact absurd h hb
  rcases hka with ⟨hva, hka⟩ | ⟨⟨l, hva⟩, hka⟩ | ⟨⟨l, hva⟩, hka⟩ <;>
    rcases hkb with ⟨hvb, hkb⟩ | ⟨⟨m, hvb⟩, hkb⟩ | ⟨⟨m, hvb⟩, hkb⟩ <;>
    simp [lxCmp, hva, hvb, hka, hkb]

theorem narOps_pair (a b : Word) :
    narOps [lxVal a, lxVal b] = ⟨0, 0, b2n (decide (a = 0x80000000#32)) + b2n (decide (b = 0x80000000#32)), 0⟩ := by
  simp [narOps, List.countP_cons, lxVal_eq_nar, b2n, Nat.add_comm]

theorem lxCmp_eq (rel : Int → Int → Bool) (a b : Word) :
    let n := b2n (decide (a = 0x80000000#32)) + b2n (decide (b = 0x80000000#32))
    lxCmp rel a b = (decide (n = 0) && rel (lxKey a) (lxKey b), 0, ⟨0, 0, n, 0⟩) := by
  intro n
  have hn : n = 0 ↔ ¬(a = 0x80000000#32 ∨ b = 0x80000000#32) := by simp [n, b2n]
  by_cases h : a = 0x80000000#32 ∨ b = 0x80000000#32
  · rw [lxCmp, if_pos (by simpa only [lxVal_eq_nar] using h), narOps_pair, decide_eq_false (fun e => hn.mp e h), Bool.false_and]
  · obtain ⟨ha, hb⟩ := not_or.mp h
    rw [lxCmp_of_ne_nar rel ha hb, hn.mpr h]
    rfl

theorem compareInstructions : ∀ p ∈ compareOps, Compares p := by
  simp only [compareOps, List.forall_mem_cons]
  exact ⟨compares fun _ _ => rfl, compares fun _ _ => rfl, compares fun _ _ => rfl, compares fun _ _ => rfl,
    compares fun _ _ => congrArg (·, 0, Counts.none) BitVec.slt_eq_decide, compares fun _ _ => congrArg (·, 0, Counts.none) BitVec.ult_eq_decide,
    compares fun a b => lxCmp_eq _ a b, compares fun a b => lxCmp_eq _ a b, compares fun a b => lxCmp_eq _ a b,
    fun _ h => absurd h List.not_mem_nil⟩

/-- Settles O13: the relations of the active lanes, bit by bit. -/
theorem comparesWriteTheirPredicate : Obligations.ComparesWriteTheirPredicate := compareInstructions

/-! ## Reductions (R100) -/

/-- The lanes of a reduction: inactive ones give the identity. -/
def reduceLane (a : Tinker) (pg : BitVec 3) (va : BitVec 5) (identity : Word) (j : Nat) : Word :=
  if (a.pr pg.toNat).getLsbD j then a.vr va.toNat j else identity

/-- The seven operations of the tree, with what each gives (R100). -/
def treeLanes (op : Word → Word → Lane) (x : Nat → Word) : List Lane :=
  let a := op (x 0) (x 1)
  let b := op (x 2) (x 3)
  let c := op (x 4) (x 5)
  let d := op (x 6) (x 7)
  [a, b, c, d, op a.w b.w, op c.w d.w, op (op a.w b.w).w (op c.w d.w).w]

theorem reduceOp_eq {s : State} {k : Nat} {gd va : BitVec 5} (hva : va.toNat < 16) (pg : BitVec 3) (identity : Word) (op : Word → Word → Lane) :
    let x := reduceLane (s.tinker k) pg va identity
    s.reduceOp k gd va pg identity op = s.setTinker k
      (((noteLanes ((treeLanes op x).map fun l => (l.f, l.c)) (s.tinker k)).setG gd.toNat (tree (fun y z => (op y z).w) x)).advance 4) := by
  simp only [State.reduceOp, vnum_eq hva]
  rfl

/-- A reduction whose operations set no flag and count nothing writes its register alone. -/
theorem noteLanes_plain {l : List Lane} (h : ∀ r ∈ l, r.f = 0 ∧ r.c = Counts.none) (a : Tinker) :
    noteLanes (l.map fun r => (r.f, r.c)) a = a := by
  induction l with
  | nil => rfl
  | cons r l ih =>
    obtain ⟨⟨hf, hc⟩, hl⟩ := List.forall_mem_cons.mp h
    refine Eq.trans ?_ (ih hl)
    rw [List.map_cons, noteLanes, List.foldl_cons, hf, hc, note_nothing, noteLanes]

theorem treeLanes_forall {P : Lane → Prop} {op : Word → Word → Lane} (h : ∀ y z, P (op y z)) (x : Nat → Word) :
    ∀ r ∈ treeLanes op x, P r := by
  simp only [treeLanes, List.forall_mem_cons]
  exact ⟨h .., h .., h .., h .., h .., h .., h .., fun _ hr => absurd hr List.not_mem_nil⟩

theorem reduces_plain {i : Instr} {k : Nat} {s : State} {gd va : BitVec 5} {pg : BitVec 3} {identity : Word} {op : Word → Word → Lane} {v : Word}
    (hrun : s.canRun k = true) (hwf : wellFormed i = true) (hva : va.toNat < 16) (hop : ∀ y z, (op y z).f = 0 ∧ (op y z).c = Counts.none)
    (hv : tree (fun y z => (op y z).w) (reduceLane (s.tinker k) pg va identity) = v)
    (hexec : exec i s = .next (s.tkExec k i (fun z => z.reduceOp k gd va pg identity op)) := by rfl) :
    ∃ t, exec i s = .next t ∧ OnlyTinker k s t ∧ WritesG gd v 4 (s.tinker k) (t.tinker k) := by
  refine exists_onlyTinker ((exec_of_tkExec hexec hrun hwf).trans (congrArg _ (reduceOp_eq hva ..))) ?_
  rw [hv, noteLanes_plain (treeLanes_forall (P := fun r => r.f = 0 ∧ r.c = Counts.none) hop _)]
  exact writesG_advance ..

/-- Lanes that count nothing change cstat alone. -/
theorem noteLanes_flags {l : List Lane} (h : ∀ r ∈ l, r.c = Counts.none) (a : Tinker) :
    noteLanes (l.map fun r => (r.f, r.c)) a = { a with cstat := l.foldl (fun c r => c ||| r.f.setWidth 32) a.cstat } := by
  rw [List.map_congr_left (g := fun r => (r.f, ⟨0, 0, 0, 0⟩)) fun r hr => by rw [h r hr]; rfl, noteLanes_narOps]
  simp only [foldl_countUp_zero]

/-- The flags of the seven operations, together. -/
theorem treeLanes_flags (op : Word → Word → Word × FpFlags) (x : Nat → Word) (n : Nat) :
    (∃ r ∈ treeLanes (fun y z => Lane.fp (op y z)) x, r.f.getLsbD n = true) ↔ (treeFlags op x).getLsbD n = true := by
  simp only [treeLanes, treeFlags, Lane.fp, List.mem_cons, List.not_mem_nil, or_false, exists_eq_or_imp, exists_eq_left,
    BitVec.getLsbD_or, Bool.or_eq_true, or_assoc]

theorem reduces_fp {i : Instr} {k : Nat} {s : State} {gd va : BitVec 5} {pg : BitVec 3} {identity : Word} {op : Word → Word → Word × FpFlags}
    (hrun : s.canRun k = true) (hwf : wellFormed i = true) (hva : va.toNat < 16)
    (hexec : exec i s = .next (s.tkExec k i (fun z => z.reduceOp k gd va pg identity (fun y z => Lane.fp (op y z)))) := by rfl) :
    ∃ t, exec i s = .next t ∧ OnlyTinker k s t ∧ ReducesFp op (reduceLane (s.tinker k) pg va identity) gd (s.tinker k) (t.tinker k) := by
  refine exists_onlyTinker ((exec_of_tkExec hexec hrun hwf).trans (congrArg _ (reduceOp_eq hva ..))) ?_
  rw [noteLanes_flags (treeLanes_forall (P := fun r => r.c = Counts.none) (fun _ _ => rfl) _)]
  generalize reduceLane (s.tinker k) pg va identity = x
  refine ⟨?_, gr_setG_self .., fun r hr => gr_setG_other _ _ hr, fun n hn => ?_⟩
  · rw [Tinker.advance_frame, Tinker.set_g_frame]; rfl
  · rw [← treeLanes_flags, Tinker.advance_frame, Tinker.set_g_frame]
    exact getLsbD_foldl_or _ _ _ hn

/-- A word as the maximum of some codes: NaR if one is, else a stated value that is one of them (R100). -/
def MaxOf (l : List Word) (u x : Word) : Prop :=
  if 0x80000000#32 ∈ l then x = 0x80000000#32 else x = u ∧ u ≠ 0x80000000#32

/-- The larger of two codes by their places (R99). -/
def keyMax (x y : Word) : Word := if lxKey x < lxKey y then y else x

theorem maxOf_single (x : Word) : MaxOf [x] x x := by
  unfold MaxOf
  split
  next h => exact (List.mem_singleton.mp h).symm
  next h => exact ⟨rfl, fun e => h (List.mem_singleton.mpr e.symm)⟩

theorem lxMax_plain (a b : Word) : (lxMax a b).f = 0 ∧ (lxMax a b).c = Counts.none := by
  unfold lxMax
  split
  · exact ⟨rfl, rfl⟩
  · split <;> exact ⟨rfl, rfl⟩

theorem maxOf_lxMax {l m : List Word} {u v x y : Word} (hx : MaxOf l u x) (hy : MaxOf m v y) :
    MaxOf (l ++ m) (keyMax u v) (lxMax x y).w := by
  have hw : (lxMax x y).w = if x = 0x80000000#32 ∨ y = 0x80000000#32 then 0x80000000#32 else keyMax x y := by
    unfold lxMax
    simp only [lxVal_eq_nar]
    by_cases h : x = 0x80000000#32 ∨ y = 0x80000000#32
    · rw [if_pos h, if_pos h]; rfl
    · obtain ⟨hx, hy⟩ := not_or.mp h
      rw [if_neg h, if_neg h, lxCmp_of_ne_nar _ hx hy, keyMax]
      simp only [decide_eq_true_eq]
      split <;> rfl
  unfold MaxOf at hx hy ⊢
  simp only [hw, List.mem_append]
  by_cases hl : 0x80000000#32 ∈ l
  · rw [if_pos hl] at hx
    rw [if_pos (.inl hl), if_pos (.inl hx)]
  · by_cases hm : 0x80000000#32 ∈ m
    · rw [if_pos hm] at hy
      rw [if_pos (.inr hm), if_pos (.inr hy)]
    · rw [if_neg hl] at hx
      rw [if_neg hm] at hy
      obtain ⟨rfl, hx⟩ := hx
      obtain ⟨rfl, hy⟩ := hy
      rw [if_neg (not_or.mpr ⟨hl, hm⟩), if_neg (not_or.mpr ⟨hx, hy⟩)]
      exact ⟨rfl, by unfold keyMax; split <;> assumption⟩

/-- The maximum of eight codes in the tree. -/
theorem tree_lxMax (x : Nat → Word) : tree (fun y z => (lxMax y z).w) x =
    if (List.range 8).any (fun j => x j == 0x80000000) then 0x80000000 else tree keyMax x := by
  have hx (j : Nat) := maxOf_single (x j)
  have h : MaxOf ((List.range 8).map x) (tree keyMax x) (tree (fun y z => (lxMax y z).w) x) :=
    maxOf_lxMax (maxOf_lxMax (maxOf_lxMax (hx 0) (hx 1)) (maxOf_lxMax (hx 2) (hx 3)))
      (maxOf_lxMax (maxOf_lxMax (hx 4) (hx 5)) (maxOf_lxMax (hx 6) (hx 7)))
  have hany : (List.range 8).any (fun j => x j == 0x80000000) = true ↔ 0x80000000#32 ∈ (List.range 8).map x := by
    simp only [List.any_eq_true, beq_iff_eq, List.mem_map]; rfl
  unfold MaxOf at h
  split at h
  next hm => rw [if_pos (hany.mpr hm), h]; rfl
  next hm => rw [if_neg (hm ∘ hany.mp), h.1]

theorem tree_add (x : Nat → Word) : tree (fun y z => (Lane.pure (y + z)).w) x =
    BitVec.ofNat 32 (((List.range 8).map (fun j => (x j).toNat)).sum) := by
  refine BitVec.eq_of_toNat_eq ?_
  simp only [tree, Lane.pure, BitVec.toNat_add, BitVec.toNat_ofNat, List.range_succ, List.range_zero, List.nil_append, List.cons_append,
    List.map_cons, List.map_nil, List.sum_cons, List.sum_nil]
  omega

/-- Settles O14: the lanes go through the fixed tree, whose seven operations note their flags. -/
theorem reductionsCombineInTheFixedTree : Obligations.ReductionsCombineInTheFixedTree := by
  intro k rd va pg s hrun hva
  have hwf : vreg va = true := decide_eq_true hva
  exact ⟨reduces_fp hrun hwf hva, reduces_fp hrun hwf hva, reduces_plain hrun hwf hva (fun _ _ => ⟨rfl, rfl⟩) (tree_add _),
    reduces_plain hrun hwf hva lxMax_plain (tree_lxMax _)⟩

end Sys2Proof.Proofs
end

section
/-! PROOFS. The Tinkers' accesses to short addresses: SRAM arrays without marked errors, instruction fetch, loads and stores
(R79, R82, R90, R91). -/

namespace Sys2Proof.Proofs

open Sys2Proof Sys2Proof.Machine Sys2Proof.Claims

/-! ## SRAM arrays without marked errors (R70) -/

theorem sramMark_of_nil {s : State} (h : s.sramErr = []) (r : Sram) (a : Nat) : s.sramMark r a = 0 := by
  rw [State.sramMark, h]; rfl

theorem sramRead_of_nil {s : State} (h : s.sramErr = []) (r : Sram) (as : List Nat) :
    s.sramRead r as = (as.map (Mem.get (s.sram r)), false, s) := by
  have hmarks (l : List Nat) : l.map (fun w => s.sramMark r (8 * w)) = l.map (fun _ => 0) :=
    List.map_congr_left fun _ _ => sramMark_of_nil h ..
  simp [State.sramRead, hmarks]

/-! ## Instruction fetch (R82) -/

theorem exec_instructionFetch {s : State} {k : Fin 25600} (hrun : s.running k = true) (hdead : s.cellDead (tkCell k) = false)
    (hlen : (s.tinker k).fetched.length < 3) (hdef : s.undefinedWord k = none) :
    exec (.instructionFetch k) s = .next (s.fetchWord k) := by
  show execInstructionFetch k s = _
  simp only [execInstructionFetch, hdef, hrun, hdead, hlen, Bool.not_false, Bool.and_self, decide_true, if_true]

/-- Tinker 0 at the start of a line of its cell store that its buffer holds with a marked first word: the line was read while that
word had a double-bit error, and a whole write has cleared the error since, while the buffer keeps what it read (R70, R82). -/
def staleLine : State :=
  { State.reset.setFld Fd.cellTkRun0 0 0 1 with
    tinkers := [(0, { Tinker.init with pc := 0x200000, tvec := 4, ibuf := [(0, some (2 ^ 21, List.replicate 64 1, [0]))] })] }

theorem staleLine_meets : staleLine.running (0 : Fin 25600) = true ∧ staleLine.cellDead ((0 : Fin 25600).val / 100) = false ∧
    (staleLine.tinker (0 : Fin 25600)).fetched.length < 2 ∧ staleLine.sramErr = [] ∧ staleLine.undefinedWord 0 = none := by decide +kernel

theorem pc_fetchWord_staleLine : ((staleLine.fetchWord (0 : Fin 25600)).tinker (0 : Fin 25600)).pc = 4 := by decide +kernel

/-- Refutes O8: a fetch at the pc from a line that the buffer holds with a marked word takes the SRAM_DOUBLE trap, though no word of an
SRAM array is marked, and so the pc moves to the handler. The statement lacks the premise that a held line has no marked word. -/
theorem not_fetchTakesTheNextWord : ¬ Obligations.FetchTakesTheNextWord := by
  intro h
  obtain ⟨hrun, hdead, hlen, herr, hdef⟩ := staleLine_meets
  obtain ⟨t, hexec, -, hpc, -⟩ := h 0 staleLine hrun hdead hlen herr hdef
  rw [exec_instructionFetch (k := 0) hrun hdead (hlen.trans (by decide)) hdef] at hexec
  injection hexec with ht
  rw [← ht] at hpc
  exact absurd (pc_fetchWord_staleLine.symm.trans hpc) (by decide +kernel)

/-! ## Bytes at a short address (R79) -/

/-- Writing addressed bytes one after another. -/
def writeBytes (m : Mem) (ab : List (Nat × Byte)) : Mem := ab.foldl (fun z e => Mem.set z e.1 e.2) m

/-- What a byte reads as after some of the bytes at distinct places have been written. -/
theorem get_writeBytes {place : Nat → Nat} (b : Nat → Option Byte) {l : List Nat} (hl : (l.map place).Nodup) (m : Mem) (x : Nat) :
    Mem.get (writeBytes m (l.filterMap (fun i => (b i).map (place i, ·)))) x =
      ((l.find? (fun i => decide (x = place i))).bind b).getD (Mem.get m x) := by
  induction l generalizing m with
  | nil => rfl
  | cons i l ih =>
    obtain ⟨hi, hl⟩ := List.nodup_cons.mp hl
    have hfind : x = place i → l.find? (fun j => decide (x = place j)) = none := fun hx =>
      List.find?_eq_none.mpr fun j hj hxj => hi (List.mem_map.mpr ⟨j, hj, by rw [← of_decide_eq_true hxj, hx]⟩)
    rw [List.find?_cons]
    cases hb : b i with
    | none =>
      rw [List.filterMap_cons_none (by rw [hb]; rfl), ih hl]
      by_cases hx : x = place i
      · rw [hfind hx]
        simp [hx, hb]
      · simp [hx]
    | some v =>
      rw [List.filterMap_cons_some (by rw [hb]; rfl), writeBytes, List.foldl_cons, ← writeBytes, ih hl]
      by_cases hx : x = place i
      · rw [hfind hx]
        simp [hx, hb]
      · rw [Mem.get_set_other _ _ hx]
        simp [hx]

theorem splitWords_flatten (l : List (Nat × Byte)) : (splitWords l).flatten = l := by
  induction l with
  | nil => rfl
  | cons x l ih =>
    rw [splitWords]
    split
    next h => rw [h] at ih; simp [← ih]
    next h => rw [h] at ih; simp [← ih]
    next h =>
      rw [h] at ih
      split <;> simp [← ih]

theorem State.setSram_setSram (s : State) (r : Sram) (m n : Mem) : (s.setSram r m).setSram r n = s.setSram r n := by cases r <;> rfl

theorem State.sram_setSram (s : State) (r : Sram) (m : Mem) : (s.setSram r m).sram r = m := by cases r <;> rfl

theorem State.sram_setSram_other (s : State) {q r : Sram} (h : q ≠ r) (m : Mem) : (s.setSram r m).sram q = s.sram q := by
  cases q <;> cases r <;> simp_all [State.setSram, State.sram]

theorem State.sramErr_setSram (s : State) (r : Sram) (m : Mem) : (s.setSram r m).sramErr = s.sramErr := by cases r <;> rfl

theorem State.setSram_sram (s : State) (r : Sram) : s.setSram r (s.sram r) = s := by cases r <;> rfl

theorem sramWriteWord_of_nil {s : State} (h : s.sramErr = []) (r : Sram) (ab : List (Nat × Byte)) :
    s.sramWriteWord r ab = (false, s.setSram r (writeBytes (s.sram r) ab)) := by
  have hclear (key : Nat) : Tab.set (fun _ => 0) s.sramErr key 0 = s.sramErr := by rw [h]; rfl
  simp [State.sramWriteWord, sramMark_of_nil h, hclear, writeBytes]

theorem sramWriteWords_of_nil (r : Sram) (gs : List (List (Nat × Byte))) {s : State} (h : s.sramErr = []) :
    s.sramWriteWords r gs = (false, s.setSram r (writeBytes (s.sram r) gs.flatten)) := by
  induction gs generalizing s with
  | nil => exact congrArg _ (State.setSram_sram s r).symm
  | cons g gs ih =>
    rw [State.sramWriteWords, sramWriteWord_of_nil h]
    refine (ih ((State.sramErr_setSram ..).trans h)).trans ?_
    rw [State.setSram_setSram, State.sram_setSram, List.flatten_cons, writeBytes, writeBytes, writeBytes, List.foldl_append]

theorem sramWrite_of_nil {s : State} (h : s.sramErr = []) (r : Sram) (ab : List (Nat × Byte)) :
    s.sramWrite r ab = (false, s.setSram r (writeBytes (s.sram r) ab)) := by
  rw [State.sramWrite, sramWriteWords_of_nil r _ h, splitWords_flatten]

/-- The array that a short address reaches. -/
def shortArray (a : Nat) : Sram := if isLocal a then .local else .store

/-- The flat address of byte i from a short address on. -/
def shortPlace (k a i : Nat) : Nat := if isLocal a then k * 2 ^ 15 + (a + i) % 2 ^ 15 else k / 100 * 2 ^ 21 + (a + i) % 2 ^ 21

theorem shortPlace_addrs (k a n : Nat) :
    (if isLocal a then localAddrs k (a % 2 ^ 15) n else storeAddrs (tkCell k) (a % 2 ^ 21) n) = (List.range n).map (shortPlace k a) := by
  unfold shortPlace localAddrs storeAddrs
  cases isLocal a
  · simp only [Bool.false_eq_true, if_false, Nat.mod_add_mod]; rfl
  · simp only [if_true, Nat.mod_add_mod]

theorem shortPlace_nodup (k a : Nat) {n : Nat} (hn : n ≤ 2 ^ 15) : ((List.range n).map (shortPlace k a)).Nodup := by
  refine List.Nodup.map_on (fun i hi j hj h => ?_) List.nodup_range
  have hi := List.mem_range.mp hi
  have hj := List.mem_range.mp hj
  unfold shortPlace at h
  split at h <;> omega

theorem shortBytes_eq (s : State) (k a n : Nat) :
    shortBytes s k a n = (List.range n).map (fun i => Mem.get (s.sram (shortArray a)) (shortPlace k a i)) := by
  unfold shortBytes shortArray shortPlace isLocal
  by_cases h : a % 2 ^ 22 < 2 ^ 21 <;> simp only [h, decide_true, decide_false, if_true, if_false, Bool.false_eq_true] <;> rfl

/-- The state after the wrap count of an access at a short address (R69). -/
def wrapCounted (s : State) (k a n : Nat) : State := if isLocal a then s else s.countWrap (tkCell k) (a % 2 ^ 21) n

theorem onlyRegs_refl (os : List Nat) (s : State) : OnlyRegs os s s := ⟨rfl, fun _ _ => rfl⟩

theorem onlyRegs_wrapCounted (s : State) (k a n : Nat) : OnlyRegs [Fd.cellWrapCnt.reg (k / 100) 0] s (wrapCounted s k a n) := by
  unfold wrapCounted State.countWrap State.bumpCell
  split
  · exact onlyRegs_refl ..
  · split
    · split
      · exact onlyRegs_refl ..
      · exact onlyRegs_bump s (List.mem_singleton_self _) _
    · exact onlyRegs_refl ..

/-- An access that divides the size of the cell store, at a multiple of its own size, passes no end. -/
theorem wrapCounted_aligned (s : State) (k : Nat) {a n : Nat} (hn : n ∣ 2 ^ 21) (ha : n ∣ a) : wrapCounted s k a n = s := by
  have hwraps : wraps (a % 2 ^ 21) n = false := by
    obtain ⟨q, hq⟩ := (Nat.dvd_mod_iff hn).mpr ha
    obtain ⟨m, hm⟩ := hn
    have hlt : a % 2 ^ 21 < 2 ^ 21 := Nat.mod_lt _ (by decide)
    have hqm : q < m := Nat.lt_of_mul_lt_mul_left (a := n) (by rw [← hq, ← hm]; exact hlt)
    have hle : n * (q + 1) ≤ n * m := Nat.mul_le_mul_left _ hqm
    refine decide_eq_false ?_
    rw [Nat.mod_mod, hq, hm, not_lt]
    rwa [Nat.mul_succ] at hle
  unfold wrapCounted State.countWrap
  rw [hwraps, if_neg Bool.false_ne_true, ite_self]

theorem sram_wrapCounted (s : State) (k a n : Nat) (r : Sram) : (wrapCounted s k a n).sram r = s.sram r := by
  rw [(onlyRegs_wrapCounted s k a n).1]
  cases r <;> rfl

theorem sramErr_wrapCounted (s : State) (k a n : Nat) : (wrapCounted s k a n).sramErr = s.sramErr := by
  rw [(onlyRegs_wrapCounted s k a n).1]

theorem tinker_wrapCounted (s : State) (k a n j : Nat) : (wrapCounted s k a n).tinker j = s.tinker j := by
  rw [(onlyRegs_wrapCounted s k a n).1]; rfl

theorem shortRead_of_nil {s : State} (h : s.sramErr = []) (k a n : Nat) :
    s.shortRead k a n = (shortBytes s k a n, false, wrapCounted s k a n) := by
  have hread : s.shortRead k a n = (wrapCounted s k a n).sramRead (shortArray a)
      (if isLocal a then localAddrs k (a % 2 ^ 15) n else storeAddrs (tkCell k) (a % 2 ^ 21) n) := by
    unfold State.shortRead wrapCounted shortArray
    cases isLocal a <;> rfl
  rw [hread, shortPlace_addrs, sramRead_of_nil ((sramErr_wrapCounted ..).trans h), sram_wrapCounted, List.map_map, shortBytes_eq]
  rfl

/-- The bytes of a list that are there, with their addresses. -/
def placedBytes (k a : Nat) (bs : List (Option Byte)) : List (Nat × Byte) :=
  (List.range bs.length).filterMap (fun i => (bs.getD i none).map (shortPlace k a i, ·))

theorem zip_range_map {α β : Type} (f : Nat → α) (d : β) (bs : List β) :
    ((List.range bs.length).map f).zip bs = (List.range bs.length).map (fun i => (f i, bs.getD i d)) :=
  List.ext_getElem (by simp) fun i hi _ => by
    have hi : i < bs.length := by simpa using hi
    simp [List.getD_eq_getElem?_getD, hi]

/-- A state in which some bytes from a short address on have been written. -/
def shortStore (s : State) (k a : Nat) (bs : List (Option Byte)) : State :=
  (wrapCounted s k a bs.length).setSram (shortArray a) (writeBytes (s.sram (shortArray a)) (placedBytes k a bs))

theorem shortWrite_of_nil {s : State} (h : s.sramErr = []) (k a : Nat) (bs : List (Option Byte)) :
    s.shortWrite k a bs.length bs = (false, shortStore s k a bs) := by
  have hplaced : (((if isLocal a then localAddrs k (a % 2 ^ 15) bs.length else storeAddrs (tkCell k) (a % 2 ^ 21) bs.length).zip bs).filterMap
      (fun p => p.2.map (fun b => (p.1, b)))) = placedBytes k a bs := by
    rw [shortPlace_addrs, zip_range_map _ none, List.filterMap_map]
    rfl
  unfold State.shortWrite
  dsimp only
  rw [hplaced]
  refine (sramWrite_of_nil (s := wrapCounted s k a bs.length) ((sramErr_wrapCounted ..).trans h) _ _).trans ?_
  rw [sram_wrapCounted]
  rfl

theorem get_shortStore (s : State) (k : Nat) {a : Nat} {bs : List (Option Byte)} (hn : bs.length ≤ 2 ^ 15) (x : Nat) :
    Mem.get ((shortStore s k a bs).sram (shortArray a)) x =
      (((List.range bs.length).find? (fun i => decide (x = shortPlace k a i))).bind (fun i => bs.getD i none)).getD
        (Mem.get (s.sram (shortArray a)) x) := by
  rw [shortStore, State.sram_setSram]
  exact get_writeBytes _ (shortPlace_nodup k a hn) _ x

theorem sram_shortStore_other (s : State) (k a : Nat) (bs : List (Option Byte)) {r : Sram} (hr : r ≠ shortArray a) :
    (shortStore s k a bs).sram r = s.sram r := by
  rw [shortStore, State.sram_setSram_other _ hr, sram_wrapCounted]

theorem shortIndex_eq (loc : Bool) (k a n x : Nat) : shortIndex loc k a n x =
    if loc = isLocal a then (List.range n).find? (fun i => decide (x = shortPlace k a i)) else none := by
  unfold shortIndex shortPlace
  rw [show decide (a % 2 ^ 22 < 2 ^ 21) = isLocal a from rfl]
  cases loc <;> cases isLocal a <;> simp

theorem shortStored_shortStore (s : State) (k : Nat) {a : Nat} {bs : List (Option Byte)} (hn : bs.length ≤ 2 ^ 15) :
    ShortStored k a bs s (shortStore s k a bs) := by
  intro x
  have hget := get_shortStore s k (a := a) hn x
  have hother := fun r => sram_shortStore_other s k a bs (r := r)
  simp only [shortIndex_eq]
  unfold shortArray at hget hother
  cases hloc : isLocal a with
  | true =>
    rw [hloc] at hget hother
    exact ⟨hget, congrArg (Mem.get · x) (hother .store (by decide))⟩
  | false =>
    rw [hloc] at hget hother
    exact ⟨congrArg (Mem.get · x) (hother .local (by decide)), hget⟩

/-! ## Loads and stores at a short address (R90) -/

theorem shortAddr_eq (t : Tinker) (base : BitVec 5) (off : BitVec 13) (n : Nat) :
    t.shortAddr base off n = (BitVec.ofInt 32 ((t.gr base.toNat).toInt + off.toInt)).toNat / n * n := by
  rw [Tinker.shortAddr, word_add_signExtend]

theorem ofLe_eq_sum (bs : List Byte) : ofLe bs = ((List.range bs.length).map (fun i => (bs.getD i 0).toNat * 256 ^ i)).sum := by
  induction bs with
  | nil => rfl
  | cons b bs ih =>
    rw [ofLe, ih, List.length_cons, List.range_succ_eq_map, List.map_cons, List.sum_cons, List.map_map, ← List.sum_map_mul_left]
    congr 1
    · simp
    · refine congrArg List.sum (List.map_congr_left fun i _ => ?_)
      simp only [Function.comp_apply, List.getD_cons_succ, pow_succ]
      ring

theorem ofLe_lt (bs : List Byte) : ofLe bs < 2 ^ (8 * bs.length) := by
  induction bs with
  | nil => exact Nat.one_pos
  | cons b bs ih =>
    rw [ofLe, List.length_cons, Nat.mul_succ, Nat.pow_add]
    have := b.isLt
    omega

theorem extendLoad_eq (u : Bool) (bs : List Byte) (h : bs ≠ []) : extendLoad u bs = loaded u bs := by
  have hval : (List.range bs.length).foldl (fun x i => x + (bs.getD i 0).toNat * 256 ^ i) 0 = ofLe bs := by
    rw [ofLe_eq_sum, List.sum_eq_foldl, List.foldl_map]
  have hlen : 0 < bs.length := List.length_pos_iff.mpr h
  have hpow : 2 ^ (8 * bs.length) = 2 * 2 ^ (8 * bs.length - 1) := by
    rw [← Nat.pow_succ', show (8 * bs.length - 1).succ = 8 * bs.length by omega]
  unfold extendLoad loaded toSigned
  simp only [hval, Nat.mod_eq_of_lt (ofLe_lt bs)]
  cases u with
  | true => simp
  | false =>
    by_cases hv : ofLe bs < 2 ^ (8 * bs.length - 1)
    · have hbit : ¬2 ^ (8 * bs.length) ≤ 2 * ofLe bs := by omega
      simp only [Bool.false_eq_true, false_or, hv, hbit, if_true, if_false]
      exact BitVec.ofInt_natCast ..
    · have hbit : 2 ^ (8 * bs.length) ≤ 2 * ofLe bs := by omega
      simp only [Bool.false_eq_true, false_or, hv, hbit, if_true, if_false]

theorem leBytes_eq (n v : Nat) : leBytes n v = (List.range n).map (fun i => BitVec.ofNat 8 (v / 256 ^ i)) := by
  induction n generalizing v with
  | zero => rfl
  | succ n ih =>
    rw [leBytes, ih, List.range_succ_eq_map, List.map_cons, List.map_map, Nat.pow_zero, Nat.div_one]
    refine congrArg _ (List.map_congr_left fun i _ => ?_)
    rw [Function.comp_apply, Nat.div_div_eq_div_mul, Nat.pow_succ']

/-- A width of an access divides the size of the cell store. -/
theorem widthBytes_dvd (w : BitVec 2) : widthBytes w ∣ 2 ^ 21 := pow_dvd_pow 2 (by omega)

theorem loadReadsTheShortAddress : LoadReadsTheShortAddress := by
  intro k rd base w u off s hrun hw herr n a
  have hbytes : shortBytes s k a n ≠ [] := by
    simp [shortBytes, n]
  have hload : s.doLoad k rd base w u off = s.setTinker k (((s.tinker k).setG rd.toNat (loaded u (shortBytes s k a n))).advance 4) := by
    simp only [State.doLoad, shortAddr_eq, shortRead_of_nil herr, Bool.false_eq_true, if_false,
      wrapCounted_aligned s k (widthBytes_dvd w) (Nat.dvd_mul_left ..), ← extendLoad_eq u _ hbytes]
    rfl
  have hexec : exec (.load k rd base w u off) s = .next (s.doLoad k rd base w u off) :=
    exec_of_tkExec (f := fun z => z.doLoad k rd base w u off) rfl hrun (decide_eq_true hw)
  exact exists_onlyTinker (hexec.trans (congrArg _ hload)) (writesG_advance ..)

theorem doStore_of_nil {s : State} (h : s.sramErr = []) (k : Nat) (rs base : BitVec 5) (w : BitVec 2) (off : BitVec 13) :
    s.doStore k rs base w off = (shortStore s k ((s.tinker k).shortAddr base off (widthBytes w))
      ((leBytes (widthBytes w) ((s.tinker k).gr rs.toNat).toNat).map some)).onTinker k (·.advance 4) := by
  have hwrite := shortWrite_of_nil h k ((s.tinker k).shortAddr base off (widthBytes w))
    ((leBytes (widthBytes w) ((s.tinker k).gr rs.toNat).toNat).map some)
  rw [List.length_map, Laws.le_bytes_length] at hwrite
  unfold State.doStore
  dsimp only
  rw [hwrite]
  rfl

theorem tinker_shortStore (s : State) (k a : Nat) (bs : List (Option Byte)) (j : Nat) : (shortStore s k a bs).tinker j = s.tinker j := by
  rw [← tinker_wrapCounted s k a bs.length, shortStore]
  cases shortArray a <;> rfl

theorem storeWritesTheShortAddress : StoreWritesTheShortAddress := by
  intro k rs base w u off s hrun hw herr n a
  let bs : List (Option Byte) := (List.range n).map (fun i => some (BitVec.ofNat 8 (((s.tinker k).gr rs.toNat).toNat / 256 ^ i)))
  have hlen : bs.length = n := by simp [bs]
  have hbs : (leBytes n ((s.tinker k).gr rs.toNat).toNat).map some = bs := by rw [leBytes_eq, List.map_map]; rfl
  have hstate : wrapCounted s k a bs.length = s := by
    rw [hlen]
    exact wrapCounted_aligned s k (widthBytes_dvd w) (Nat.dvd_mul_left ..)
  have hstore : s.doStore k rs base w off = (shortStore s k a bs).onTinker k (·.advance 4) := by
    rw [doStore_of_nil herr, shortAddr_eq, ← hbs]
    rfl
  have hexec : exec (.store k rs base w u off) s = .next (s.doStore k rs base w off) :=
    exec_of_tkExec (f := fun z => z.doStore k rs base w off) rfl hrun (decide_eq_true hw)
  refine ⟨_, hexec.trans (congrArg _ hstore), ?_, fun j hj => ?_, ?_, ?_⟩
  · rw [shortStore, hstate]
    unfold shortArray
    cases isLocal a <;> rfl
  · rw [State.onTinker, State.tinker_set_other _ _ hj, tinker_shortStore]
  · rw [State.onTinker, State.tinker_set_self, tinker_shortStore]
    exact movesPc_advance ..
  · have hn : n ≤ 2 ^ 15 := Nat.pow_le_pow_right (by decide) (by omega)
    exact shortStored_shortStore s k (hlen.trans_le hn)

/-- Settles O56: a read maps, and a write folds over, the distinct places of its bytes. -/
theorem shortAccessesReadAndWriteTheirBytes : Obligations.ShortAccessesReadAndWriteTheirBytes :=
  ⟨loadReadsTheShortAddress, storeWritesTheShortAddress⟩

/-! ## Vector accesses at a short address (R91) -/

/-- A part of a byte string, byte by byte. -/
theorem sliceB_eq (bs : List Byte) (o n : Nat) : sliceB bs o n = (List.range n).map (fun j => bs.getD (o + j) 0) := by
  have hlen : (sliceB bs o n).length = n := by simp [sliceB]
  refine List.ext_getElem (by rw [hlen, List.length_map, List.length_range]) fun i hi _ => ?_
  rw [hlen] at hi
  simp only [sliceB, List.getElem_append, List.getElem_map, List.getElem_range, List.getElem_take, List.getElem_drop,
    List.getElem_replicate, List.getD_eq_getElem?_getD]
  split
  next h => rw [List.getElem?_eq_getElem, Option.getD_some]
  next h =>
    rw [List.getElem?_eq_none, Option.getD_none]
    simp only [List.length_take, List.length_drop] at h
    omega

theorem fieldB_congr {bs cs : List Byte} {o n : Nat} (h : ∀ j, j < n → bs.getD (o + j) 0 = cs.getD (o + j) 0) :
    fieldB bs o n = fieldB cs o n := by
  rw [fieldB, fieldB, sliceB_eq, sliceB_eq, List.map_congr_left fun j hj => h j (List.mem_range.mp hj)]

/-- The code of a lane depends on the bytes alone that it reaches. -/
theorem vmCode_congr {fmt : Nat} (hfmt : fmt ≤ 3) {bs cs : List Byte} {i : Nat} (h : ∀ j, i ∈ lanesOfByte fmt j → bs.getD j 0 = cs.getD j 0) :
    vmCode fmt bs i = vmCode fmt cs i := by
  unfold lanesOfByte at h
  unfold vmCode
  obtain rfl | rfl | rfl | rfl : fmt = 0 ∨ fmt = 1 ∨ fmt = 2 ∨ fmt = 3 := by omega
  · exact fieldB_congr fun j hj => h _ (by simp; omega)
  · have hbyte := fieldB_congr (o := i / 2) (n := 1) fun j hj => h (i / 2 + j) (by simp; omega)
    show fieldB bs (i / 2) 1 / 16 ^ (i % 2) % 16 = fieldB cs (i / 2) 1 / 16 ^ (i % 2) % 16
    rw [hbyte]
  · exact fieldB_congr fun j hj => h _ (by simp; omega)
  · exact fieldB_congr fun j hj => h _ (by simp; omega)

/-- The bytes of the active lanes at a short address; other bytes are not read. -/
def activeRead (s : State) (k a fmt : Nat) (p : BitVec 8) : List Byte :=
  (List.range (vmBytes fmt)).map fun i => if i ∈ activeBytes fmt p then Mem.get (s.sram (shortArray a)) (shortPlace k a i) else 0

theorem find_zip_map {β : Type} (g : Nat → β) (l : List Nat) (i : Nat) :
    (l.zip (l.map g)).find? (fun x => decide (x.1 = i)) = if i ∈ l then some (i, g i) else none := by
  induction l with
  | nil => rfl
  | cons j l ih =>
    rw [List.map_cons, List.zip_cons_cons, List.find?_cons, ih]
    by_cases hj : j = i
    · simp [hj]
    · simp [hj, Ne.symm hj]

theorem vectorRead_of_nil {s : State} (h : s.sramErr = []) (k a fmt : Nat) (p : BitVec 8) :
    s.vectorRead k a fmt p = (activeRead s k a fmt p, false, if activeBytes fmt p = [] then s else wrapCounted s k a (vmBytes fmt)) := by
  have hz : (if isLocal a ∨ activeBytes fmt p = [] then s else s.countWrap (tkCell k) (a % 2 ^ 21) (vmBytes fmt)) =
      if activeBytes fmt p = [] then s else wrapCounted s k a (vmBytes fmt) := by
    unfold wrapCounted
    cases isLocal a <;> by_cases hn : activeBytes fmt p = [] <;> simp [hn]
  unfold State.vectorRead
  dsimp only
  rw [hz, shortPlace_addrs]
  generalize hzz : (if activeBytes fmt p = [] then s else wrapCounted s k a (vmBytes fmt)) = z
  have hsram (r : Sram) : z.sram r = s.sram r := by
    rw [← hzz]
    split
    · rfl
    · exact sram_wrapCounted ..
  have herr : z.sramErr = [] := by
    rw [← hzz]
    split
    · exact h
    · exact (sramErr_wrapCounted ..).trans h
  have hplace : (activeBytes fmt p).map (fun i => ((List.range (vmBytes fmt)).map (shortPlace k a)).getD i 0) =
      (activeBytes fmt p).map (shortPlace k a) := List.map_congr_left fun i hi => by
    have hi := List.mem_range.mp (List.mem_filter.mp hi).1
    simp [hi]
  rw [sramRead_of_nil herr, hplace, hsram, List.map_map]
  simp only [find_zip_map]
  refine congrArg (·, false, z) (List.map_congr_left fun i _ => ?_)
  by_cases hi : i ∈ activeBytes fmt p
  · simp only [if_pos hi]
    rfl
  · simp only [if_neg hi]

/-- The bytes that an active lane reaches are read. -/
theorem activeRead_of_lane {s : State} {k a fmt : Nat} {p : BitVec 8} {i j : Nat} (hj : j < vmBytes fmt) (hi : i ∈ lanesOfByte fmt j)
    (hact : p.getLsbD i = true) : (activeRead s k a fmt p).getD j 0 = (shortBytes s k a (vmBytes fmt)).getD j 0 := by
  have hmem : j ∈ activeBytes fmt p := List.mem_filter.mpr ⟨List.mem_range.mpr hj, List.any_eq_true.mpr ⟨i, hi, hact⟩⟩
  simp [activeRead, shortBytes_eq, hj, hmem]

/-- Reading the code of an active lane. -/
theorem vmCode_activeRead (s : State) (k a : Nat) {fmt : Nat} (hfmt : fmt ≤ 3) {p : BitVec 8} {i : Nat} (hi : i < 8)
    (hact : p.getLsbD i = true) : vmCode fmt (activeRead s k a fmt p) i = vmCode fmt (shortBytes s k a (vmBytes fmt)) i := by
  refine vmCode_congr hfmt fun j hj => activeRead_of_lane ?_ hj hact
  obtain rfl | rfl | rfl | rfl : fmt = 0 ∨ fmt = 1 ∨ fmt = 2 ∨ fmt = 3 := by omega
  all_goals
    simp [lanesOfByte] at hj
    simp [vmBytes]
    omega

theorem vmLoadLane_flags (fmt : Nat) (k : Int) (code : Nat) : (vmLoadLane fmt k code).f = 0 := by
  unfold vmLoadLane
  split <;> rfl

theorem addFlags_zero (t : Tinker) : t.addFlags 0 = t := by simp [Tinker.addFlags]

theorem putVector_eq (t : Tinker) (vd pg fmt : Nat) (k : Int) (bs : List Byte) :
    t.putVector vd pg fmt k bs = runLanes vd (fun i => vmLoadLane fmt k (vmCode fmt bs i)) (activeLanes (t.pr pg)) t := by
  rw [runLanes, activeLanes, List.foldl_filter, Tinker.putVector]
  congr 1
  funext z i
  rw [vmLoadLane_flags, addFlags_zero]
  rfl

theorem foldl_or_zero {ι : Type} (l : List ι) (c : Word) : l.foldl (fun c _ => c ||| (0 : FpFlags).setWidth 32) c = c := by
  induction l with
  | nil => rfl
  | cons _ l ih => rw [List.foldl_cons, show c ||| (0 : FpFlags).setWidth 32 = c from BitVec.or_zero, ih]

/-- A vector load changes the vector registers and the counts. -/
theorem putVector_frame (t : Tinker) (vd pg fmt : Nat) (k : Int) (bs : List Byte) :
    let u := t.putVector vd pg fmt k bs
    u = { t with v := u.v, satc := u.satc, flsc := u.flsc, narc := u.narc } := by
  intro u
  have hframe : u = _ := (putVector_eq t vd pg fmt k bs).trans (runLanes_frame ..)
  rw [hframe, noteLanes_eq]
  simp only [List.foldl_map, vmLoadLane_flags, foldl_or_zero]

theorem toSigned_eq (w n : Nat) : toSigned w n = (BitVec.ofNat w n).toInt := by
  rw [BitVec.toInt_eq_toNat_cond, BitVec.toNat_ofNat]
  simp only [toSigned]
  split
  next h => rw [if_neg (by omega)]; simp
  next h => rw [if_pos (by omega)]

/-- The exponent of a vector access (R93). -/
theorem kOf_eq (t : Tinker) (rk : BitVec 5) : t.kOf rk = (BitVec.ofNat 8 (t.gr rk.toNat).toNat).toInt := by
  rw [Tinker.kOf, toSigned_eq]
  refine congrArg _ (BitVec.eq_of_toNat_eq ?_)
  rw [BitVec.toNat_ofNat, BitVec.toNat_ofNat, Nat.mod_mod]

theorem vectorShort_eq (t : Tinker) (base : BitVec 5) (off : BitVec 4) (n : Nat) :
    t.vectorShort base off n = (BitVec.ofInt 32 ((t.gr base.toNat).toInt + off.toInt * n)).toNat := by
  rw [Tinker.vectorShort, BitVec.ofInt_add, BitVec.ofInt_toInt]

theorem doVld_of_nil {s : State} (h : s.sramErr = []) (k : Nat) {vd : BitVec 5} (hvd : vd.toNat < 16) (base rk : BitVec 5) (pg fmt : BitVec 3)
    (off : BitVec 4) :
    let t := s.tinker k
    let n := vmBytes fmt.toNat
    let a := t.vectorShort base off n
    let p := t.pr pg.toNat
    s.doVld k vd base rk pg fmt false off = (if activeBytes fmt.toNat p = [] then s else wrapCounted s k a n).setTinker k
      ((t.putVector vd.toNat pg.toNat fmt.toNat (t.kOf rk) (activeRead s k a fmt.toNat p)).advance 4) := by
  intro t n a p
  unfold State.doVld
  dsimp only
  rw [vectorRead_of_nil h, vnum_eq hvd]
  have htk : (if activeBytes fmt.toNat p = [] then s else wrapCounted s k a n).tinker k = t := by
    split
    · rfl
    · exact tinker_wrapCounted ..
  simp only [Bool.false_eq_true, if_false, State.onTinker]
  rw [htk]

theorem vectorLoadFillsActiveLanes : VectorLoadFillsActiveLanes := by
  intro k vd base rk pg fmt off s hrun hvd hfmt herr a n bs
  have hexec : exec (.vld k vd base rk pg fmt false off) s = .next (s.doVld k vd base rk pg fmt false off) :=
    exec_of_tkExec (f := fun z => z.doVld k vd base rk pg fmt false off) rfl hrun (by simp [wellFormed, vreg, hvd, hfmt])
  have haddr : a.vectorShort base off n = (BitVec.ofInt 32 ((a.gr base.toNat).toInt + off.toInt * n)).toNat := vectorShort_eq ..
  have hact : ∀ i ∈ activeLanes (a.pr pg.toNat), i < 8 := fun i hi => (mem_activeLanes.mp hi).1
  have hregs : OnlyRegs [Fd.cellWrapCnt.reg (k.val / 100) 0] s
      (if activeBytes fmt.toNat (a.pr pg.toNat) = [] then s else wrapCounted s k (a.vectorShort base off n) n) := by
    split
    · exact onlyRegs_refl ..
    · exact onlyRegs_wrapCounted ..
  refine ⟨_, hexec.trans (congrArg _ (doVld_of_nil herr k hvd base rk pg fmt off)), ?_⟩
  obtain ⟨hz, hreg⟩ := hregs
  have hframe := putVector_frame a vd.toNat pg.toNat fmt.toNat (a.kOf rk) (activeRead s k (a.vectorShort base off n) fmt.toNat (a.pr pg.toNat))
  rw [State.tinker_set_self]
  refine ⟨?_, fun o ho => ?_, fun j hj => ?_, ?_, ?_, ?_, ?_, fun i hi => ?_, fun r i hr hi => ?_⟩
  · rw [hz]; rfl
  · exact hreg o (by simpa using ho)
  · rw [State.tinker_set_other _ _ hj, hz]; rfl
  · exact (congrArg (·.pc + 4) hframe :)
  · exact (congrArg Tinker.g hframe :)
  · exact (congrArg Tinker.p hframe :)
  · exact (congrArg Tinker.cstat hframe :)
  · rw [Tinker.vr_advance, putVector_eq, vr_runLanes hact _ _ hi, kOf_eq, haddr]
    simp only [true_and, mem_activeLanes, hi]
    split
    next h => rw [vmCode_activeRead s k _ hfmt hi h]
    next h => rfl
  · rw [Tinker.vr_advance, putVector_eq, vr_runLanes hact _ _ hi, if_neg fun h => hr h.1]

/-- What the active lanes of a vector store give. -/
def laneCodes (t : Tinker) (vs pg fmt : Nat) (k : Int) (i : Nat) : Option Nat :=
  if (t.pr pg).getLsbD i then some (vmStoreLane fmt k t.trim (t.vr vs i)).1 else none

theorem getD_storeLanes (t : Tinker) (vs pg fmt : Nat) (k : Int) {i : Nat} (hi : i < 8) :
    (t.storeLanes vs pg fmt k).1.getD i none = laneCodes t vs pg fmt k i := by
  simp only [Tinker.storeLanes, List.map_map, List.getD_eq_getElem?_getD, List.getElem?_map, List.getElem?_range hi, Option.map_some,
    Option.getD_some, Function.comp_apply, active, laneCodes]
  by_cases h : (t.pr pg).getLsbD i = true <;> simp [h]

theorem getD_le_bytes {n i : Nat} (hi : i < n) (v : Nat) : (leBytes n v).getD i 0 = BitVec.ofNat 8 (v / 256 ^ i) := by
  simp [leBytes_eq, hi]

/-- The bytes of lanes of four, one and two bytes (R91). -/
theorem laneBytes_word {l : List (Option Nat)} {lane : Nat → Option Nat} (h : ∀ i < 8, l.getD i none = lane i) (old : List Byte) :
    laneBytes 0 l old = (List.range 32).map (fun i => (lane (i / 4)).map (fun v => BitVec.ofNat 8 (v / 256 ^ (i % 4)))) := by
  refine List.map_congr_left fun i hi => ?_
  dsimp only
  rw [h _ (by have := List.mem_range.mp hi; omega)]
  simp only [getD_le_bytes (Nat.mod_lt i (by decide : 0 < 4))]

theorem laneBytes_byte {l : List (Option Nat)} {lane : Nat → Option Nat} (h : ∀ i < 8, l.getD i none = lane i) (old : List Byte) :
    laneBytes 2 l old = (List.range 8).map (fun i => (lane i).map (fun v => BitVec.ofNat 8 v)) :=
  List.map_congr_left fun i hi => congrArg _ (h i (List.mem_range.mp hi))

theorem laneBytes_half {l : List (Option Nat)} {lane : Nat → Option Nat} (h : ∀ i < 8, l.getD i none = lane i) (old : List Byte) :
    laneBytes 3 l old = (List.range 16).map (fun i => (lane (i / 2)).map (fun v => BitVec.ofNat 8 (v / 256 ^ (i % 2)))) := by
  refine List.map_congr_left fun i hi => ?_
  dsimp only
  rw [h _ (by have := List.mem_range.mp hi; omega)]
  simp only [getD_le_bytes (Nat.mod_lt i (by decide : 0 < 2))]

/-- The bytes of lanes of four bits: a byte of which one lane is active keeps the other half of the old one (R91). -/
theorem laneBytes_nibble {l : List (Option Nat)} {lane : Nat → Option Nat} (h : ∀ i < 8, l.getD i none = lane i) {old bs : List Byte}
    (hold : ∀ j < 4, ¬(lane (2 * j) = none ∧ lane (2 * j + 1) = none) → old.getD j 0 = bs.getD j 0) :
    laneBytes 1 l old = (List.range 4).map (fun j => if lane (2 * j) = none ∧ lane (2 * j + 1) = none then none else
      let o := (bs.getD j 0).toNat
      some (BitVec.ofNat 8 ((lane (2 * j)).getD o % 16 + 16 * ((lane (2 * j + 1)).getD (o / 16) % 16)))) := by
  refine List.map_congr_left fun j hj => ?_
  have hj := List.mem_range.mp hj
  have hold := hold j hj
  dsimp only
  rw [h _ (by omega), h _ (by omega)]
  cases ha : lane (2 * j) <;> cases hb : lane (2 * j + 1) <;> simp_all

/-- A state after a vector store of some bytes: of none, nothing happens. -/
def vectorStore (s : State) (k a : Nat) (bs : List (Option Byte)) : State := if bs.all (·.isNone) then s else shortStore s k a bs

theorem vectorStore_eq {s : State} (h : s.sramErr = []) (k a : Nat) {n : Nat} {bs : List (Option Byte)} (hn : bs.length = n) :
    (if bs.all (·.isNone) then (false, s) else s.shortWrite k a n bs) = (false, vectorStore s k a bs) := by
  rw [← hn, shortWrite_of_nil h]
  unfold vectorStore
  split <;> rfl

theorem vmBytes_le (fmt : Nat) : vmBytes fmt ≤ 32 := by
  unfold vmBytes
  split_ifs <;> decide

theorem length_laneBytes {fmt : Nat} (hfmt : fmt ≤ 3) (l : List (Option Nat)) (old : List Byte) :
    (laneBytes fmt l old).length = vmBytes fmt := by
  obtain rfl | rfl | rfl | rfl : fmt = 0 ∨ fmt = 1 ∨ fmt = 2 ∨ fmt = 3 := by omega
  all_goals simp [laneBytes, vmBytes]

theorem tinker_vectorStore (s : State) (k a : Nat) (bs : List (Option Byte)) (j : Nat) : (vectorStore s k a bs).tinker j = s.tinker j := by
  unfold vectorStore
  split
  · rfl
  · exact tinker_shortStore ..

theorem doVst_of_nil {s : State} (h : s.sramErr = []) (k : Nat) {vd : BitVec 5} (hvd : vd.toNat < 16) (base rk : BitVec 5) {pg fmt : BitVec 3}
    (hfmt : fmt.toNat ≤ 3) (off : BitVec 4) :
    let t := s.tinker k
    let n := vmBytes fmt.toNat
    let a := t.vectorShort base off n
    let l := t.storeLanes vd.toNat pg.toNat fmt.toNat (t.kOf rk)
    let old := if fmt.toNat = 1 then activeRead s k a 1 (t.pr pg.toNat) else []
    s.doVst k vd base rk pg fmt false off = (vectorStore s k a (laneBytes fmt.toNat l.1 old)).setTinker k ((t.addCounts l.2).advance 4) := by
  intro t n a l old
  have hold : (if fmt.toNat = 1 then s.vectorRead k a 1 (t.pr pg.toNat) else ([], false, s)) =
      (old, false, (if fmt.toNat = 1 then s.vectorRead k a 1 (t.pr pg.toNat) else ([], false, s)).2.2) := by
    simp only [vectorRead_of_nil h, old]
    split <;> rfl
  have hstore := vectorStore_eq h k a (length_laneBytes hfmt l.1 old)
  unfold State.doVst
  dsimp only
  rw [vnum_eq hvd, hold]
  dsimp only
  rw [hstore]
  simp only [Bool.false_eq_true, if_false, State.onTinker, tinker_vectorStore]
  rfl

theorem onlyShort_shortStore (s : State) (k a : Nat) (bs : List (Option Byte)) :
    shortStore s k a bs = { s with
      regs := (shortStore s k a bs).regs, locals := (shortStore s k a bs).locals, stores := (shortStore s k a bs).stores } := by
  unfold shortStore shortArray
  rw [(onlyRegs_wrapCounted s k a bs.length).1]
  cases isLocal a <;> rfl

theorem reg_shortStore (s : State) (k a : Nat) (bs : List (Option Byte)) {o : Nat} (ho : o ≠ Fd.cellWrapCnt.reg (k / 100) 0) :
    (shortStore s k a bs).reg o = s.reg o := by
  rw [← (onlyRegs_wrapCounted s k a bs.length).2 o (by simpa using ho), shortStore]
  cases shortArray a <;> rfl

theorem onlyShort_vectorStore (s : State) (k a : Nat) (bs : List (Option Byte)) :
    vectorStore s k a bs = { s with
      regs := (vectorStore s k a bs).regs, locals := (vectorStore s k a bs).locals, stores := (vectorStore s k a bs).stores } := by
  unfold vectorStore
  split
  · rfl
  · exact onlyShort_shortStore ..

theorem reg_vectorStore (s : State) (k a : Nat) (bs : List (Option Byte)) {o : Nat} (ho : o ≠ Fd.cellWrapCnt.reg (k / 100) 0) :
    (vectorStore s k a bs).reg o = s.reg o := by
  unfold vectorStore
  split
  · rfl
  · exact reg_shortStore s k a bs ho

theorem shortStored_vectorStore (s : State) (k : Nat) {a : Nat} {bs : List (Option Byte)} (hn : bs.length ≤ 2 ^ 15) :
    ShortStored k a bs s (vectorStore s k a bs) := by
  unfold vectorStore
  split
  next hall =>
    have hnone (i : Nat) : bs.getD i none = none := by
      rw [List.getD_eq_getElem?_getD]
      cases hb : bs[i]? with
      | none => rfl
      | some b => simpa using List.all_eq_true.mp hall b (List.mem_of_getElem? hb)
    intro x
    simp only [hnone, Option.bind_fun_none, Option.getD_none, and_self]
  next => exact shortStored_shortStore s k hn

theorem vectorStoreWritesActiveLanes : VectorStoreWritesActiveLanes := by
  intro k vd base rk pg fmt off s hrun hvd hfmt herr a n x lane
  have hexec : exec (.vst k vd base rk pg fmt false off) s = .next (s.doVst k vd base rk pg fmt false off) :=
    exec_of_tkExec (f := fun z => z.doVst k vd base rk pg fmt false off) rfl hrun (by simp [wellFormed, vreg, hvd, hfmt])
  have haddr : a.vectorShort base off n = x := vectorShort_eq ..
  have hlane : ∀ i < 8, (a.storeLanes vd.toNat pg.toNat fmt.toNat (a.kOf rk)).1.getD i none = lane i := fun i hi => by
    rw [getD_storeLanes _ _ _ _ _ hi, kOf_eq]; rfl
  refine ⟨_, hexec.trans (congrArg _ (doVst_of_nil herr k hvd base rk hfmt off)), ?_⟩
  rw [State.tinker_set_self]
  generalize hbs : laneBytes fmt.toNat (a.storeLanes vd.toNat pg.toNat fmt.toNat (a.kOf rk)).1
    (if fmt.toNat = 1 then activeRead s k (a.vectorShort base off n) 1 (a.pr pg.toNat) else []) = bs
  have hlen : bs.length ≤ 2 ^ 15 := by
    rw [← hbs, length_laneBytes hfmt]
    exact (vmBytes_le _).trans (by decide)
  have hstored : ShortStored k x bs s (vectorStore s k x bs) := shortStored_vectorStore s k hlen
  have hold : ∀ j < 4, ¬(lane (2 * j) = none ∧ lane (2 * j + 1) = none) →
      (activeRead s k x 1 (a.pr pg.toNat)).getD j 0 = (shortBytes s k x 4).getD j 0 := fun j hj hact => by
    obtain hact | hact := not_and_or.mp hact
    · exact activeRead_of_lane hj (i := 2 * j) (by simp [lanesOfByte]) (by_contra fun hp => hact (if_neg hp))
    · exact activeRead_of_lane hj (i := 2 * j + 1) (by simp [lanesOfByte]) (by_contra fun hp => hact (if_neg hp))
  rw [haddr] at hbs ⊢
  refine ⟨?_, fun o ho => reg_vectorStore s k x bs ho, fun j hj => ?_, rfl, rfl, rfl, rfl, fun hf => ?_, fun hf => ?_, fun hf => ?_, fun hf => ?_⟩
  · rw [onlyShort_vectorStore]; rfl
  · rw [State.tinker_set_other _ _ hj, tinker_vectorStore]
  · subst hf
    exact (hbs.symm.trans (laneBytes_word hlane _)) ▸ hstored
  · subst hf
    exact (hbs.symm.trans (laneBytes_nibble hlane hold)) ▸ hstored
  · subst hf
    exact (hbs.symm.trans (laneBytes_byte hlane _)) ▸ hstored
  · subst hf
    exact (hbs.symm.trans (laneBytes_half hlane _)) ▸ hstored

/-- Settles O57: lanes read and write the bytes that they reach, and these alone. -/
theorem vectorAccessesReadAndWriteActiveLanes : Obligations.VectorAccessesReadAndWriteActiveLanes :=
  ⟨vectorLoadFillsActiveLanes, vectorStoreWritesActiveLanes⟩

end Sys2Proof.Proofs
end

section
/-! PROOFS. Starting and stopping Tinkers by the RUN bits of their cell (R83). -/

namespace Sys2Proof.Proofs

open Sys2Proof Sys2Proof.Machine Sys2Proof.Claims

/-! ## The bits that byte enables name (R11) -/

/-- The bits of the first m bytes that byte enables name. -/
def lowByteMask (be : BitVec 8) (m : Nat) : Nat := ((List.range m).map (fun i => if be.getLsbD i then 0xFF * 2 ^ (8 * i) else 0)).sum

theorem lowByteMask_succ (be : BitVec 8) (m : Nat) :
    lowByteMask be (m + 1) = 2 ^ (8 * m) * (if be.getLsbD m then 0xFF else 0) + lowByteMask be m := by
  rw [lowByteMask, List.range_succ, List.map_append, List.sum_append, List.map_singleton, List.sum_singleton, Nat.add_comm, lowByteMask]
  split <;> simp [Nat.mul_comm]

theorem lowByteMask_lt (be : BitVec 8) (m : Nat) : lowByteMask be m < 2 ^ (8 * m) := by
  induction m with
  | zero => exact Nat.one_pos
  | succ m ih =>
    rw [lowByteMask_succ, Nat.mul_succ, Nat.pow_add]
    split <;> omega

theorem testBit_lowByteMask (be : BitVec 8) (m n : Nat) : (lowByteMask be m).testBit n = (decide (n < 8 * m) && be.getLsbD (n / 8)) := by
  induction m with
  | zero => simp [lowByteMask]
  | succ m ih =>
    rw [lowByteMask_succ, Nat.two_pow_add_eq_or_of_lt (lowByteMask_lt be m), Nat.testBit_or, ih, Nat.testBit_two_pow_mul]
    have hbyte : (if be.getLsbD m then 0xFF else 0 : Nat).testBit (n - 8 * m) = (decide (n - 8 * m < 8) && be.getLsbD m) := by
      cases be.getLsbD m with
      | false => simp
      | true => exact (Nat.testBit_two_pow_sub_one 8 _).trans (Bool.and_true _).symm
    rw [hbyte]
    by_cases hlt : n < 8 * m
    · simp [hlt, show ¬8 * m ≤ n by omega, show n < 8 * (m + 1) by omega]
    · by_cases hn : n < 8 * (m + 1)
      · simp [hn, hlt, show 8 * m ≤ n by omega, show n - 8 * m < 8 by omega, show n / 8 = m by omega]
      · simp [hn, hlt, show ¬n - 8 * m < 8 by omega]

theorem testBit_byteMask (be : BitVec 8) (n : Nat) : (byteMask be).testBit n = (decide (n < 64) && be.getLsbD (n / 8)) :=
  testBit_lowByteMask be 8 n

/-! ## One Tinker -/

/-- A halted Tinker that is started at an entry point; one with an access outstanding has not halted, and runs on. -/
def startedTinker (entry : Nat) (a : Tinker) : Tinker :=
  if a.outstanding then a else { a with
    pc := BitVec.ofNat 32 entry &&& ~~~3#32, cstat := a.cstat &&& 0x0000FFFF#32, fetched := [], wait := .none }

/-- A running Tinker that is stopped. -/
def stoppedTinker (a : Tinker) : Tinker :=
  match a.wait with
  | .access _ => a
  | _ => { a with wait := .none }

/-- A Tinker whose RUN bit was and now is something. -/
def runTinker (entry : Nat) (was now : Bool) (a : Tinker) : Tinker :=
  if was = now then a else if now then startedTinker entry a else stoppedTinker a

/-- The effect of a RUN bit that was and now is something. -/
def runStep (z : State) (k : Nat) (was now : Bool) : State :=
  if !was && now then z.startTinker k else if was && !now then z.stopTinker k else z

/-- A state with the same RUN bits and entry points that differs in its registers and Tinkers alone. -/
structure RunsAlike (z t : State) : Prop where
  frame : t = { z with regs := t.regs, tinkers := t.tinkers }
  running : ∀ j, t.running j = z.running j
  entry : ∀ c, t.fld Fd.cellTkEntry c = z.fld Fd.cellTkEntry c

theorem RunsAlike.refl (z : State) : RunsAlike z z := ⟨rfl, fun _ => rfl, fun _ => rfl⟩

theorem RunsAlike.trans {z t u : State} (h : RunsAlike z t) (h' : RunsAlike t u) : RunsAlike z u :=
  ⟨by rw [h'.frame, h.frame], fun j => (h'.running j).trans (h.running j), fun c => (h'.entry c).trans (h.entry c)⟩

theorem runsAlike_setTinker (z : State) (k : Nat) (x : Tinker) : RunsAlike z (z.setTinker k x) := ⟨rfl, fun _ => rfl, fun _ => rfl⟩

theorem tinker_setRun (z : State) (k j : Nat) (v : Bool) : (z.setRun k v).tinker j = z.tinker j := by rw [setRun_eq]; rfl

/-- A RUN bit set to what it is. -/
theorem runsAlike_setRun {z : State} {k : Nat} {v : Bool} (h : z.running k = v) : RunsAlike z (z.setRun k v) where
  frame := by rw [setRun_eq]; rfl
  running j := by
    rw [running_setRun]
    split
    next hj => rw [hj, h]
    next => rfl
  entry c := by
    rw [setRun_eq]
    refine fld_congr (State.reg_set_other _ _ ?_)
    rw [runField_reg]
    simp only [Field.reg, Fd.cellTkEntry, Blk.base]
    split <;> omega

theorem startTinker_eq (z : State) (k : Nat) : z.startTinker k = if (z.tinker k).outstanding then z.setRun k true
    else (z.setRun k true).setTinker k (startedTinker (z.fld Fd.cellTkEntry (k / 100)) (z.tinker k)) := by
  unfold State.startTinker startedTinker
  by_cases h : (z.tinker k).outstanding = true
  · simp only [h, if_true]
  · simp only [h, Bool.false_eq_true, if_false]; rfl

theorem stopTinker_eq (z : State) (k : Nat) : (∃ x, (z.tinker k).wait = .access x) ∧ z.stopTinker k = z.setRun k false ∨
    z.stopTinker k = (z.setRun k false).setTinker k (stoppedTinker (z.tinker k)) := by
  unfold State.stopTinker stoppedTinker
  dsimp only
  generalize (z.tinker k).wait = w
  cases w with
  | access x => exact .inl ⟨⟨x, rfl⟩, rfl⟩
  | _ => exact .inr rfl

theorem runStep_alike {z : State} {k : Nat} {was now : Bool} (h : z.running k = now) : RunsAlike z (runStep z k was now) := by
  have hset := runsAlike_setRun h
  unfold runStep
  cases was <;> cases now
  · exact .refl z
  · show RunsAlike z (z.startTinker k)
    rw [startTinker_eq]
    split
    · exact hset
    · exact hset.trans (runsAlike_setTinker ..)
  · rcases stopTinker_eq z k with ⟨-, he⟩ | he
    · exact he ▸ hset
    · exact he ▸ hset.trans (runsAlike_setTinker ..)
  · exact .refl z

theorem tinker_set_run_set (z : State) (k j : Nat) (v : Bool) (x : Tinker) :
    ((z.setRun k v).setTinker k x).tinker j = if j = k then x else z.tinker j := by
  by_cases hj : j = k
  · rw [if_pos hj, hj, State.tinker_set_self]
  · rw [if_neg hj, State.tinker_set_other _ _ hj, tinker_setRun]

theorem tinker_runStep (z : State) (k j : Nat) (was now : Bool) : (runStep z k was now).tinker j =
    if j = k then runTinker (z.fld Fd.cellTkEntry (k / 100)) was now (z.tinker k) else z.tinker j := by
  have hsame : z.tinker j = if j = k then z.tinker k else z.tinker j := by
    split
    next hj => rw [hj]
    next => rfl
  unfold runStep runTinker
  cases was <;> cases now
  · exact hsame
  · rw [startTinker_eq]
    by_cases hout : (z.tinker k).outstanding = true
    · simp [hout, tinker_setRun, startedTinker, ← hsame]
    · simp [hout, tinker_set_run_set]
  · rcases stopTinker_eq z k with ⟨⟨x, hx⟩, he⟩ | he
    · simp [he, tinker_setRun, stoppedTinker, hx, ← hsame]
    · simp [he, tinker_set_run_set]
  · exact hsame

/-! ## The Tinkers of a register -/

/-- The effects of the first n RUN bits of a register whose first Tinker is number f of the module. -/
def runSteps (z : State) (f old new n : Nat) : State :=
  (List.range n).foldl (fun z i => runStep z (f + i) (old.testBit i) (new.testBit i)) z

theorem runSteps_succ (z : State) (f old new n : Nat) :
    runSteps z f old new (n + 1) = runStep (runSteps z f old new n) (f + n) (old.testBit n) (new.testBit n) := by
  rw [runSteps, List.range_succ, List.foldl_append]; rfl

theorem runSteps_alike {z : State} {f old new n : Nat} (h : ∀ i < n, z.running (f + i) = new.testBit i) :
    RunsAlike z (runSteps z f old new n) := by
  induction n with
  | zero => exact .refl z
  | succ n ih =>
    have ih := ih fun i hi => h i (by omega)
    rw [runSteps_succ]
    exact ih.trans (runStep_alike ((ih.running _).trans (h n (by omega))))

theorem tinker_runSteps {z : State} {c f old new n : Nat} (hc : ∀ i < n, (f + i) / 100 = c) (h : ∀ i < n, z.running (f + i) = new.testBit i)
    (j : Nat) : (runSteps z f old new n).tinker j = if f ≤ j ∧ j < f + n then
      runTinker (z.fld Fd.cellTkEntry c) (old.testBit (j - f)) (new.testBit (j - f)) (z.tinker j) else z.tinker j := by
  induction n with
  | zero => rw [if_neg (by omega)]; rfl
  | succ n ih =>
    have ih := ih (fun i hi => hc i (by omega)) (fun i hi => h i (by omega))
    have hentry := (runSteps_alike (old := old) fun i hi => h i (Nat.lt_succ_of_lt hi)).entry c
    rw [runSteps_succ, tinker_runStep, hc n (by omega), hentry]
    by_cases hj : j = f + n
    · subst hj
      rw [if_neg (by omega)] at ih
      rw [if_pos rfl, if_pos (by omega), ih, Nat.add_sub_cancel_left]
    · rw [if_neg hj, ih]
      split
      · rw [if_pos (by omega)]
      · rw [if_neg (by omega)]

theorem writeRun_eq (s : State) (c old new : Nat) (hi : Bool) :
    s.writeRun c (if hi then 64 else 0) old new = runSteps s (100 * c + if hi then 64 else 0) old new (if hi then 36 else 64) := by
  cases hi <;> rfl

/-! ## TK_RUN_WRITE -/

/-- TK_RUN0 or TK_RUN1. -/
def halfField (hi : Bool) : Field := if hi then Fd.cellTkRun1 else Fd.cellTkRun0

theorem blockOf_halfField (c : Fin 256) (hi : Bool) :
    blockOf ((halfField hi).reg c 0) = some (.cell, c.val, if hi then 0x810 else 0x808) := by
  cases hi
  · exact blockOf_cell c (by decide)
  · exact blockOf_cell c (by decide)

theorem fieldsAt_halfField (c : Fin 256) (hi : Bool) : fieldsAt ((halfField hi).reg c 0) = [(halfField hi, 0)] := by
  rw [fieldsAt, blockOf_halfField]
  cases hi <;> rfl

theorem storeReg_halfField (s : State) (who : Who) (c : Fin 256) (hi : Bool) (w : RegWrite) :
    let o := (halfField hi).reg c 0
    s.storeReg who o w = s.setReg o (BitVec.ofNat 64 (w.field (halfField hi) (s.reg o).toNat).1) := by
  intro o
  have hrw : (halfField hi).acs = .rw := by cases hi <;> rfl
  have htaken : s.writeIgnored who w (halfField hi) 0 = false := by cases hi <;> rfl
  simp [State.storeReg, o, fieldsAt_halfField, blockOf_halfField, htaken, field_rw_coincidences w hrw]

/-- A register with RUN bits under a write by bytes. -/
def writtenRuns (s : State) (c : Fin 256) (hi : Bool) (v : BitVec 64) (be : BitVec 8) : State :=
  let o := (halfField hi).reg c 0
  s.setReg o (BitVec.ofNat 64
    ((⟨byteMask be, Nat.land v.toNat (byteMask be), 0, s.flag Fd.resetLockBootLock⟩ : RegWrite).field (halfField hi) (s.reg o).toNat).1)

theorem exec_tkRunWrite {s : State} {who : Who} {c : Fin 256} {hi : Bool} (hmay : MayWrite s who ((halfField hi).reg c 0)) (v : BitVec 64)
    {be : BitVec 8} (hbe : be ≠ 0) :
    let z := writtenRuns s c hi v be
    exec (.tkRunWrite who c hi v be) s = .next (runSteps z (100 * c + if hi then 64 else 0) (s.reg ((halfField hi).reg c 0)).toNat
      (z.fld (halfField hi) c) (if hi then 36 else 64)) := by
  intro z
  obtain ⟨hperm, hreset⟩ := hmay
  have heffect (w : RegWrite) (old : Nat) : z.writeEffect who .cell c (halfField hi) 0 old w =
      z.writeRun c (if hi then 64 else 0) old (z.fld (halfField hi) c) := by cases hi <;> rfl
  have hexec : exec (.tkRunWrite who c hi v be) s = .next (s.ctlWriteMask who ((halfField hi).reg c 0) (byteMask be) v.toNat).2 :=
    congrArg _ (if_neg hbe)
  rw [hexec, ← writeRun_eq, ← heffect]
  simp only [State.ctlWriteMask, hperm, hreset, Bool.false_eq_true, if_false, ne_eq, not_true_eq_false, storeReg_halfField, blockOf_halfField,
    fieldsAt_halfField, List.head?_cons]
  rfl

theorem testBit_fld (s : State) {f : Field} (hw : 0 < f.w) (b i n : Nat) :
    (s.fld f b i).testBit n = (decide (n < f.w) && (s.reg (f.reg b i)).getLsbD (n + f.lo)) := by
  rw [State.fld, testBit_bitsOf, BitVec.testBit_toNat, show f.lo + f.w - 1 + 1 - f.lo = f.w by omega]

/-- The RUN bit of a Tinker in its register. -/
theorem running_half (s : State) {k : Nat} {hi : Bool} (h : hi = decide (64 ≤ k % 100)) :
    s.running k = (s.reg ((halfField hi).reg (k / 100) 0)).getLsbD (k % 100 - if hi then 64 else 0) := by
  subst h
  unfold State.running State.bitOf tkNum tkCell halfField
  by_cases hlow : k % 100 < 64
  · rw [if_pos hlow, testBit_fld s (by decide)]
    simp [show ¬64 ≤ k % 100 by omega, hlow, Fd.cellTkRun0]
  · rw [if_neg hlow, testBit_fld s (by decide)]
    simp [show 64 ≤ k % 100 by omega, show k % 100 - 64 < 36 by omega, Fd.cellTkRun1]

theorem halfField_reg (hi : Bool) (c : Nat) : (halfField hi).reg c 0 = 0x1000000 + c * 0x10000 + if hi then 0x810 else 0x808 := by
  cases hi <;> rfl

theorem halfField_w_le (hi : Bool) : (halfField hi).w ≤ 64 := by cases hi <;> decide

theorem half_lt {k : Nat} {hi : Bool} (h : hi = decide (64 ≤ k % 100)) : (k % 100 - if hi then 64 else 0) < (halfField hi).w := by
  subst h
  by_cases hk : 64 ≤ k % 100
  · simp only [hk, decide_true, if_true]
    exact show _ < 36 by omega
  · simp only [hk, decide_false]
    exact show _ < 64 by simp; omega

theorem halfField_reg_inj (hi hj : Bool) (c d : Nat) : (halfField hi).reg c 0 = (halfField hj).reg d 0 ↔ c = d ∧ hi = hj := by
  rw [halfField_reg, halfField_reg]
  cases hi <;> cases hj <;> simp <;> omega

/-- The RUN bits after the write: those in addressed bytes are as written. -/
theorem running_writtenRuns (s : State) (c : Fin 256) (hi : Bool) (v : BitVec 64) (be : BitVec 8) (k : Nat) :
    (writtenRuns s c hi v be).running k =
      if k / 100 = c ∧ hi = decide (64 ≤ k % 100) ∧ be.getLsbD ((k % 100 - if hi then 64 else 0) / 8) = true then
        v.getLsbD (k % 100 - if hi then 64 else 0) else s.running k := by
  by_cases hin : k / 100 = c ∧ hi = decide (64 ≤ k % 100)
  · obtain ⟨hc, hhi⟩ := hin
    have hrw : (halfField hi).acs = .rw := by cases hi <;> rfl
    have hlo : (halfField hi).lo = 0 := by cases hi <;> rfl
    have hlt := half_lt hhi
    have h64 := (halfField_w_le hi)
    rw [running_half _ hhi, running_half s hhi, hc, writtenRuns, State.reg_set_self, BitVec.getLsbD_ofNat, testBit_field_rw _ hrw (by omega),
      hlo, Nat.zero_add]
    generalize (k % 100 - if hi then 64 else 0) = i at hlt
    simp only [testBit_byteMask, testBit_nat_land, BitVec.testBit_toNat, ← hhi, hlt, show i < 64 by omega, Nat.zero_le, decide_true, true_and,
      and_self, Bool.true_and]
    by_cases hb : be.getLsbD (i / 8) = true <;> simp [hb]
  · rw [if_neg fun h => hin ⟨h.1, h.2.1⟩, running_half _ rfl, running_half s rfl, writtenRuns, State.reg_set_other]
    intro he
    obtain ⟨hc, hhi⟩ := (halfField_reg_inj ..).mp he
    exact hin ⟨hc, hhi.symm⟩

/-- The Tinkers whose RUN bits a register holds. -/
theorem mem_half (hi : Bool) (c k : Nat) :
    (100 * c + (if hi then 64 else 0) ≤ k ∧ k < 100 * c + (if hi then 64 else 0) + if hi then 36 else 64) ↔
      k / 100 = c ∧ hi = decide (64 ≤ k % 100) := by
  cases hi with
  | false =>
    simp only [Bool.false_eq_true, if_false, false_eq_decide_iff]
    omega
  | true =>
    simp only [if_true, true_eq_decide_iff]
    omega

theorem entry_writtenRuns (s : State) (c : Fin 256) (hi : Bool) (v : BitVec 64) (be : BitVec 8) :
    (writtenRuns s c hi v be).fld Fd.cellTkEntry c = s.fld Fd.cellTkEntry c := by
  refine fld_congr (State.reg_set_other _ _ ?_)
  rw [halfField_reg]
  simp only [Field.reg, Fd.cellTkEntry, Blk.base]
  split <;> omega

section
variable (s : State) (c : Fin 256) (hi : Bool) (v : BitVec 64) (be : BitVec 8)

/-- The state after TK_RUN_WRITE. -/
def ranTinkers : State :=
  runSteps (writtenRuns s c hi v be) (100 * c + if hi then 64 else 0) (s.reg ((halfField hi).reg c 0)).toNat
    ((writtenRuns s c hi v be).fld (halfField hi) c) (if hi then 36 else 64)

theorem running_writtenRuns_testBit (i : Nat) (h : i < if hi then 36 else 64) :
    (writtenRuns s c hi v be).running ((100 * c + if hi then 64 else 0) + i) = ((writtenRuns s c hi v be).fld (halfField hi) c).testBit i := by
  obtain ⟨hc, hhi⟩ := (mem_half hi c ((100 * c + if hi then 64 else 0) + i)).mp ⟨by omega, by omega⟩
  have hlo : (halfField hi).lo = 0 := by cases hi <;> rfl
  have hw : (halfField hi).w = if hi then 36 else 64 := by cases hi <;> rfl
  have hi' : (100 * c.val + (if hi then 64 else 0) + i) % 100 - (if hi then 64 else 0) = i := by split at * <;> omega
  rw [running_half _ hhi, testBit_fld _ (by omega), hc, hi', hlo, Nat.add_zero, hw, decide_eq_true h, Bool.true_and]

theorem ranTinkers_alike : RunsAlike (writtenRuns s c hi v be) (ranTinkers s c hi v be) :=
  runSteps_alike fun i h => running_writtenRuns_testBit s c hi v be i h

/-- The Tinkers after the write: those whose RUN bit has changed start or stop. -/
theorem tinker_ranTinkers (k : Nat) : (ranTinkers s c hi v be).tinker k =
    runTinker (s.fld Fd.cellTkEntry c) (s.running k) ((writtenRuns s c hi v be).running k) (s.tinker k) := by
  have hcell : ∀ i < if hi then 36 else 64, ((100 * c.val + if hi then 64 else 0) + i) / 100 = c.val := fun i h =>
    ((mem_half hi c _).mp ⟨by omega, by omega⟩).1
  rw [ranTinkers, tinker_runSteps hcell fun i h => running_writtenRuns_testBit s c hi v be i h, entry_writtenRuns]
  by_cases hk : k / 100 = c ∧ hi = decide (64 ≤ k % 100)
  · have hmem := (mem_half hi c k).mpr hk
    obtain ⟨hc, hhi⟩ := hk
    have hnum : k - (100 * c.val + if hi then 64 else 0) = k % 100 - if hi then 64 else 0 := by split at * <;> omega
    have hnow := running_writtenRuns_testBit s c hi v be (k - (100 * c.val + if hi then 64 else 0)) (by omega)
    rw [Nat.add_sub_cancel' hmem.1] at hnow
    rw [if_pos hmem, ← hnow, hnum, BitVec.testBit_toNat, running_half s hhi, hc]
    rfl
  · rw [if_neg fun h => hk ((mem_half hi c k).mp h), running_writtenRuns, if_neg fun h => hk ⟨h.1, h.2.1⟩, runTinker, if_pos rfl]
    rfl

end

/-- Whether a Tinker waits for the answer of an access. -/
def loading (a : Tinker) : Bool := match a.wait with
  | .access _ => true
  | _ => false

theorem outstanding_iff (a : Tinker) : a.outstanding = true ↔ loading a = true ∨ a.stores ≠ [] := by
  have h : a.outstanding = (!a.stores.isEmpty || loading a) := rfl
  rw [h]
  simp [or_comm]

theorem stoppedTinker_eq (a : Tinker) : stoppedTinker a = if loading a = true then a else { a with wait := .none } := by
  unfold stoppedTinker loading
  split <;> rfl

/-- A Tinker whose RUN bit has changed, as R83 says it. -/
theorem runTinker_eq (entry : Nat) (was now : Bool) (a : Tinker) : runTinker entry was now a =
    if was = now then a
    else if now then (if loading a = true ∨ a.stores ≠ [] then a else { a with
      pc := BitVec.ofNat 32 entry &&& 0xFFFFFFFC#32, cstat := a.cstat &&& 0x0000FFFF#32, fetched := [], wait := .none })
    else if loading a = true then a else { a with wait := .none } := by
  simp only [runTinker, startedTinker, outstanding_iff, stoppedTinker_eq]
  rfl

/-- Settles O18: the write of the register, then one step for each of its Tinkers. -/
theorem runBitsStartAndStopTinkers : Obligations.RunBitsStartAndStopTinkers := by
  intro who c hi v be s hmay
  by_cases hbe : be = 0
  · refine ⟨s, congrArg _ (if_pos hbe), rfl, fun k _ => ⟨fun _ => ⟨rfl, rfl⟩, fun ⟨_, _, hbyte⟩ => ?_⟩⟩
    simp [hbe] at hbyte
  · refine ⟨ranTinkers s c hi v be, exec_tkRunWrite hmay v hbe, (ranTinkers_alike s c hi v be).frame, fun k _ => ?_⟩
    rw [(ranTinkers_alike s c hi v be).running, tinker_ranTinkers, running_writtenRuns]
    refine ⟨fun hnot => ?_, fun hnamed => ?_⟩
    · rw [if_neg hnot]
      exact ⟨rfl, if_pos rfl⟩
    · rw [if_pos hnamed]
      exact ⟨rfl, runTinker_eq ..⟩

end Sys2Proof.Proofs
end

section
/-! PROOFS. The Tinkers keep the canonical form of the memories and of the register table (R79, R90, R91). -/

namespace Sys2Proof.Proofs

open Sys2Proof Sys2Proof.Machine Sys2Proof.Claims

/-- Every step of an instruction keeps the memories. -/
def KeepsAlways (i : Instr) : Prop := ∀ s t, exec i s = .next t → KeepsMem s t

/-- A Tinker instruction whose effect keeps the memories: it waits, traps or has its effect. -/
theorem keepsAlways_of_tkExec {i : Instr} {k : Nat} {f : State → State} (hf : ∀ s, KeepsMem s (f s))
    (hexec : ∀ s, exec i s = .next (s.tkExec k i f) := by intros; rfl) : KeepsAlways i := by
  intro s t ht
  rw [hexec s] at ht
  injection ht with ht
  rw [← ht, State.tkExec]
  split
  · exact .refl s
  · split
    · exact s.keeps_trap ..
    · exact hf s

/-- An instruction whose effect is on its Tinker alone. -/
theorem keepsAlways_of_setTinker {i : Instr} {k : Nat} {f : State → Tinker}
    (hexec : ∀ s, exec i s = .next (s.tkExec k i (fun z => z.setTinker k (f z))) := by intros; rfl) : KeepsAlways i :=
  keepsAlways_of_tkExec (fun s => s.keeps_tinker k (f s)) hexec

theorem keeps_quietOp (s : State) (k : Nat) (f : Tinker → Tinker) : KeepsMem s (s.quietOp k f) := by
  unfold State.quietOp State.whenQuiet
  split
  · exact s.keeps_tinker ..
  · exact .refl s

theorem keeps_arrive (s : State) (r : SliceReq) : KeepsMem s (s.arrive r) := .of_eq rfl rfl rfl rfl rfl

/-- An access to the shared cache waits at its slice. -/
theorem keeps_issueAccess {s : State} {x : TkAcc} {o : Nat} (h : placeOf x.addr = .scache o) (k : Nat) : KeepsMem s (s.issueAccess k x) := by
  rw [State.issueAccess, h]
  exact (s.keeps_tinker k _).trans (keeps_arrive _ _)

theorem keeps_doAtomic (s : State) (k : Nat) (rd base : BitVec 5) (op : TkOp) : KeepsMem s (s.doAtomic k rd base op) := by
  rw [State.doAtomic, State.whenQuiet]
  generalize (s.tinker k).pairAddr base / 4 * 4 = a
  split
  · dsimp only
    cases ho : placeOf a with
    | scache o => exact keeps_issueAccess (x := ⟨rd.toNat, a, op, none⟩) ho k
    | _ => exact s.keeps_trap ..
  · exact .refl s

theorem keeps_doLoad (s : State) (k : Nat) (rd base : BitVec 5) (w : BitVec 2) (u : Bool) (off : BitVec 13) :
    KeepsMem s (s.doLoad k rd base w u off) := by
  have hread := s.keeps_short_read k ((s.tinker k).shortAddr base off (widthBytes w)) (widthBytes w)
  unfold State.doLoad
  dsimp only
  split
  · exact hread.trans (State.keeps_trap ..)
  · exact hread.trans (State.keeps_tinker ..)

theorem keeps_doStore (s : State) (k : Nat) (rs base : BitVec 5) (w : BitVec 2) (off : BitVec 13) :
    KeepsMem s (s.doStore k rs base w off) := by
  have hwrite := s.keeps_short_write k ((s.tinker k).shortAddr base off (widthBytes w)) (widthBytes w)
    ((leBytes (widthBytes w) ((s.tinker k).gr rs.toNat).toNat).map some)
  unfold State.doStore
  dsimp only
  split
  · exact (State.keeps_undo hwrite).trans (State.keeps_trap ..)
  · exact hwrite.trans (State.keeps_tinker ..)

theorem keeps_vectorRead (s : State) (k a fmt : Nat) (p : BitVec 8) : KeepsMem s (s.vectorRead k a fmt p).2.2 := by
  unfold State.vectorRead
  dsimp only
  refine KeepsMem.trans ?_ (State.keeps_sram_read ..)
  split
  · exact .refl s
  · exact s.keeps_wrap ..

theorem keeps_doVld (s : State) (k : Nat) (vd base rk : BitVec 5) (pg fmt : BitVec 3) (off : BitVec 4) :
    KeepsMem s (s.doVld k vd base rk pg fmt false off) := by
  have hread := keeps_vectorRead s k ((s.tinker k).vectorShort base off (vmBytes fmt.toNat)) fmt.toNat ((s.tinker k).pr pg.toNat)
  unfold State.doVld
  dsimp only
  rw [if_neg Bool.false_ne_true]
  split
  · exact hread.trans (State.keeps_trap ..)
  · exact hread.trans (State.keeps_tinker ..)

theorem keeps_doVst (s : State) (k : Nat) (vd base rk : BitVec 5) (pg fmt : BitVec 3) (off : BitVec 4) :
    KeepsMem s (s.doVst k vd base rk pg fmt false off) := by
  unfold State.doVst
  dsimp only
  rw [if_neg Bool.false_ne_true]
  generalize hread : (if fmt.toNat = 1 then s.vectorRead k _ 1 _ else ([], false, s)) = old
  have hold : KeepsMem s old.2.2 := by
    rw [← hread]
    split
    · exact keeps_vectorRead ..
    · exact .refl s
  split
  · exact hold.trans (State.keeps_trap ..)
  · generalize laneBytes _ _ _ = bs
    generalize hstore : (if bs.all (fun b => b.isNone) then (false, s) else s.shortWrite k _ _ bs) = r
    have hwrite : KeepsMem s r.2 := by
      rw [← hstore]
      split
      · exact .refl s
      · exact s.keeps_short_write ..
    split
    · exact (State.keeps_undo hwrite).trans (State.keeps_trap ..)
    · exact hwrite.trans (State.keeps_tinker ..)

/-- Every Tinker instruction whose access stays inside its cell. -/
theorem keepsAlways_of_insideCell {i : Instr} (h : insideCell i = true) : KeepsAlways i := by
  cases i with
  | add k | sub k | and k | or k | xor k | sll k | srl k | sra k | slt k | sltu k | mul k | mulh k | mulhu k | min k | max k =>
    exact keepsAlways_of_setTinker
  | addi k | andi k | ori k | xori k | slti k | sltiu k | shi k | lui k | li k | lip k => exact keepsAlways_of_setTinker
  | beq k | bne k | blt k | bge k | bltu k | bgeu k | bp k | jal k | jalr k | ja k => exact keepsAlways_of_setTinker
  | vfadd k | vfsub k | vfmul k | vfma k | vfmin k | vfmax k | vfabs k | vfneg k => exact keepsAlways_of_setTinker
  | vadd k | vsub k | vmul k | vand k | vor k | vxor k | vsll k | vsrl k | vsra k | vmin k | vmax k => exact keepsAlways_of_setTinker
  | lmul k | ldiv k | ladd k | lsub k | lhalf k | lnegx k | exp2X k | log2X k | exp2F k | log2F k => exact keepsAlways_of_setTinker
  | f2x k | x2f k | f2i k | i2f k | q2f k | f2q k | vmv k | vbcast k => exact keepsAlways_of_setTinker
  | feq k | flt k | fle k | ieq k | ilt k | iltu k | leq k | llt k | lle k => exact keepsAlways_of_setTinker
  | pand k | por k | pxor k | pnot k | vext k | ptog k | gtop k => exact keepsAlways_of_setTinker
  | vfrsum k | vfrmax k | virsum k | vlrmax k | rett k | qdone k => exact keepsAlways_of_setTinker
  | fai k | faa k | cas k | hmerge k | hpred k => exact keepsAlways_of_tkExec (fun s => keeps_doAtomic s k _ _ _)
  | csrr k | csrw k | csrc k | fenceT k | iflush k => exact keepsAlways_of_tkExec (fun s => keeps_quietOp s k _)
  | load k => exact keepsAlways_of_tkExec (fun s => keeps_doLoad s k ..)
  | store k => exact keepsAlways_of_tkExec (fun s => keeps_doStore s k ..)
  | vld k vd base rk pg fmt g off =>
    cases g with
    | false => exact keepsAlways_of_tkExec (fun s => keeps_doVld s k ..)
    | true => exact absurd h Bool.false_ne_true
  | vst k vd base rk pg fmt g off =>
    cases g with
    | false => exact keepsAlways_of_tkExec (fun s => keeps_doVst s k ..)
    | true => exact absurd h Bool.false_ne_true
  | halt k => exact keepsAlways_of_tkExec (fun s => (s.keeps_tinker k _).trans (State.keeps_run _ k false))
  | trap k => exact keepsAlways_of_tkExec (fun s => s.keeps_trap k ..)
  | waitq k rs1 q =>
    refine keepsAlways_of_tkExec (fun s => ?_) (fun s => rfl)
    dsimp only
    split
    · exact s.keeps_tinker ..
    · exact s.keeps_tinker ..
  | _ => exact absurd h Bool.false_ne_true

/-- Settles O45: an invariant of each step, from one lemma for each shape of effect. -/
theorem tinkersKeepTheMemoriesCanonical : Obligations.TinkersKeepTheMemoriesCanonical := by
  intro i s t hin hwf hexec
  obtain ⟨hbulk, hscache, hstores, hlocals, hregs⟩ := keepsAlways_of_insideCell hin s t hexec
  obtain ⟨wbulk, wscache, wstores, wlocals, wregs⟩ := hwf
  exact ⟨hbulk wbulk, hscache wscache, hstores wstores, hlocals wlocals, hregs wregs⟩

end Sys2Proof.Proofs
end

section
/-! PROOFS. What the stream queues rest on: bytes of a cell's store read and written by offset (R69), registers beside the one that is set,
and what keeping a piece of work leaves. -/

namespace Sys2Proof.Proofs

open Sys2Proof Sys2Proof.Machine Sys2Proof.Claims

/-! ## Bytes of a cell's store (R69, R70) -/

/-- The flat address of byte i from an offset of a cell's store on. -/
def storePlace (c off i : Nat) : Nat := c * 2 ^ 21 + (off + i) % 2 ^ 21

theorem storePlace_nodup (c off : Nat) {n : Nat} (hn : n ≤ 2 ^ 21) : ((List.range n).map (storePlace c off)).Nodup := by
  refine List.Nodup.map_on (fun i hi j hj h => ?_) List.nodup_range
  have hi := List.mem_range.mp hi
  have hj := List.mem_range.mp hj
  unfold storePlace at h
  omega

theorem storeRead_of_nil {s : State} (h : s.sramErr = []) (c off n : Nat) :
    s.storeRead c off n = ((List.range n).map (fun i => Mem.get s.stores (storePlace c off i)), false, s) := by
  rw [State.storeRead, sramRead_of_nil h, storeAddrs, List.map_map]
  rfl

/-- A state in which bytes have been written from an offset of a cell's store on. -/
def putStore (s : State) (c off : Nat) (bs : List Byte) : State :=
  { s with stores := writeBytes s.stores ((storeAddrs c off bs.length).zip bs) }

theorem storeWrite_of_nil {s : State} (h : s.sramErr = []) (c off : Nat) (bs : List Byte) :
    s.storeWrite c off bs = (false, putStore s c off bs) := sramWrite_of_nil h .store _

@[simp] theorem cells_putStore (s : State) (c off : Nat) (bs : List Byte) : (putStore s c off bs).cells = s.cells := rfl
@[simp] theorem cell_putStore (s : State) (c off d : Nat) (bs : List Byte) : (putStore s c off bs).cell d = s.cell d := rfl
@[simp] theorem reg_putStore (s : State) (c off o : Nat) (bs : List Byte) : (putStore s c off bs).reg o = s.reg o := rfl
@[simp] theorem sramErr_putStore (s : State) (c off : Nat) (bs : List Byte) : (putStore s c off bs).sramErr = s.sramErr := rfl

theorem stores_putStore (s : State) (c off : Nat) (bs : List Byte) :
    (putStore s c off bs).stores = writeBytes s.stores ((storeAddrs c off bs.length).zip bs) := rfl

theorem get_putStore (s : State) (c off : Nat) {bs : List Byte} (hn : bs.length ≤ 2 ^ 21) (x : Nat) :
    Mem.get (putStore s c off bs).stores x =
      (((List.range bs.length).find? (fun i => decide (x = storePlace c off i))).bind (fun i => some (bs.getD i 0))).getD
        (Mem.get s.stores x) := by
  have hpairs : (storeAddrs c off bs.length).zip bs =
      (List.range bs.length).filterMap (fun i => (some (bs.getD i 0)).map (storePlace c off i, ·)) := by
    simp only [Option.map_some, List.filterMap_eq_map']
    exact zip_range_map _ 0 bs
  rw [putStore, hpairs]
  exact get_writeBytes (fun i => some (bs.getD i 0)) (storePlace_nodup c off hn) _ x

/-- A byte written reads as it was written. -/
theorem get_putStore_place (s : State) (c off : Nat) {bs : List Byte} (hn : bs.length ≤ 2 ^ 21) {i : Nat} (hi : i < bs.length) :
    Mem.get (putStore s c off bs).stores (storePlace c off i) = bs.getD i 0 := by
  have hfind : (List.range bs.length).find? (fun j => decide (storePlace c off i = storePlace c off j)) = some i := by
    refine List.find?_range_eq_some.mpr ⟨by simp, List.mem_range.mpr hi, fun j hj => ?_⟩
    unfold storePlace
    simp
    omega
  rw [get_putStore s c off hn, hfind]
  rfl

/-- A byte beside those written reads as before. -/
theorem get_putStore_other (s : State) (c off : Nat) {bs : List Byte} (hn : bs.length ≤ 2 ^ 21) {x : Nat}
    (hx : ∀ i, i < bs.length → x ≠ storePlace c off i) : Mem.get (putStore s c off bs).stores x = Mem.get s.stores x := by
  have hfind : (List.range bs.length).find? (fun j => decide (x = storePlace c off j)) = none :=
    List.find?_eq_none.mpr fun j hj => by simpa using hx j (List.mem_range.mp hj)
  rw [get_putStore s c off hn, hfind]
  rfl

/-! ## Registers beside the one that is set -/

theorem fld_setFld_other (s : State) {f g : Field} {b i b' i' : Nat} (h : g.reg b' i' ≠ f.reg b i) (v : Nat) :
    (s.setFld f b i v).fld g b' i' = s.fld g b' i' :=
  fld_congr (State.reg_set_other s _ h)

theorem onlyRegs_foldl {β : Type} {os : List Nat} {f : State → β → State} (l : List β) (h : ∀ z, ∀ x ∈ l, OnlyRegs os z (f z x))
    (s : State) : OnlyRegs os s (l.foldl f s) := by
  induction l generalizing s with
  | nil => exact onlyRegs_refl os s
  | cons x l ih =>
    exact onlyRegs_trans (h s x List.mem_cons_self) (ih (fun z y hy => h z y (List.mem_cons_of_mem _ hy)) _)

theorem cells_of_onlyRegs {os : List Nat} {s t : State} (h : OnlyRegs os s t) : t.cells = s.cells := by rw [h.1]

theorem stores_of_onlyRegs {os : List Nat} {s t : State} (h : OnlyRegs os s t) : t.stores = s.stores := by rw [h.1]

theorem sramErr_of_onlyRegs {os : List Nat} {s t : State} (h : OnlyRegs os s t) : t.sramErr = s.sramErr := by rw [h.1]

theorem fld_syncMill_other (s : State) (c : Nat) {f : Field} {b i : Nat} (h : f.reg b i ≠ Fd.cellStateMillBusy.reg c 0) :
    (s.syncMill c).fld f b i = s.fld f b i := fld_setFld_other s h _

theorem queue_syncMill (s : State) (c d q : Nat) : (s.syncMill c).queue d q = s.queue d q := by
  rw [State.queue, State.queue, cell_syncMill]

/-! ## Keeping a piece of work -/

/-- Keeping what a piece of work has done changes a started command and MILL_BUSY, and no memory. -/
theorem sameMemory_keep {w : W} (hgo : w.halt = .go) :
    w.keep.stores = w.s.stores ∧ w.keep.bulk = w.s.bulk ∧ w.keep.scache = w.s.scache ∧ w.keep.locals = w.s.locals := by
  rw [keep_of_go hgo]
  exact ⟨rfl, rfl, rfl, rfl⟩

end Sys2Proof.Proofs
end

section
/-! PROOFS. The stream queues of a cell: FENCE (R139), tallies (R122), completion (R117 to R119) and the start of a head (R113, R115, R116). -/

namespace Sys2Proof.Proofs

open Sys2Proof Sys2Proof.Machine Sys2Proof.Claims

/-! ## FENCE (R139) -/

/-- The condition of a FENCE: of the started commands of the queues it names only later ones are left, and of the queued ones too. -/
theorem fenceMet_iff (s : State) (c : Nat) (k : Cmd) :
    s.fenceMet c k = true ↔
      (∀ y ∈ (s.cell c).cmds, (k.u 16 2).testBit y.q = true → k.root < y.root ∨ (k.root = y.root ∧ k.num ≤ y.num)) ∧
        ∀ l ∈ (s.cell c).queues, (k.u 16 2).testBit l.1 = true → ∀ e ∈ l.2, k.root ≤ e.root := by
  simp only [State.fenceMet, Bool.and_eq_true, List.all_eq_true, Bool.or_eq_true, Bool.not_eq_true', decide_eq_true_eq, or_assoc]
  simp only [← Bool.not_eq_true, ← imp_iff_not_or]

/-- A FENCE at work ends where its condition holds, and stays as it is where it does not. -/
theorem exec_fence {s : State} {c : Fin 256} {n : Nat} {k : Cmd} (hw : Working s c n k 0x0F02) :
    exec (.fence c n) s = .next (if s.fenceMet c k then (W.mk s c k .go).finish else W.mk s c k .go).keep :=
  congrArg Host.Outcome.next (work_of_working hw (by simp))

/-- Settles O26: the condition of R139 is the one that FENCE tests, and keeping the command changes no memory. -/
theorem fenceWaitsForEarlierCommands : Obligations.FenceWaitsForEarlierCommands := by
  unfold Obligations.FenceWaitsForEarlierCommands
  intro c n k s hdead hcmd hop hfin hnum m clear
  have hw : Working s c n k 0x0F02 := ⟨hdead, hcmd, hop, hfin, hnum⟩
  have hclear : clear ↔ s.fenceMet c k = true := by rw [fenceMet_iff, hnum]
  subst hnum
  rw [exec_fence hw, hclear]
  cases s.fenceMet c k with
  | true =>
    obtain ⟨hstores, hbulk, hscache, -⟩ := sameMemory_keep (w := (W.mk s c k .go).finish) rfl
    exact ⟨_, rfl, hstores, hbulk, hscache, fun _ => cmd_keep (w := (W.mk s c k .go).finish) rfl hcmd, fun h => absurd rfl h⟩
  | false =>
    obtain ⟨hstores, hbulk, hscache, -⟩ := sameMemory_keep (w := W.mk s c k .go) rfl
    exact ⟨_, rfl, hstores, hbulk, hscache, fun h => absurd h Bool.false_ne_true, fun _ => cmd_keep (w := W.mk s c k .go) rfl hcmd⟩

/-! ## Tallies (R122) -/

/-- A queued MOVE whose tally-in is the shared tally 256. -/
def tallyHead : QEnt := ⟨64, some [1, 1, 0, 0, 0, 1], 0, 0, false, none, none, false, false⟩

/-- A cell of tenant 0 with two heads of the same place in the order of appending on one queue, and 1 in the tally's word. Appending and
chaining give each entry a place of its own; nothing in the statement asks for that. -/
def twinHeads : State :=
  { ((State.reset.setFld Fd.ethAdmitAdmitted 0 0 1).setFld Fd.ethAdmitCgMask 0 0 0xFFFF).setQueue 0 0 [tallyHead, tallyHead] with
    scache := [(1024, 1)] }

theorem twinHeads_meets : twinHeads.cellDead (0 : Fin 256) = false ∧ twinHeads.queue (0 : Fin 256) (0 : Fin 16) = [tallyHead, tallyHead] ∧
    (twinHeads.headCmd (0 : Fin 256) (0 : Fin 16) tallyHead).1.opcode = 0x0101 ∧
    (twinHeads.headCmd (0 : Fin 256) (0 : Fin 16) tallyHead).1.tallyIn = 256 ∧
    twinHeads.ownsSlice (twinHeads.cellWho (0 : Fin 256)) (sliceOf (twinHeads.tallyOff (0 : Fin 256) 256)) = true ∧
    sliceOf (twinHeads.tallyOff (0 : Fin 256) 256) = 0 ∧
    ((List.range 4).map (fun i => (Mem.get twinHeads.scache (twinHeads.tallyOff (0 : Fin 256) 256 + i)).toNat * 256 ^ i)).sum = 1 := by
  decide +kernel

/-- The one grant of the slice marks both heads. -/
theorem queue_sliceOp_twinHeads : ((twinHeads.tallyConsume (0 : Fin 256) (0 : Fin 16)).sliceOp (0 : Fin 64)).queue (0 : Fin 256) (0 : Fin 16) =
    [{ tallyHead with tallyTaken := true }, { tallyHead with tallyTaken := true }] := by decide +kernel

/-- Refutes O24: the grant of a shared tally marks every entry of the queue that has the place of the requesting head, so where the next
entry has the same place it is marked as well, and the queue is not the marked head and its old rest. The statement lacks the premise that
the entries of the queue have places of their own. -/
theorem not_talliesAreConsumed : ¬ Obligations.TalliesAreConsumed := by
  unfold Obligations.TalliesAreConsumed
  intro h
  obtain ⟨hdead, hqueue, hop, htally, howns, hslice, hword⟩ := twinHeads_meets
  obtain ⟨-, hshared⟩ := h 0 0 tallyHead [tallyHead] twinHeads hdead hqueue rfl rfl (by rw [hop]; decide) (by rw [htally]; decide)
  rw [htally] at hshared
  obtain ⟨t, hconsume, -, -, -, hgrant⟩ := hshared (le_refl _) rfl rfl howns 0 hslice.symm
  obtain ⟨u, hop, -, -, hmarked⟩ := hgrant (hword.trans_ne one_ne_zero)
  injection hconsume with ht
  subst ht
  injection hop with hu
  subst hu
  exact absurd (queue_sliceOp_twinHeads.symm.trans hmarked) (by decide)

/-! ## Completion (R117 to R119) -/

theorem length_record (k : Cmd) : k.record.length = 32 := by
  simp [Cmd.record, Laws.le_bytes_length]

/-- A command's stall cycles are two figures of its record and change nothing else of it. -/
theorem stalled_eq (k : Cmd) (d : Nat) : ∃ a b, k.stalled d = { k with stall := a, cause := b } := ⟨_, _, rfl⟩

/-- The registers of a cell's stall counters (R71, R73). -/
def stallRegs (c : Nat) : List Nat := stallCodes.map (Fd.cellStallCnt.reg c)

theorem not_mem_stallRegs {c o : Nat} (h : o < Fd.cellStallCnt.reg c 0 ∨ Fd.cellStallCnt.reg c 31 < o) : o ∉ stallRegs c := by
  intro hmem
  obtain ⟨i, hi, rfl⟩ := List.mem_map.mp hmem
  have hcode : ∀ j ∈ stallCodes, j < 32 := by decide
  have := hcode i hi
  simp only [Field.reg, Fd.cellStallCnt] at h
  omega

/-- Counting stall cycles changes only the cell's stall counters. -/
theorem onlyRegs_countStalls (s : State) (c : Nat) (k : Cmd) (d : Nat) : OnlyRegs (stallRegs c) s (s.countStalls c k d) := by
  unfold State.countStalls
  split
  · refine onlyRegs_foldl _ (fun z x hx => ?_) s
    obtain ⟨y, hy, rfl⟩ := List.mem_map.mp hx
    split
    · exact onlyRegs_refl ..
    · exact onlyRegs_bump z (List.mem_map.mpr ⟨_, (List.of_mem_zip hy).2, rfl⟩) _
  · exact onlyRegs_refl ..

/-- Producing a tally counts in a register or asks a slice (R119, R122): cells and stores stay. -/
theorem cells_stores_produce (s : State) (c q id : Nat) : (s.produce c q id).cells = s.cells ∧ (s.produce c q id).stores = s.stores := by
  unfold State.produce
  dsimp only
  split
  · exact ⟨rfl, rfl⟩
  · split
    · exact ⟨s.cells_setFld .., s.stores_setFld ..⟩
    · split
      · exact ⟨rfl, rfl⟩
      · exact ⟨s.cells_bump .., s.stores_bump ..⟩

/-- R119, R123: a local tally-out rises by one modulo 2^32. -/
theorem fld_produce_local (s : State) (c q : Nat) {id : Nat} (h0 : id ≠ 0) (hlocal : id < 256) :
    (s.produce c q id).fld Fd.cellTally c id = (s.fld Fd.cellTally c id + 1) % 2 ^ 32 := by
  rw [State.produce, if_neg h0, if_pos hlocal]
  exact fld_setFld_self s (by decide) (by decide) c id (Nat.mod_lt _ (by decide))

/-- Producing a tally leaves SQ_DONE. -/
theorem fld_produce_sqDone (s : State) (c : Fin 256) (p id : Nat) {q : Nat} (hq : q < 16) :
    (s.produce c p id).fld Fd.cellSqDone c q = s.fld Fd.cellSqDone c q := by
  unfold State.produce
  dsimp only
  split
  · rfl
  · split
    · refine fld_setFld_other s ?_ _
      simp [Field.reg, Fd.cellSqDone, Fd.cellTally]
      omega
    · split
      · rfl
      · refine fld_setFld_other s ?_ _
        simp [Field.reg, Fd.cellSqDone, Fd.poolOwnerFaultCnt, Blk.base]
        omega

/-- The state in which a completing command's stall cycles have been drawn and counted and its record written. -/
def withRecord (s : State) (c : Nat) (k : Cmd) : State :=
  putStore (s.draw.2.countStalls c (k.stalled s.draw.1) s.draw.1) c k.recordOff (k.stalled s.draw.1).record

/-- The same with the completion counted in SQ_DONE. -/
def recorded (s : State) (c : Nat) (k : Cmd) : State :=
  (withRecord s c k).setFld Fd.cellSqDone c k.q (((withRecord s c k).fld Fd.cellSqDone c k.q + 1) % 2 ^ 32)

/-- A started command is gone from its cell, and MILL_BUSY follows. -/
def withoutCmd (s : State) (c n : Nat) : State :=
  (s.onCell c (fun x => { x with cmds := x.cmds.filter (fun y => decide (y.num ≠ n)) })).syncMill c

/-- R117 to R119: a command without a history record and without TXN writes its record, is counted, produces its tally and is gone. -/
theorem complete_eq {s : State} (herr : s.sramErr = []) (c : Nat) {k : Cmd} (hhist : k.histOff = none) (htxn : k.txn = false) :
    s.complete c k = withoutCmd ((recorded s c k).produce c k.q k.tallyOut) c k.num := by
  have hmerge : s.mergeHist c k = (k, s) := by
    unfold State.mergeHist
    rw [hhist]
  have hcount : (s.draw.2.countStalls c (k.stalled s.draw.1) s.draw.1).sramErr = [] := by
    rw [sramErr_of_onlyRegs (onlyRegs_countStalls ..), State.sramErr_draw, herr]
  unfold State.complete withoutCmd recorded withRecord
  simp only [hmerge, storeWrite_of_nil hcount]
  obtain ⟨a, b, hstalled⟩ := stalled_eq k s.draw.1
  have htxn' : (k.stalled s.draw.1).txn = false := by rw [hstalled]; exact htxn
  simp only [htxn', Bool.false_and, Bool.false_eq_true, if_false]
  rw [hstalled]
  cases k.tenant <;> rfl

theorem cells_recorded (s : State) (c : Nat) (k : Cmd) : (recorded s c k).cells = s.cells := by
  rw [recorded, State.cells_setFld, withRecord, cells_putStore, cells_of_onlyRegs (onlyRegs_countStalls ..), State.cells_draw]

theorem stores_recorded (s : State) (c : Nat) (k : Cmd) :
    (recorded s c k).stores = (putStore s c k.recordOff (k.stalled s.draw.1).record).stores := by
  rw [recorded, State.stores_setFld, withRecord, stores_putStore, stores_of_onlyRegs (onlyRegs_countStalls ..), State.stores_draw,
    stores_putStore]

/-- Only the stall counters change with the record. -/
theorem fld_withRecord (s : State) (c : Nat) (k : Cmd) {f : Field} {i : Nat}
    (h : f.reg c i < Fd.cellStallCnt.reg c 0 ∨ Fd.cellStallCnt.reg c 31 < f.reg c i) : (withRecord s c k).fld f c i = s.fld f c i := by
  have hreg : (s.draw.2.countStalls c (k.stalled s.draw.1) s.draw.1).reg (f.reg c i) = s.draw.2.reg (f.reg c i) :=
    (onlyRegs_countStalls ..).2 _ (not_mem_stallRegs h)
  refine fld_congr ?_
  rw [withRecord, reg_putStore, hreg]
  rfl

theorem fld_recorded_sqDone (s : State) (c : Nat) (k : Cmd) :
    (recorded s c k).fld Fd.cellSqDone c k.q = (s.fld Fd.cellSqDone c k.q + 1) % 2 ^ 32 := by
  have hbeside : Fd.cellStallCnt.reg c 31 < Fd.cellSqDone.reg c k.q := by simp [Field.reg, Fd.cellSqDone, Fd.cellStallCnt]; omega
  have hfits : ((withRecord s c k).fld Fd.cellSqDone c k.q + 1) % 2 ^ 32 < 2 ^ Fd.cellSqDone.w := Nat.mod_lt _ (by decide)
  rw [recorded, fld_setFld_self _ (by decide) (by decide) c k.q hfits, fld_withRecord s c k (.inr hbeside)]

theorem fld_recorded_tally (s : State) (c : Nat) {k : Cmd} (hq : k.q < 16) (id : Nat) :
    (recorded s c k).fld Fd.cellTally c id = s.fld Fd.cellTally c id := by
  have hbeside : Fd.cellStallCnt.reg c 31 < Fd.cellTally.reg c id := by simp [Field.reg, Fd.cellTally, Fd.cellStallCnt]; omega
  have hother : Fd.cellTally.reg c id ≠ Fd.cellSqDone.reg c k.q := by simp [Field.reg, Fd.cellTally, Fd.cellSqDone]; omega
  rw [recorded, fld_setFld_other _ hother, fld_withRecord s c k (.inr hbeside)]

/-- A register behind CELL_STATE is as before the command left its cell. -/
theorem fld_withoutCmd (s : State) (c n : Nat) {f : Field} {i : Nat} (h : Fd.cellStateMillBusy.reg c 0 < f.reg c i) :
    (withoutCmd s c n).fld f c i = s.fld f c i := fld_syncMill_other _ c (Nat.ne_of_gt h)

@[simp] theorem stores_withoutCmd (s : State) (c n : Nat) : (withoutCmd s c n).stores = s.stores := by
  rw [withoutCmd, stores_syncMill, State.stores_onCell]

theorem cell_withoutCmd_other (s : State) {c d : Nat} (n : Nat) (h : d ≠ c) : (withoutCmd s c n).cell d = s.cell d := by
  rw [withoutCmd, cell_syncMill, State.cell_on_other _ _ h]

theorem cmd_withoutCmd (s : State) (c n : Nat) : (withoutCmd s c n).cmd c n = none := by
  rw [State.cmd, withoutCmd, cell_syncMill, State.cell_on_self]
  exact List.find?_eq_none.mpr fun y hy => by simpa using (List.mem_filter.mp hy).2

/-- A record in a cell's store: its bytes, and every other byte as before. -/
theorem record_putStore (s : State) (c : Nat) (k : Cmd) (off : Nat) :
    (List.range 32).map (fun j => Mem.get (putStore s c off k.record).stores (storePlace c off j)) = k.record ∧
      ∀ x, (∀ j, j < 32 → x ≠ storePlace c off j) → Mem.get (putStore s c off k.record).stores x = Mem.get s.stores x := by
  have hlen := length_record k
  have hle : k.record.length ≤ 2 ^ 21 := by omega
  refine ⟨?_, fun x hx => get_putStore_other s c off hle (by rwa [hlen])⟩
  refine List.ext_getElem (by simp [hlen]) fun i hi hi' => ?_
  rw [List.getElem_map, List.getElem_range, get_putStore_place s c off hle hi', List.getD_eq_getElem _ _ hi']

/-- A finished command without a history record and without TXN completes as R117 to R119 say. -/
theorem completed_complete {s : State} (herr : s.sramErr = []) (c : Fin 256) {n : Nat} {k : Cmd} (hcmd : s.cmd c n = some k)
    (hhist : k.histOff = none) (htxn : k.txn = false) (hq : k.q < 16) : Completed c n k s (s.complete c k) := by
  obtain rfl : k.num = n := by simpa using List.find?_some hcmd
  obtain ⟨hrecord, hother⟩ := record_putStore s c (k.stalled s.draw.1) k.recordOff
  obtain ⟨hcells, hstores⟩ := cells_stores_produce (recorded s c k) c k.q k.tallyOut
  rw [cells_recorded] at hcells
  rw [stores_recorded] at hstores
  rw [complete_eq herr c hhist htxn]
  refine ⟨cmd_withoutCmd .., ?_, fun _ => ⟨⟨s.draw.1, ?_⟩, fun x hx => ?_⟩, fun h0 hlocal => ?_, fun d hd => ?_⟩
  · have hbehind : Fd.cellStateMillBusy.reg c 0 < Fd.cellSqDone.reg c k.q := by simp [Field.reg, Fd.cellSqDone, Fd.cellStateMillBusy]; omega
    rw [fld_withoutCmd _ _ _ hbehind, fld_produce_sqDone _ _ _ _ hq, fld_recorded_sqDone]
  · rw [stores_withoutCmd, hstores]
    exact hrecord
  · rw [stores_withoutCmd, hstores]
    exact hother x hx
  · have hbehind : Fd.cellStateMillBusy.reg c 0 < Fd.cellTally.reg c k.tallyOut := by simp [Field.reg, Fd.cellTally, Fd.cellStateMillBusy]; omega
    rw [fld_withoutCmd _ _ _ hbehind, fld_produce_local _ _ _ h0 hlocal, fld_recorded_tally s c hq]
  · rw [cell_withoutCmd_other _ _ hd, State.cell, State.cell, hcells]

/-- Settles O25: a command whose turn has come completes, a CANCEL as any other. -/
theorem commandsCompleteWithTheirRecord : Obligations.CommandsCompleteWithTheirRecord := by
  unfold Obligations.CommandsCompleteWithTheirRecord
  intro c n k s hdead herr hcmd hturn hhist htxn hq
  have hdone := completed_complete herr c hcmd hhist htxn hq
  refine ⟨⟨_, ?_, hdone⟩, fun hop => ⟨_, ?_, hdone⟩⟩
  · change execCommandComplete c n s = _
    simp [execCommandComplete, hcmd, hdead, hturn]
  · change execCancel c n s = _
    simp [execCancel, hcmd, hdead, hturn, hop]

/-! ## The start of a head (R113, R115, R116) -/

/-- COMMAND_START where the conditions of the head are decided (R115). -/
theorem startHead_eq {s : State} {c q : Nat} {e : QEnt} {rest : List QEnt} (hdead : s.cellDead c = false) (hqueue : s.queue c q = e :: rest)
    (hlive : e.cancelled = false) (hop : (s.headCmd c q e).1.opcode ≠ 0x0F01) :
    let h := s.headCmd c q e
    s.startHead c q = if s.unfenced c q h.1.fence e = true ∧ (h.1.tallyIn = 0 ∨ e.tallyTaken = true) ∧ s.accepts c h.1 = true then
      h.2.2.startCmd c q e rest h.1 h.2.1 else s := by
  intro h
  simp only [State.startHead, hdead, hqueue, hlive, hop, Bool.false_eq_true, if_false, Bool.and_eq_true, Bool.or_eq_true, decide_eq_true_eq,
    and_assoc, h]

/-- Without marked errors a descriptor is read whole, and reading it changes nothing (R70, R112). -/
theorem readDesc_of_nil {s : State} (herr : s.sramErr = []) (c off : Nat) : (s.readDesc c off).2 = (false, s) := by
  simp only [State.readDesc, storeRead_of_nil herr, Bool.or_self]

theorem headCmd_of_some (s : State) (c q : Nat) {e : QEnt} {d : List Byte} (h : e.desc = some d) : (s.headCmd c q e).2 = (e.bad, s) := by
  simp only [State.headCmd, h]

theorem headCmd_of_none (s : State) (c q : Nat) {e : QEnt} (h : e.desc = none) : (s.headCmd c q e).2 = (s.readDesc c e.off).2 := by
  simp only [State.headCmd, h, Prod.mk.eta]

/-- Without marked errors reading the head of a queue changes nothing, and what is read is whole (R70, R112). -/
theorem headCmd_of_nil {s : State} (herr : s.sramErr = []) (c q : Nat) (e : QEnt) :
    (s.headCmd c q e).2.2 = s ∧ (e.desc = none → (s.headCmd c q e).2.1 = false) := by
  cases hdesc : e.desc with
  | some d =>
    rw [headCmd_of_some s c q hdesc]
    exact ⟨rfl, fun h => absurd h (Option.some_ne_none d)⟩
  | none =>
    rw [headCmd_of_none s c q hdesc, readDesc_of_nil herr]
    exact ⟨rfl, fun _ => rfl⟩

/-- The head of a queue becomes the command with the next number, with nothing done yet. -/
theorem headCmd_fresh (s : State) (c q : Nat) (e : QEnt) :
    (s.headCmd c q e).1.num = (s.cell c).nextNum ∧ (s.headCmd c q e).1.finished = false ∧ (s.headCmd c q e).1.soft = none ∧
      (s.headCmd c q e).1.warn = none := by
  unfold State.headCmd
  exact ⟨rfl, rfl, rfl, rfl⟩

/-- The state in which the head of a queue has become a started command, its record zero (R115, R116). -/
def withStarted (s : State) (c q : Nat) (rest : List QEnt) (k : Cmd) : State :=
  putStore ((s.setQueue c q rest).onCell c (fun x => { x with cmds := x.cmds ++ [k], nextNum := x.nextNum + 1 })) c k.recordOff
    (List.replicate 32 0)

/-- Every started command of a head begins so: with a new command on the list, the record's bytes zero. -/
theorem withStarted_spec (s : State) (c q : Nat) (rest : List QEnt) (k : Cmd) :
    (withStarted s c q rest k).queue c q = rest ∧ ((withStarted s c q rest k).cell c).cmds = (s.cell c).cmds ++ [k] ∧
      ((withStarted s c q rest k).cell c).nextNum = (s.cell c).nextNum + 1 := by
  have hqueue := State.queue_set_self s c q rest
  simp only [State.queue] at hqueue
  simp [withStarted, State.queue, State.setQueue]

theorem fld_withStarted (s : State) (c q : Nat) (rest : List QEnt) (k : Cmd) (f : Field) (b i : Nat) :
    (withStarted s c q rest k).fld f b i = s.fld f b i := by
  refine fld_congr ?_
  rw [withStarted, reg_putStore]
  rfl

/-- The record of a started command reads zero, and every other byte of the stores as before (R116). -/
theorem get_withStarted (s : State) (c q : Nat) (rest : List QEnt) (k : Cmd) :
    (∀ j, j < 32 → Mem.get (withStarted s c q rest k).stores (storePlace c k.recordOff j) = 0) ∧
      ∀ x, (∀ j, j < 32 → x ≠ storePlace c k.recordOff j) → Mem.get (withStarted s c q rest k).stores x = Mem.get s.stores x := by
  have hle : (List.replicate 32 (0 : Byte)).length ≤ 2 ^ 21 := by simp
  refine ⟨fun j hj => ?_, fun x hx => ?_⟩
  · rw [withStarted, get_putStore_place _ _ _ hle (by simpa using hj)]
    exact List.getD_replicate _ hj
  · rw [withStarted, get_putStore_other _ _ _ hle (by simpa using hx)]
    rfl

/-- R136: a command without CHAIN has no successor. -/
theorem chainFrom_of_unchained (s : State) (c q off num root : Nat) {k : Cmd} (h : k.chain = false) :
    s.chainFrom c q off k.desc num root = s := by
  unfold State.chainFrom
  exact if_pos (by rw [show (fieldB k.desc 3 1).testBit 0 = false from h]; rfl)

/-- R65: only GEMM and GEMM_DW take part in a multicast. -/
theorem withdraw_of_op (s : State) (c : Nat) {k : Cmd} (h1 : k.opcode ≠ 0x0201) (h2 : k.opcode ≠ 0x0202) : s.withdraw c k = s :=
  if_pos ⟨h1, h2⟩

theorem takeWithdrawals_of_op (s : State) (c : Nat) {k : Cmd} (h1 : k.opcode ≠ 0x0201) (h2 : k.opcode ≠ 0x0202) :
    s.takeWithdrawals c k = s := if_pos ⟨h1, h2⟩

/-- R115, R116: a readable MOVE without CHAIN, TXN and work done ahead starts as it is. -/
theorem startCmd_move {s : State} (herr : s.sramErr = []) (c q : Nat) {e : QEnt} (rest : List QEnt) {k : Cmd} (hearly : e.early = none)
    (htxn : k.txn = false) (hchain : k.chain = false) (hop : k.opcode = 0x0101) (hfin : k.finished = false) :
    s.startCmd c q e rest k false = (withStarted s c q rest k).syncMill c := by
  have hfault : s.startFault false k = none := by simp [State.startFault, htxn]
  have hassigned : assignedOpcodes.contains k.opcode = true := by rw [hop]; decide
  have heffect (z : State) : z.startEffect c k = z := by simp [State.startEffect, hfin, Cmd.onChannel, hop]
  have hwrite := storeWrite_of_nil (s := (s.setQueue c q rest).onCell c (fun x => { x with cmds := x.cmds ++ [k], nextNum := x.nextNum + 1 }))
    herr c k.recordOff (List.replicate 32 0)
  simp only [State.startCmd, hfault, hassigned, hearly, Cmd.resume, hfin, hwrite, Option.isSome_none, Bool.not_true, Bool.or_false,
    Bool.false_eq_true, if_false, if_true, takeWithdrawals_of_op _ c (k := k) (by simp [hop]) (by simp [hop]), heffect,
    chainFrom_of_unchained _ _ _ _ _ _ hchain]
  rfl

/-- A command that ends as it starts, without a fault. -/
def endedCmd (k : Cmd) : Cmd := { k with fault := none, late := false, finished := true, kdone := true }

/-- R113: a head with an unassigned opcode, without CHAIN, ends as it starts and is counted. -/
theorem startCmd_unassigned {s : State} (herr : s.sramErr = []) (c q : Nat) {e : QEnt} (rest : List QEnt) {k : Cmd} (hearly : e.early = none)
    (hchain : k.chain = false) (hop : k.opcode ∉ assignedOpcodes) :
    s.startCmd c q e rest k false = ((withStarted s c q rest (endedCmd k)).bump Fd.cellBadopCnt c).syncMill c := by
  have hassigned : assignedOpcodes.contains k.opcode = false := by simpa using hop
  have hfault : s.startFault false k = none := by simp [State.startFault, hop]
  have hgemm : (endedCmd k).opcode ≠ 0x0201 := fun h => hop (h ▸ (by decide : 0x0201 ∈ assignedOpcodes))
  have hdw : (endedCmd k).opcode ≠ 0x0202 := fun h => hop (h ▸ (by decide : 0x0202 ∈ assignedOpcodes))
  have heffect (z : State) : z.startEffect c (endedCmd k) = z := if_pos rfl
  have hended : { k with fault := none, late := decide ((none : Option Code) = some cTxnAbort), finished := true, kdone := true } = endedCmd k := rfl
  have hfin : (endedCmd k).finished = true := rfl
  have hwrite := storeWrite_of_nil
    (s := (s.setQueue c q rest).onCell c (fun x => { x with cmds := x.cmds ++ [endedCmd k], nextNum := x.nextNum + 1 }))
    herr c (endedCmd k).recordOff (List.replicate 32 0)
  simp only [State.startCmd, hfault, hassigned, hearly, Cmd.resume, hended, hfin, hwrite, Option.isSome_none, Bool.not_false, Bool.or_self,
    Bool.or_true, Bool.false_eq_true, if_false, if_true, withdraw_of_op _ c hgemm hdw, heffect,
    chainFrom_of_unchained _ _ _ _ _ _ (k := endedCmd k) hchain]
  rfl

theorem commandsStartFromTheHead : CommandsStartFromTheHead := by
  intro c q e rest s hdead hqueue hlive h may hop
  have hstart := startHead_eq hdead hqueue hlive hop
  have hexec (hmay : may) : exec (.commandStart c q) s = .next (h.2.2.startCmd c q e rest h.1 h.2.1) :=
    congrArg Host.Outcome.next (hstart.trans (if_pos hmay))
  refine ⟨fun hnot => congrArg Host.Outcome.next (hstart.trans (if_neg hnot)), hexec,
    fun hmay herr hread htxn hearly hchain hmove => ⟨_, hexec hmay, ?_⟩⟩
  obtain ⟨hqueue', hcmds, hnext⟩ := withStarted_spec s c q rest h.1
  obtain ⟨hnum, hfin, -⟩ := headCmd_fresh s c q e
  have hstate : h.2.2 = s := (headCmd_of_nil herr c q e).1
  rw [hstate, hread, startCmd_move herr c q rest hearly htxn hchain hmove hfin, queue_syncMill, cell_syncMill, stores_syncMill]
  exact ⟨hqueue', hcmds, hnum, hnext, get_withStarted s c q rest h.1⟩

theorem unassignedOpcodesCompleteAtOnce : UnassignedOpcodesCompleteAtOnce := by
  intro c q e rest s hdead herr hqueue hlive hdesc hearly h hunassigned hop hchain htally hfence haccepts
  have hstart := (startHead_eq hdead hqueue hlive hop).trans (if_pos ⟨hfence, .inl htally, haccepts⟩)
  obtain ⟨hstate, hread⟩ := headCmd_of_nil herr c q e
  rw [hstate, hread hdesc, startCmd_unassigned herr c q rest hearly hchain hunassigned] at hstart
  have hexec : exec (.badOpcode c q) s = .next (s.startHead c q) := by
    change execBadOpcode c q s = _
    have hhead : s.headUnassigned c q = true := by
      have : assignedOpcodes.contains h.1.opcode = false := by simpa using hunassigned
      simp only [State.headUnassigned, hqueue, hlive, this, h]
      rfl
    rw [execBadOpcode, if_pos hhead]
  obtain ⟨hqueue', hcmds, -⟩ := withStarted_spec s c q rest (endedCmd h.1)
  obtain ⟨hnum, -, hsoft, hwarn⟩ := headCmd_fresh s c q e
  have hcode : (endedCmd h.1).code = 0 := by simp only [Cmd.code, endedCmd, h, hsoft, hwarn]; rfl
  have hcells := State.cells_bump (withStarted s c q rest (endedCmd h.1)) Fd.cellBadopCnt c 0 1
  refine ⟨_, hexec.trans (congrArg Host.Outcome.next hstart), ?_, ⟨endedCmd h.1, ?_, hnum, rfl, hcode⟩, ?_⟩
  · rw [queue_syncMill, State.queue, State.cell, hcells]
    exact hqueue'
  · rw [cell_syncMill, State.cell, hcells, ← State.cell, hcmds]
    exact List.mem_append_right _ (List.mem_singleton_self _)
  · have hother : Fd.cellBadopCnt.reg c 0 ≠ Fd.cellStateMillBusy.reg c 0 := by simp [Field.reg, Fd.cellBadopCnt, Fd.cellStateMillBusy]
    rw [fld_syncMill_other _ c hother, fld_bump_self _ (by decide) (by decide), fld_withStarted]
    rfl

/-- Settles O51: the conditions of the head are those of startHead, and a start of either kind is a new command on the list. -/
theorem headsStartOrCompleteAtOnce : Obligations.HeadsStartOrCompleteAtOnce := ⟨commandsStartFromTheHead, unassignedOpcodesCompleteAtOnce⟩

end Sys2Proof.Proofs
end

section
/-! PROOFS. Runs of bytes that lie inside a cell's store, read and written over its aperture line by line (R7, R50, R69, R144). -/

namespace Sys2Proof.Proofs

open Sys2Proof Sys2Proof.Machine Sys2Proof.Claims

/-! ## Addresses in a cell's store (R7, R69) -/

/-- The global address of an offset of a cell's store (R7). -/
def cellAddr (c o : Nat) : Nat := storeBase + c * 2 ^ 21 + o

theorem byteAddr_cellAddr {c o i : Nat} (hc : c < 256) (ho : o + i < 2 ^ 21) : byteAddr (cellAddr c o) i = cellAddr c (o + i) := by
  have hin : inStores (cellAddr c o) = true := by
    unfold inStores cellAddr storeBase
    simp
    omega
  rw [byteAddr, if_pos hin]
  unfold cellAddr storeBase
  omega

theorem byteAddr_cellAddr_zero {c o : Nat} (hc : c < 256) (ho : o < 2 ^ 21) : byteAddr (cellAddr c o) 0 = cellAddr c o :=
  byteAddr_cellAddr hc ho

theorem placeOf_cellAddr {c o : Nat} (hc : c < 256) (ho : o < 2 ^ 21) : placeOf (cellAddr c o) = .store c o := by
  unfold placeOf cellAddr storeBase
  rw [if_neg (by omega), if_neg (by omega), if_neg (by omega), if_pos (by omega)]
  congr 1 <;> omega

theorem place_cellAddr (s : State) {c o : Nat} (hc : c < 256) (ho : o < 2 ^ 21) : s.place (cellAddr c o) = .store c o := by
  rw [State.place, placeOf_cellAddr hc ho]

theorem cellAddr_mod {c o : Nat} (hc : c < 256) (ho : o < 2 ^ 21) : cellAddr c o % 2 ^ 48 = cellAddr c o := by
  unfold cellAddr storeBase
  omega

/-- No operation of a shared-cache slice is ahead of an access to a cell's store (R103). -/
theorem slicesBefore_cellAddr (s : State) {c o : Nat} (hc : c < 256) (ho : o < 2 ^ 21) (n : Nat) : s.slicesBefore (cellAddr c o) n = s := by
  unfold State.slicesBefore
  rw [cellAddr_mod hc ho, placeOf_cellAddr hc ho]
  split
  · rfl
  · refine if_neg fun h => ?_
    unfold cellAddr storeBase at h
    omega

/-- A run that stays inside a cell's store does not wrap there (R69). -/
theorem wrapCell_cellAddr (s : State) (w : Who) {c o n : Nat} (hc : c < 256) (ho : o < 2 ^ 21) (hn : o + n ≤ 2 ^ 21) :
    s.wrapCell w (cellAddr c o) n = none := by
  have hin : inStores (cellAddr c o) = true := by
    unfold inStores cellAddr storeBase
    simp
    omega
  have hwraps : wraps (cellAddr c o % 2 ^ 21) n = false := by
    unfold wraps cellAddr storeBase
    simp
    omega
  simp only [State.wrapCell, hin, if_true, hwraps, Bool.false_and, Bool.false_eq_true, if_false]

/-! ## The lines of a run -/

/-- Lines that follow one another from offset i of a run to its end n. -/
def Covers : List (Nat × Nat) → Nat → Nat → Prop
  | [], i, n => i = n
  | l :: ls, i, n => l.1 = i ∧ 0 < l.2 ∧ i + l.2 ≤ n ∧ Covers ls (i + l.2) n

theorem covers_linesOf {c o n : Nat} (hc : c < 256) (hn : o + n ≤ 2 ^ 21) :
    ∀ (f i : Nat), i ≤ n → (i < n → (o + i) % 64 + (n - i) ≤ 64 * f) → Covers (linesOf (cellAddr c o) f i n) i n
  | 0, i, hi, hf => by
    simp only [linesOf, Covers]
    omega
  | f + 1, i, hi, hf => by
    unfold linesOf
    split
    next hend => exact Nat.le_antisymm hi hend
    next hlt =>
      have hline : byteAddr (cellAddr c o) i % 64 = (o + i) % 64 := by
        rw [byteAddr_cellAddr hc (by omega)]
        unfold cellAddr storeBase
        omega
      rw [hline]
      refine ⟨rfl, by dsimp only; omega, by dsimp only; omega, covers_linesOf hc hn f _ (by omega) fun hgo => ?_⟩
      have hf := hf (Nat.not_le.mp hlt)
      rcases Nat.le_total (n - i) (64 - (o + i) % 64) with hlast | hmore
      · rw [Nat.min_eq_left hlast] at hgo
        omega
      · rw [Nat.min_eq_right hmore]
        omega

theorem covers_linesOfRun {c o n : Nat} (hc : c < 256) (hn : o + n ≤ 2 ^ 21) : Covers (linesOfRun (cellAddr c o) n) 0 n :=
  covers_linesOf hc hn _ 0 (Nat.zero_le n) (fun _ => by omega)

/-! ## Reading and writing a run (R50, R70, R144) -/

theorem storePlace_add (c o i j : Nat) : storePlace c (o + i) j = storePlace c o (i + j) := by
  rw [storePlace, storePlace, Nat.add_assoc]

theorem storePlace_inside {c o i : Nat} (h : o + i < 2 ^ 21) : storePlace c o i = c * 2 ^ 21 + o + i := by
  rw [storePlace, Nat.mod_eq_of_lt h, Nat.add_assoc]

/-- What the stores hold after bytes have been written that end inside their store. -/
theorem get_putStore_inside (s : State) (c off : Nat) {bs : List Byte} (h : off + bs.length ≤ 2 ^ 21) (y : Nat) :
    Mem.get (putStore s c off bs).stores y = if c * 2 ^ 21 + off ≤ y ∧ y < c * 2 ^ 21 + off + bs.length then
      bs.getD (y - (c * 2 ^ 21 + off)) 0 else Mem.get s.stores y := by
  have hn : bs.length ≤ 2 ^ 21 := by omega
  split
  next hin =>
    have hplace : y = storePlace c off (y - (c * 2 ^ 21 + off)) := by rw [storePlace_inside (by omega)]; omega
    have hget := get_putStore_place s c off hn (i := y - (c * 2 ^ 21 + off)) (by omega)
    rwa [← hplace] at hget
  next hout =>
    refine get_putStore_other s c off hn fun i hi => ?_
    rw [storePlace_inside (by omega)]
    omega

/-- An issuer reaches a cell's store: it owns the cell, and the cell can act (R281, R48, R438). -/
def ReachesStore (s : State) (w : Who) (c : Nat) : Prop := s.ownsCell w c = true ∧ s.cellDead c = false

section
variable {s : State} {x : Ctx} {c o : Nat}

theorem countHole_cellAddr {i : Nat} (hc : c < 256) (ho : o + i < 2 ^ 21) (hole : Bool) :
    s.countHole (cellAddr c o) i hole = (s, false) := by
  rw [State.countHole, byteAddr_cellAddr hc ho, place_cellAddr s hc ho]

theorem pieceAccess_of_place {a : Nat} (h : s.place a = .store c o) (w : Option (List Byte)) (n : Nat) :
    s.pieceAccess x a w n = s.storeAccess x c o w n := by
  simp only [State.pieceAccess, h]

/-- A read of a store that the issuer reaches. -/
theorem storeAccess_read (herr : s.sramErr = []) (hreach : ReachesStore s x.who c) (n : Nat) :
    s.storeAccess x c o none n = Got.ok ((List.range n).map (fun i => Mem.get s.stores (storePlace c o i))) s := by
  obtain ⟨howns, hdead⟩ := hreach
  obtain ⟨hfenced, hreset⟩ := Bool.or_eq_false_iff.mp hdead
  simp only [State.storeAccess, howns, hfenced, hreset, storeRead_of_nil herr, Bool.not_true, Bool.false_eq_true, if_false]

/-- A write to a store that the issuer reaches. -/
theorem storeAccess_write (herr : s.sramErr = []) (hreach : ReachesStore s x.who c) (bs : List Byte) (n : Nat) :
    s.storeAccess x c o (some bs) n = Got.ok [] (putStore s c o bs) := by
  obtain ⟨howns, hdead⟩ := hreach
  obtain ⟨hfenced, hreset⟩ := Bool.or_eq_false_iff.mp hdead
  simp only [State.storeAccess, howns, hfenced, hreset, storeWrite_of_nil herr, Bool.not_true, Bool.false_eq_true, if_false]

/-- The lines of a run from byte i on, read one after another, give its bytes and change nothing. -/
theorem readLines_cellAddr (hc : c < 256) {n : Nat} (hn : o + n ≤ 2 ^ 21) (herr : s.sramErr = []) (hreach : ReachesStore s x.who c) :
    ∀ (ls : List (Nat × Nat)) (i : Nat) (hole : Bool), Covers ls i n →
      s.readLines x (cellAddr c o) hole ls = Got.ok ((List.range (n - i)).map (fun j => Mem.get s.stores (storePlace c (o + i) j))) s
  | [], i, hole, hcov => by
    obtain rfl : i = n := hcov
    simp [State.readLines]
  | (i, k) :: ls, _, hole, hcov => by
    obtain ⟨rfl, hpos, hle, hrest⟩ := hcov
    dsimp only at hpos hle hrest
    have ih := readLines_cellAddr hc hn herr hreach ls (i + k) false hrest
    have hpiece := pieceAccess_of_place (x := x) (place_cellAddr s hc (by omega : o + i < 2 ^ 21)) none k
    rw [storeAccess_read herr hreach] at hpiece
    rw [State.readLines]
    dsimp only
    rw [countHole_cellAddr hc (by omega), byteAddr_cellAddr hc (by omega), hpiece]
    dsimp only [Got.ok]
    rw [ih, show n - i = k + (n - (i + k)) by omega, List.range_add, List.map_append, List.map_map]
    simp [Got.ok, ← Nat.add_assoc, storePlace_add, Function.comp_def]

/-- Bytes i and on of a run have been written: what the access answers, and what the stores then hold; nothing else has changed. -/
structure Wrote (s : State) (c o i : Nat) (bs : List Byte) (g : Got) : Prop where
  served : g.fault = none ∧ g.warn = none ∧ g.wait = false
  length : g.bytes.length = bs.length - i
  frame : g.st = { s with stores := g.st.stores }
  stores : ∀ y, Mem.get g.st.stores y = if c * 2 ^ 21 + o + i ≤ y ∧ y < c * 2 ^ 21 + o + bs.length then
    bs.getD (y - (c * 2 ^ 21 + o)) 0 else Mem.get s.stores y

theorem length_sliceB (bs : List Byte) (i n : Nat) : (sliceB bs i n).length = n := by simp [sliceB_eq]

theorem getD_sliceB (bs : List Byte) (i : Nat) {n j : Nat} (hj : j < n) : (sliceB bs i n).getD j 0 = bs.getD (i + j) 0 := by
  simp [sliceB_eq, hj]

/-- A line of a run and the run's rest after it, as one run. -/
theorem get_line_then_rest {b i k y : Nat} {bs : List Byte} (hle : i + k ≤ bs.length) (old : Byte) :
    (if b + (i + k) ≤ y ∧ y < b + bs.length then bs.getD (y - b) 0
      else if b + i ≤ y ∧ y < b + i + k then (sliceB bs i k).getD (y - (b + i)) 0 else old) =
    if b + i ≤ y ∧ y < b + bs.length then bs.getD (y - b) 0 else old := by
  by_cases hrest : b + (i + k) ≤ y ∧ y < b + bs.length
  · rw [if_pos hrest, if_pos (by omega)]
  · rw [if_neg hrest]
    by_cases hline : b + i ≤ y ∧ y < b + i + k
    · rw [if_pos hline, if_pos (by omega), getD_sliceB _ _ (by omega), show i + (y - (b + i)) = y - b by omega]
    · rw [if_neg hline, if_neg (by omega)]

/-- The lines of a run from byte i on, written one after another. -/
theorem writeLines_cellAddr (hc : c < 256) {bs : List Byte} (hn : o + bs.length ≤ 2 ^ 21) :
    ∀ (ls : List (Nat × Nat)) (i : Nat) (hole : Bool) (s : State), s.sramErr = [] → ReachesStore s x.who c → Covers ls i bs.length →
      Wrote s c o i bs (s.writeLines x (cellAddr c o) hole bs ls)
  | [], i, hole, s, _, _, hcov => by
    obtain rfl : i = bs.length := hcov
    exact ⟨⟨rfl, rfl, rfl⟩, by simp [State.writeLines, Got.ok], rfl, fun y => (if_neg (by omega)).symm⟩
  | (i, k) :: ls, _, hole, s, herr, hreach, hcov => by
    obtain ⟨rfl, hpos, hle, hrest⟩ := hcov
    dsimp only at hpos hle hrest
    obtain ⟨⟨hfault, hwarn, hwait⟩, hlen, hframe, hstores⟩ := writeLines_cellAddr hc hn ls (i + k) false
      (putStore s c (o + i) (sliceB bs i k)) herr hreach hrest
    have hpiece := pieceAccess_of_place (x := x) (place_cellAddr s hc (by omega : o + i < 2 ^ 21)) (some (sliceB bs i k)) k
    rw [storeAccess_write herr hreach] at hpiece
    rw [State.writeLines]
    dsimp only
    rw [countHole_cellAddr hc (by omega), byteAddr_cellAddr hc (by omega), hpiece]
    dsimp only [Got.ok]
    refine ⟨⟨hfault, by simpa using hwarn, hwait⟩, ?_, hframe, fun y => ?_⟩
    · simp only [Option.isSome_none, Bool.or_self, Bool.false_eq_true, if_false, List.length_append, length_sliceB, hlen]
      omega
    · refine (hstores y).trans ?_
      rw [get_putStore_inside s c (o + i) (by rw [length_sliceB]; omega), length_sliceB]
      rw [← Nat.add_assoc (c * 2 ^ 21)]
      exact get_line_then_rest hle _
end

/-! ## A transfer's run (R69, R134) -/

section
variable {w : W} {c o : Nat}

/-- A run without a wrap to count and without a slice's operation ahead of it is read at once. -/
theorem readT_eq (hgo : w.halt = .go) {a n : Nat} (hmod : a % 2 ^ 48 = a) (hbyte : byteAddr a 0 = a)
    (hwrap : w.s.wrapCell (w.k.ctx w.c).who a n = none) (hslices : w.s.slicesBefore a n = w.s) (t : Nat) :
    w.readT t a 0 n = ((w.s.readSpan (w.k.ctx w.c) a n).bytes, w.took (w.s.readSpan (w.k.ctx w.c) a n)) := by
  simp only [W.readT, W.on, hgo, decide_true, Bool.not_true, Bool.false_eq_true, if_false, hmod, Nat.zero_add, hwrap, W.wrapIn, hbyte, hslices]

/-- The same of a run that is written. -/
theorem writeT_eq (hgo : w.halt = .go) {a : Nat} {bs : List Byte} (hmod : a % 2 ^ 48 = a) (hbyte : byteAddr a 0 = a)
    (hwrap : w.s.wrapCell (w.k.ctx w.c).who a bs.length = none) (hslices : w.s.slicesBefore a bs.length = w.s) (t : Nat) :
    w.writeT t a 0 bs = ((w.s.writeSpan (w.k.ctx w.c) a bs).bytes.length, w.took (w.s.writeSpan (w.k.ctx w.c) a bs)) := by
  simp only [W.writeT, W.on, hgo, decide_true, Bool.not_true, Bool.false_eq_true, if_false, hmod, Nat.zero_add, hwrap, W.wrapIn, hbyte, hslices]

/-- An access that was served leaves the work with the state that it gives. -/
theorem took_of_served (w : W) {g : Got} (hfault : g.fault = none) (hwarn : g.warn = none) (hwait : g.wait = false) :
    w.took g = { w with s := g.st } := by
  simp only [W.took, hfault, hwarn, hwait, Bool.false_eq_true, if_false]

/-- Reading a run of a store that the command reaches gives its bytes, and the work goes on as it was. -/
theorem readT_cellAddr (hgo : w.halt = .go) (hc : c < 256) {n : Nat} (hpos : 0 < n) (hn : o + n ≤ 2 ^ 21) (herr : w.s.sramErr = [])
    (hreach : ReachesStore w.s (w.k.ctx w.c).who c) (t : Nat) :
    w.readT t (cellAddr c o) 0 n = ((List.range n).map (fun i => Mem.get w.s.stores (storePlace c o i)), w) := by
  have ho : o < 2 ^ 21 := by omega
  have hlines := readLines_cellAddr hc hn herr hreach _ 0 false (covers_linesOfRun hc hn)
  simp only [Nat.sub_zero, Nat.add_zero] at hlines
  have hread : w.s.readSpan (w.k.ctx w.c) (cellAddr c o) n =
      Got.ok ((List.range n).map (fun i => Mem.get w.s.stores (storePlace c o i))) w.s := by
    rw [State.readSpan, cellAddr_mod hc ho, hlines]
  rw [readT_eq hgo (cellAddr_mod hc ho) (byteAddr_cellAddr_zero hc ho) (wrapCell_cellAddr _ _ hc ho hn) (slicesBefore_cellAddr _ hc ho n),
    hread, took_of_served w rfl rfl rfl]
  rfl

/-- Writing a run of a store that the command reaches: its bytes stand there, and nothing else of the work has changed. -/
theorem writeT_cellAddr (hgo : w.halt = .go) (hc : c < 256) {bs : List Byte} (hpos : 0 < bs.length) (hn : o + bs.length ≤ 2 ^ 21)
    (herr : w.s.sramErr = []) (hreach : ReachesStore w.s (w.k.ctx w.c).who c) (t : Nat) :
    ∃ m, w.writeT t (cellAddr c o) 0 bs = (bs.length, { w with s := { w.s with stores := m } }) ∧
      ∀ y, Mem.get m y = if c * 2 ^ 21 + o ≤ y ∧ y < c * 2 ^ 21 + o + bs.length then bs.getD (y - (c * 2 ^ 21 + o)) 0
        else Mem.get w.s.stores y := by
  have ho : o < 2 ^ 21 := by omega
  obtain ⟨⟨hfault, hwarn, hwait⟩, hlen, hframe, hstores⟩ := writeLines_cellAddr hc hn _ 0 false w.s herr hreach (covers_linesOfRun hc hn)
  refine ⟨_, ?_, fun y => (hstores y).trans (by rw [Nat.add_zero])⟩
  rw [writeT_eq hgo (cellAddr_mod hc ho) (byteAddr_cellAddr_zero hc ho) (wrapCell_cellAddr _ _ hc ho hn)
    (slicesBefore_cellAddr _ hc ho bs.length), State.writeSpan, cellAddr_mod hc ho, took_of_served w hfault hwarn hwait, hlen,
    Nat.sub_zero, ← hframe]

end

end Sys2Proof.Proofs
end

section
/-! PROOFS. MOVE: each of its events, and a row copied inside a cell's store (R132, R134, R144). -/

namespace Sys2Proof.Proofs

open Sys2Proof Sys2Proof.Machine Sys2Proof.Claims

/-! ## The events of a MOVE (R132, R134) -/

section
variable {s : State} {c n : Nat} {k : Cmd}

theorem moveIssue_of_ready (hcmd : s.cmd c n = some k) (hop : k.opcode = 0x0101) (hfin : k.finished = false) (hready : s.moveReady c k = true) :
    s.moveIssue c n = (W.mk s c k .go).moveIssue.step := by
  simp [State.moveIssue, hcmd, hop, hfin, hready]

theorem moveIssue_of_finished (hcmd : s.cmd c n = some k) (hfin : k.finished = true) : s.moveIssue c n = (s, false) := by
  simp [State.moveIssue, hcmd, hfin]

theorem moveLand_of_xfer (hcmd : s.cmd c n = some k) (hop : k.opcode = 0x0101) {x : Xfer} (hmem : x ∈ (s.cell c).xfers) (hnum : x.num = n)
    (haway : s.xferAway c n x.unit = false) : s.moveLand c n x = ((W.mk s c k .go).moveLand x).moveEnd.step := by
  simp [State.moveLand, hcmd, hop, hmem, hnum, haway]

end

theorem work_of_finished {s : State} {c n : Nat} {k : Cmd} (hcmd : s.cmd c n = some k) (hfin : k.finished = true) (ops : List Nat) (f : W → W) :
    s.work c n ops f = s := by
  simp [State.work, hcmd, hfin]

theorem firstOf_single (s : State) (f : State → State × Bool) : s.firstOf [f] = ((f s).1, (f s).2) := by
  simp only [State.firstOf]
  split
  next => rfl
  next h => rw [Bool.eq_false_iff.mpr h]

/-- Once a MOVE has finished and none of its rows is outstanding, no step is left to take. -/
theorem moveStep_of_finished {c n : Nat} {z : State} {y : Cmd} (hcmd : z.cmd c n = some y) (hfin : y.finished = true)
    (hnone : (z.cell c).xfers = []) : State.moveStep c n z = (z, false) := by
  have hnone : z.xfersOf c n = [] := by rw [State.xfersOf, hnone]; rfl
  rw [State.moveStep, hnone, List.map_nil, List.nil_append, firstOf_single, moveIssue_of_finished hcmd hfin]

/-- R132: MOVE runs the steps of its rows, and then its end. -/
theorem exec_move {s : State} {c : Fin 256} {n : Nat} {k : Cmd} (hdead : s.cellDead c = false) (hcmd : s.cmd c n = some k) :
    exec (.move c n) s = .next ((State.steps (State.moveStep c n) (3 * k.u 36 4 + 3) s).work c n [0x0101] W.moveEnd) := by
  change execMove c n s = _
  simp only [execMove, hdead, Bool.false_eq_true, if_false, State.moveRun, hcmd]

/-- R133, R134: a Carter queue issues the next row of the MOVE that is its cell's one command. -/
theorem exec_carterTransfer_move {s : State} {c : Fin 256} {q : Fin 16} {n : Nat} {k : Cmd} (hdead : s.cellDead c = false)
    (hcmd : s.cmd c n = some k) (hop : k.opcode = 0x0101) (hfin : k.finished = false) (hq : q.val = k.chanq) (halone : (s.cell c).cmds = [k])
    (hready : s.moveReady c k = true) : exec (.carterTransfer c q) s = .next (W.mk s c k .go).moveIssue.keep := by
  have hnum : k.num = n := by simpa using List.find?_some hcmd
  have hissue := moveIssue_of_ready hcmd hop hfin hready
  have hmine : (s.cell c).cmds.filter (fun y => decide (y.chanq = q.val) && !y.finished) = [k] := by simp [halone, hq, hfin]
  change execCarterTransfer c q s = _
  simp only [execCarterTransfer, hdead, hmine, List.map_cons, List.map_nil, firstOf_single, hop, hnum, hissue, W.step, Bool.false_eq_true,
    if_false, if_true]

/-- R134: what lands is the row of the MOVE that issued it. -/
theorem exec_transferLanded_move {s : State} {c : Fin 256} {n j : Nat} {k : Cmd} {x : Xfer} (hdead : s.cellDead c = false)
    (hcmd : s.cmd c n = some k) (hop : k.opcode = 0x0101) (hx : (s.cell c).xfers[j]? = some x) (hnum : x.num = n)
    (haway : s.xferAway c n x.unit = false) : exec (.transferLanded c j) s = .next ((W.mk s c k .go).moveLand x).moveEnd.keep := by
  have hmem : x ∈ (s.cell c).xfers := List.mem_of_getElem? hx
  have hland := moveLand_of_xfer hcmd hop hmem hnum haway
  change execTransferLanded c j s = _
  simp only [execTransferLanded, hx, hdead, State.landXfer, hmem, hnum, haway, hcmd, hop, hland, W.step, not_true_eq_false, or_self,
    Bool.false_eq_true, if_false, if_true]

theorem moveTakesItsRows : MoveTakesItsRows := by
  intro c n k s hdead hcmd hop hfin
  exact ⟨exec_move hdead hcmd, fun q hq halone hready => exec_carterTransfer_move hdead hcmd hop hfin hq halone hready,
    fun j x hx hnum haway => exec_transferLanded_move hdead hcmd hop hx hnum haway⟩

/-! ## What an issued row leaves of the state -/

/-- A field beside the one that is set, in the same register or another. -/
theorem fld_setFld_beside (s : State) {f g : Field} {b i b' i' : Nat} (hw : 0 < f.w) (h64 : f.lo + f.w ≤ 64)
    (hbeside : g.lo + g.w ≤ f.lo ∨ f.lo + f.w ≤ g.lo) (hg : 0 < g.w) (v : Nat) : (s.setFld f b i v).fld g b' i' = s.fld g b' i' := by
  by_cases hreg : g.reg b' i' = f.reg b i
  · refine Nat.eq_of_testBit_eq fun m => ?_
    rw [State.fld, State.fld, State.setFld, hreg, State.reg_set_self, BitVec.toNat_ofNat,
      Nat.mod_eq_of_lt (putBits_lt hw (BitVec.isLt _) h64 v), testBit_bitsOf, testBit_bitsOf]
    by_cases hm : m < g.lo + g.w - 1 + 1 - g.lo
    · rw [put_bits_other _ _ _ _ _ (by omega) hw]
    · simp [hm]
  · exact fld_setFld_other s hreg v

/-- What an access of a cell's command depends on beside memory: who holds the cell, whether it can act, and the module's number. -/
structure SeesAlike (c : Nat) (s t : State) : Prop where
  tenant : t.cellTenant c = s.cellTenant c
  dead : t.cellDead c = s.cellDead c
  module : t.moduleId = s.moduleId

theorem SeesAlike.trans {c : Nat} {s t u : State} (h : SeesAlike c s t) (h' : SeesAlike c t u) : SeesAlike c s u :=
  ⟨h'.tenant.trans h.tenant, h'.dead.trans h.dead, h'.module.trans h.module⟩

theorem seesAlike_of_regs {c : Nat} {s t : State} (htenant : ∀ i, t.reg (Fd.ethAdmitAdmitted.reg 0 i) = s.reg (Fd.ethAdmitAdmitted.reg 0 i))
    (hfenced : t.fld Fd.cellStateFenced c = s.fld Fd.cellStateFenced c)
    (hreset : t.reg ((Fd.swrstInReset .cell).reg c 0) = s.reg ((Fd.swrstInReset .cell).reg c 0))
    (hmodule : t.reg (Fd.moduleIdId.reg 0 0) = s.reg (Fd.moduleIdId.reg 0 0)) : SeesAlike c s t where
  tenant := by
    have hadmitted (i : Nat) : t.fld Fd.ethAdmitAdmitted 0 i = s.fld Fd.ethAdmitAdmitted 0 i := fld_congr (htenant i)
    have hmask (i : Nat) : t.fld Fd.ethAdmitCgMask 0 i = s.fld Fd.ethAdmitCgMask 0 i := fld_congr (htenant i)
    simp only [State.cellTenant, State.flag, State.bitOf, hadmitted, hmask]
  dead := by
    have hinReset : t.fld (Fd.swrstInReset .cell) c = s.fld (Fd.swrstInReset .cell) c := fld_congr hreset
    simp only [State.cellDead, State.fenced, State.inReset, State.flag, State.bitOf, hfenced, hinReset]
  module := fld_congr hmodule

/-- The count of a Carter queue's transfers (R133). -/
theorem seesAlike_setOutst (s : State) (c : Fin 256) {cq : Nat} (hcq : cq < 16) (v : Nat) : SeesAlike c s (s.setFld Fd.cellQueueOutst c cq v) := by
  refine seesAlike_of_regs (fun i => ?_) (fld_setFld_other s ?_ v) ?_ ?_
  · exact State.reg_set_other _ _ (by simp [Field.reg, Fd.ethAdmitAdmitted, Fd.cellQueueOutst, Blk.base]; omega)
  · simp [Field.reg, Fd.cellStateFenced, Fd.cellQueueOutst]; omega
  · exact State.reg_set_other _ _ (by simp [Field.reg, Fd.swrstInReset, Fd.cellQueueOutst]; omega)
  · exact State.reg_set_other _ _ (by simp [Field.reg, Fd.moduleIdId, Fd.cellQueueOutst, Blk.base]; omega)

/-- MILL_BUSY (R73). -/
theorem seesAlike_syncMill (s : State) (c : Fin 256) : SeesAlike c s (s.syncMill c) := by
  refine seesAlike_of_regs (fun i => ?_) (fld_setFld_beside s (by decide) (by decide) (by decide) (by decide) _) ?_ ?_
  · exact State.reg_set_other _ _ (by simp [Field.reg, Fd.ethAdmitAdmitted, Fd.cellStateMillBusy, Blk.base]; omega)
  · exact State.reg_set_other _ _ (by simp [Field.reg, Fd.swrstInReset, Fd.cellStateMillBusy])
  · exact State.reg_set_other _ _ (by simp [Field.reg, Fd.moduleIdId, Fd.cellStateMillBusy, Blk.base]; omega)

theorem seesAlike_onCell (s : State) (c d : Nat) (f : CellSt → CellSt) : SeesAlike c s (s.onCell d f) := ⟨rfl, rfl, rfl⟩

/-! ## A row inside a cell's store (R132, R144) -/

/-- A MOVE of one row inside its cell's store, at its start, the cell's one command. -/
structure OneRow (s : State) (c : Fin 256) (n a b : Nat) (u : Fin 16) (k : Cmd) : Prop where
  working : Working s c n k 0x0101
  noMarks : s.sramErr = []
  tenant : k.tenant = some u
  holder : s.cellTenant c = some u
  noFault : k.fault = none
  live : k.cancelled = false
  issued : k.issued = 0
  bytes : k.bytes = 0
  alone : (s.cell c).cmds = [k]
  noXfers : (s.cell c).xfers = []
  noneAway : s.fab.outstanding = []
  room : s.depthRoom c k.chanq = true
  rows : k.u 36 4 = 1
  fromHere : k.module 16 = s.moduleId
  toHere : k.module 24 = s.moduleId
  source : k.addr 16 = cellAddr c a
  dest : k.addr 24 = cellAddr c b
  nonempty : 0 < k.u 32 4
  sourceFits : a + k.u 32 4 ≤ 2 ^ 21
  destFits : b + k.u 32 4 ≤ 2 ^ 21

/-- The bytes of a row at an offset of a cell's store. -/
def rowBytes (s : State) (c a len : Nat) : List Byte := (List.range len).map (fun i => Mem.get s.stores (storePlace c a i))

/-- The transfer that carries the row to its destination. -/
def rowXfer (s : State) (c a : Nat) (k : Cmd) : Xfer := ⟨k.num, k.chanq, [(k.addr 24, rowBytes s c a (k.u 32 4))], 0, none⟩

/-- The MOVE once its row has been issued. -/
def issuedRow (k : Cmd) : Cmd := { k with issued := k.issued + 1 }

section
variable {s : State} {c : Fin 256} {n a b : Nat} {u : Fin 16} {k : Cmd} (h : OneRow s c n a b u k)
include h

theorem OneRow.num : k.num = n := by
  obtain ⟨-, -, -, -, hnum⟩ := h.working
  exact hnum

theorem OneRow.ready : s.moveReady c k = true := by
  obtain ⟨-, -, -, hfin, -⟩ := h.working
  have hpos := h.nonempty
  have hrows : k.rowsLeft = true := by
    simp [Cmd.rowsLeft, h.issued, h.rows, h.noFault, h.live, hfin]
    omega
  have hturn : s.carterTurn c k = true := by simp [State.carterTurn, h.alone]
  simp [State.moveReady, hrows, h.room, hturn, State.xfersOf, h.noXfers]

theorem OneRow.reaches : ReachesStore s (k.ctx c).who c := by
  refine ⟨?_, h.working.1⟩
  simp [Cmd.ctx, h.tenant, State.ownsCell, h.holder]

/-- The row is read whole into an outstanding transfer. -/
theorem OneRow.moveIssue_eq : (W.mk s c k .go).moveIssue = (W.mk s c (issuedRow k) .go).begin (rowXfer s c a k) := by
  have ha : a < 2 ^ 21 := by have := h.nonempty; have := h.sourceFits; omega
  have hb : b < 2 ^ 21 := by have := h.nonempty; have := h.destFits; omega
  have hsource : (k.addr 16 + k.issued * k.u 40 4) % 2 ^ 48 = cellAddr c a := by
    rw [h.issued, Nat.zero_mul, Nat.add_zero, h.source, cellAddr_mod c.isLt ha]
  have hdest : (k.addr 24 + k.issued * k.u 44 4) % 2 ^ 48 = k.addr 24 := by
    rw [h.issued, Nat.zero_mul, Nat.add_zero, h.dest, cellAddr_mod c.isLt hb]
  have hread := readT_cellAddr (w := W.mk s c k .go) rfl c.isLt h.nonempty h.sourceFits h.noMarks h.reaches 0
  have hfirst : k.issued % 2 ^ 20 = 0 := by rw [h.issued, Nat.zero_mod]
  simp only [W.moveIssue, h.fromHere, hsource, hdest, hfirst, hread, W.on, ne_eq, not_true_eq_false, if_false, reduceCtorEq, decide_true, if_true]
  rfl

end

/-- The work of a landing once its bytes stand in the store m: they count in BYTES, none is discarded, and the transfer ends. -/
def landedRow (t : State) (m : Mem) (c : Nat) (k : Cmd) (x : Xfer) (len : Nat) : W :=
  (((W.mk { t with stores := m } c k .go).moved len).discard 0).endXfer x

/-- A row that lands inside a store that its command reaches is written whole. -/
theorem moveLand_store {t : State} {c b : Nat} {k : Cmd} {x : Xfer} {bs : List Byte} (hc : c < 256) (hpos : 0 < bs.length)
    (hfits : b + bs.length ≤ 2 ^ 21) (herr : t.sramErr = []) (hreach : ReachesStore t (k.ctx c).who c) (hhere : k.module 24 = t.moduleId)
    (hfault : k.fault = none) (hpieces : x.pieces = [(cellAddr c b, bs)]) (hunit : x.unit = 0) (hserved : x.fault = none) :
    ∃ m, (W.mk t c k .go).moveLand x = landedRow t m c k x bs.length ∧
      ∀ y, Mem.get m y = if c * 2 ^ 21 + b ≤ y ∧ y < c * 2 ^ 21 + b + bs.length then bs.getD (y - (c * 2 ^ 21 + b)) 0
        else Mem.get t.stores y := by
  obtain ⟨m, hwrite, hm⟩ := writeT_cellAddr (w := W.mk t c k .go) rfl hc hpos hfits herr hreach x.no
  refine ⟨m, ?_, hm⟩
  have hpiece : (W.mk t c k .go).landPiece x.no (cellAddr c b) 0 bs =
      ((W.mk { t with stores := m } c k .go).moved bs.length).discard 0 := by
    simp only [W.landPiece, W.on, hwrite, decide_true, Bool.not_true, Bool.false_eq_true, if_false, reduceCtorEq, Nat.sub_self]
  have hlocal : ¬(2 ^ 20 ≤ x.unit) := by rw [hunit]; decide
  simp only [W.moveLand, hlocal, hhere, hfault, hpieces, hserved, ne_eq, not_true_eq_false, false_and, if_false, Option.isSome_none,
    Bool.false_eq_true, List.length_singleton, List.range_one, List.zip_cons_cons, List.zip_nil_right, List.foldl_cons, List.foldl_nil,
    Nat.mul_zero, hpiece]
  exact if_neg Halt.noConfusion

/-- What counting dropped bytes leaves of a state: every memory, the cell's transfers, and which commands the cell has started. -/
structure OnlyCounted (c : Nat) (s t : State) : Prop where
  stores : t.stores = s.stores
  bulk : t.bulk = s.bulk
  scache : t.scache = s.scache
  locals : t.locals = s.locals
  xfers : (t.cell c).xfers = (s.cell c).xfers
  nums : (t.cell c).cmds.map Cmd.num = (s.cell c).cmds.map Cmd.num

theorem onlyCounted_of_onlyRegs {os : List Nat} {s t : State} (c : Nat) (h : OnlyRegs os s t) : OnlyCounted c s t := by
  obtain ⟨h, -⟩ := h
  constructor <;> rw [h] <;> rfl

theorem onlyCounted_dropBytes (s : State) (c num n : Nat) : OnlyCounted c s (s.dropBytes c num n) := by
  have hbump : OnlyCounted c s (s.bumpCell Fd.cellDiscardCnt c n) := by
    unfold State.bumpCell
    split
    · exact onlyCounted_of_onlyRegs c (onlyRegs_refl [] s)
    · exact onlyCounted_of_onlyRegs c (onlyRegs_bump s (List.mem_singleton_self _) n)
  unfold State.dropBytes
  dsimp only
  generalize s.bumpCell Fd.cellDiscardCnt c n = t at hbump ⊢
  split
  · obtain ⟨hstores, hbulk, hscache, hlocals, hxfers, hnums⟩ := hbump
    refine ⟨hstores, hbulk, hscache, hlocals, ?_, ?_⟩
    · rw [State.cell_on_self, hxfers]
    · rw [State.cell_on_self, List.map_map, ← hnums]
      refine List.map_congr_left fun y _ => ?_
      simp only [Function.comp_apply]
      split <;> rfl
  · exact hbump

/-- Ending a transfer takes it off the cell's list. -/
theorem cell_endXfer (w : W) (x : Xfer) : (w.endXfer x).s.cell w.c = { w.s.cell w.c with xfers := (w.s.cell w.c).xfers.erase x } := by
  rw [W.endXfer, State.cell_set_fld, State.cell_on_self]

theorem endXfer_leaves (w : W) (x : Xfer) :
    let z := (w.endXfer x).s
    z.stores = w.s.stores ∧ z.bulk = w.s.bulk ∧ z.scache = w.s.scache ∧ z.locals = w.s.locals := by
  intro z
  refine ⟨?_, ?_, ?_, ?_⟩
  · exact (State.stores_setFld ..).trans (State.stores_onCell ..)
  · exact (State.bulk_setFld ..).trans (State.bulk_onCell ..)
  · exact (State.scache_setFld ..).trans (State.scache_onCell ..)
  · exact (State.locals_setFld ..).trans (State.locals_onCell ..)

theorem landedRow_leaves (t : State) (m : Mem) (c : Nat) (k : Cmd) (x : Xfer) (len : Nat) :
    let z := (landedRow t m c k x len).s
    z.stores = m ∧ z.bulk = t.bulk ∧ z.scache = t.scache ∧ z.locals = t.locals ∧ (z.cell c).xfers = (t.cell c).xfers.erase x ∧
      (z.cell c).cmds.map Cmd.num = (t.cell c).cmds.map Cmd.num := by
  intro z
  obtain ⟨hstores, hbulk, hscache, hlocals, hxfers, hnums⟩ := onlyCounted_dropBytes { t with stores := m } c k.num 0
  have hcell := cell_endXfer (((W.mk { t with stores := m } c k .go).moved len).discard 0) x
  obtain ⟨estores, ebulk, escache, elocals⟩ := endXfer_leaves (((W.mk { t with stores := m } c k .go).moved len).discard 0) x
  refine ⟨estores.trans hstores, ebulk.trans hbulk, escache.trans hscache, elocals.trans hlocals, ?_, ?_⟩
  · exact (congrArg CellSt.xfers hcell).trans (congrArg (List.erase · x) hxfers)
  · exact (congrArg (fun y => y.cmds.map Cmd.num) hcell).trans hnums

theorem landedRow_cmd (t : State) (m : Mem) (c : Nat) (k : Cmd) (x : Xfer) (len : Nat) :
    let y := (landedRow t m c k x len).k
    y.num = k.num ∧ y.fault = k.fault ∧ y.bytes = satTo (2 ^ 48 - 1) (k.bytes + len) := ⟨rfl, rfl, rfl⟩

/-- Once its one row has landed a MOVE of one row has finished. -/
theorem landedRow_moveEnd {t : State} {m : Mem} {c : Nat} {k : Cmd} {x : Xfer} {len : Nat} (hxfers : (t.cell c).xfers = [x])
    (hrows : k.u 36 4 ≤ k.issued) : (landedRow t m c k x len).moveEnd = (landedRow t m c k x len).finish := by
  obtain ⟨-, -, -, -, hnone, -⟩ := landedRow_leaves t m c k x len
  rw [hxfers, List.erase_cons_head] at hnone
  have hlanded : ((landedRow t m c k x len).s.xfersOf (landedRow t m c k x len).c (landedRow t m c k x len).k.num).isEmpty = true := by
    show (((landedRow t m c k x len).s.cell c).xfers.filter _).isEmpty = true
    rw [hnone]
    rfl
  have hissued : decide ((landedRow t m c k x len).k.u 36 4 ≤ (landedRow t m c k x len).k.issued) = true := decide_eq_true hrows
  simp only [W.moveEnd, hissued, hlanded, Bool.or_true, Bool.true_or, Bool.and_self, if_true]

theorem cell_begin (w : W) (x : Xfer) : (w.begin x).s.cell w.c = { w.s.cell w.c with xfers := (w.s.cell w.c).xfers ++ [x] } := by
  rw [W.begin, State.cell_set_fld, State.cell_on_self]

theorem begin_leaves (w : W) (x : Xfer) :
    let z := (w.begin x).s
    z.stores = w.s.stores ∧ z.bulk = w.s.bulk ∧ z.scache = w.s.scache ∧ z.locals = w.s.locals ∧ z.sramErr = w.s.sramErr ∧
      z.fab = w.s.fab := by
  intro z
  refine ⟨?_, ?_, ?_, ?_, ?_, ?_⟩
  · exact (State.stores_setFld ..).trans (State.stores_onCell ..)
  · exact (State.bulk_setFld ..).trans (State.bulk_onCell ..)
  · exact (State.scache_setFld ..).trans (State.scache_onCell ..)
  · exact (State.locals_setFld ..).trans (State.locals_onCell ..)
  · exact (State.sramErr_setFld ..).trans (State.sramErr_onCell ..)
  · exact (State.fab_setFld ..).trans (State.fab_onCell ..)

theorem sramErr_fab_keep {w : W} (hgo : w.halt = .go) : w.keep.sramErr = w.s.sramErr ∧ w.keep.fab = w.s.fab := by
  rw [keep_of_go hgo]
  exact ⟨(State.sramErr_setFld ..).trans (State.sramErr_onCell ..), (State.fab_setFld ..).trans (State.fab_onCell ..)⟩

theorem xfers_keep {w : W} (hgo : w.halt = .go) : (w.keep.cell w.c).xfers = (w.s.cell w.c).xfers := by
  rw [keep_of_go hgo, cell_syncMill, cell_putCmd]

/-- Keeping work that has ended, of the cell's one command. -/
theorem cell_keep_finish {w : W} {c : Nat} {y : Cmd} (hgo : w.halt = .go) (hc : w.c = c) (hy : (w.s.cell c).cmds = [y])
    (hnum : y.num = w.k.num) : (w.finish.keep.cell c).cmds = [w.finish.k] ∧ (w.finish.keep.cell c).xfers = (w.s.cell c).xfers := by
  subst hc
  exact ⟨cmds_keep_single (w := w.finish) hgo hy hnum, xfers_keep (w := w.finish) hgo⟩

theorem cmd_of_single {s : State} {c n : Nat} {k : Cmd} (h : (s.cell c).cmds = [k]) (hnum : k.num = n) : s.cmd c n = some k := by
  simp [State.cmd, h, hnum]

/-- The state in which the row of a MOVE is on its way. -/
def rowIssued (s : State) (c a : Nat) (k : Cmd) : State := ((W.mk s c (issuedRow k) .go).begin (rowXfer s c a k)).keep

/-- The work of the landing that follows. -/
def rowLanded (s : State) (c a : Nat) (k : Cmd) : W :=
  ((W.mk (rowIssued s c a k) c (issuedRow k) .go).moveLand (rowXfer s c a k)).moveEnd

theorem seesAlike_rowIssued (s : State) (c : Fin 256) (a : Nat) (k : Cmd) : SeesAlike c s (rowIssued s c a k) := by
  have hcq : (rowXfer s c a k).cq < 16 := Nat.mod_lt _ (by decide)
  rw [rowIssued, keep_of_go rfl]
  exact (((seesAlike_onCell s c c _).trans (seesAlike_setOutst _ c hcq _)).trans (seesAlike_onCell _ c c _)).trans (seesAlike_syncMill _ c)

/-- Issuing the row changes no byte: the row is the cell's one outstanding transfer. -/
theorem rowIssued_leaves (s : State) (c a : Nat) (k : Cmd) (halone : (s.cell c).cmds = [k]) (hnone : (s.cell c).xfers = []) :
    let t := rowIssued s c a k
    (t.cell c).cmds = [issuedRow k] ∧ (t.cell c).xfers = [rowXfer s c a k] ∧ t.stores = s.stores ∧ t.bulk = s.bulk ∧ t.scache = s.scache ∧
      t.locals = s.locals ∧ t.sramErr = s.sramErr ∧ t.fab = s.fab := by
  have hgo : ((W.mk s c (issuedRow k) .go).begin (rowXfer s c a k)).halt = .go := rfl
  have hcell := cell_begin (W.mk s c (issuedRow k) .go) (rowXfer s c a k)
  have hcmds : (((W.mk s c (issuedRow k) .go).begin (rowXfer s c a k)).s.cell c).cmds = [k] := by rw [hcell, halone]
  have hxfers : (((W.mk s c (issuedRow k) .go).begin (rowXfer s c a k)).s.cell c).xfers = [rowXfer s c a k] := by
    rw [hcell, hnone, List.nil_append]
  obtain ⟨hstores, hbulk, hscache, hlocals, herr, hfab⟩ := begin_leaves (W.mk s c (issuedRow k) .go) (rowXfer s c a k)
  obtain ⟨kstores, kbulk, kscache, klocals⟩ := sameMemory_keep hgo
  obtain ⟨kerr, kfab⟩ := sramErr_fab_keep hgo
  exact ⟨cmds_keep_single hgo hcmds rfl, (xfers_keep hgo).trans hxfers, kstores.trans hstores, kbulk.trans hbulk, kscache.trans hscache,
    klocals.trans hlocals, kerr.trans herr, kfab.trans hfab⟩

theorem length_rowBytes (s : State) (c a len : Nat) : (rowBytes s c a len).length = len := by simp [rowBytes]

theorem rowBytes_eq (s : State) (c : Nat) {a len : Nat} (h : a + len ≤ 2 ^ 21) :
    rowBytes s c a len = (List.range len).map (fun i => Mem.get s.stores (c * 2 ^ 21 + a + i)) := by
  refine List.map_congr_left fun i hi => ?_
  have := List.mem_range.mp hi
  rw [storePlace_inside (by omega)]

/-- The row's bytes stand at the destination and every other byte of every memory is as before; the command has finished, the row's length
in BYTES. -/
def RowCopied (s : State) (c : Fin 256) (n a b len : Nat) (z : State) : Prop :=
  (∃ y, z.cmd c n = some y ∧ y.finished = true ∧ y.fault = none ∧ y.bytes = len) ∧ z.bulk = s.bulk ∧ z.scache = s.scache ∧
    z.locals = s.locals ∧ ∀ x, Mem.get z.stores x = if c.val * 2 ^ 21 + b ≤ x ∧ x < c.val * 2 ^ 21 + b + len then
      Mem.get s.stores (x + a - b) else Mem.get s.stores x

/-- What the stores hold once the bytes of a row stand at its destination. -/
theorem get_row {s : State} {c a b len : Nat} (ha : a + len ≤ 2 ^ 21) (x : Nat) :
    (if c * 2 ^ 21 + b ≤ x ∧ x < c * 2 ^ 21 + b + len then (rowBytes s c a len).getD (x - (c * 2 ^ 21 + b)) 0 else Mem.get s.stores x) =
      if c * 2 ^ 21 + b ≤ x ∧ x < c * 2 ^ 21 + b + len then Mem.get s.stores (x + a - b) else Mem.get s.stores x := by
  split
  next hin =>
    have hplace : c * 2 ^ 21 + a + (x - (c * 2 ^ 21 + b)) = x + a - b := by omega
    rw [rowBytes_eq s c ha, List.getD_eq_getElem _ _ (by rw [List.length_map, List.length_range]; omega), List.getElem_map,
      List.getElem_range, hplace]
  next => rfl

section
variable {s : State} {c : Fin 256} {n a b : Nat} {u : Fin 16} {k : Cmd} (h : OneRow s c n a b u k)
include h

/-- What the landing of the row gives, the command at work. -/
theorem OneRow.moveLand_eq : ∃ m, (W.mk (rowIssued s c a k) c (issuedRow k) .go).moveLand (rowXfer s c a k) =
      landedRow (rowIssued s c a k) m c (issuedRow k) (rowXfer s c a k) (k.u 32 4) ∧
    ∀ x, Mem.get m x = if c.val * 2 ^ 21 + b ≤ x ∧ x < c.val * 2 ^ 21 + b + k.u 32 4 then Mem.get s.stores (x + a - b)
      else Mem.get s.stores x := by
  obtain ⟨-, -, hstores, -, -, -, herr, -⟩ := rowIssued_leaves s c a k h.alone h.noXfers
  have hsees := seesAlike_rowIssued s c a k
  have hreach : ReachesStore (rowIssued s c a k) ((issuedRow k).ctx c).who c := by
    refine ⟨?_, hsees.dead.trans h.working.1⟩
    have hwho : ((issuedRow k).ctx c).who = .tenant u := by simp [Cmd.ctx, issuedRow, h.tenant]
    rw [hwho, State.ownsCell, hsees.tenant, h.holder]
    exact decide_eq_true rfl
  have hlen := length_rowBytes s c a (k.u 32 4)
  obtain ⟨m, hland, hm⟩ := moveLand_store (bs := rowBytes s c a (k.u 32 4)) (b := b) (x := rowXfer s c a k) (k := issuedRow k) c.isLt
    (by rw [hlen]; exact h.nonempty) (by rw [hlen]; exact h.destFits) (herr.trans h.noMarks) hreach (h.toHere.trans hsees.module.symm) h.noFault
    (by rw [rowXfer, h.dest]) rfl rfl
  rw [hlen] at hland hm
  refine ⟨m, hland, fun x => ?_⟩
  rw [hm, hstores]
  exact get_row h.sourceFits x

/-- The row lands in the one step: the copy is done, and nothing is left to do. -/
theorem OneRow.lands : (rowLanded s c a k).halt = .go ∧ RowCopied s c n a b (k.u 32 4) (rowLanded s c a k).keep ∧
    ((rowLanded s c a k).keep.cell c).xfers = [] := by
  obtain ⟨m, hland, hm⟩ := h.moveLand_eq
  obtain ⟨hcmds, hxfers, -, hbulk, hscache, hlocals, -, -⟩ := rowIssued_leaves s c a k h.alone h.noXfers
  obtain ⟨lstores, lbulk, lscache, llocals, lxfers, lnums⟩ :=
    landedRow_leaves (rowIssued s c a k) m c (issuedRow k) (rowXfer s c a k) (k.u 32 4)
  have hdone := landedRow_moveEnd (m := m) (len := k.u 32 4) (k := issuedRow k) hxfers
    (by show k.u 36 4 ≤ k.issued + 1; rw [h.rows]; omega)
  rw [rowLanded, hland, hdone]
  obtain ⟨hnum, hfault, hbytes⟩ := landedRow_cmd (rowIssued s c a k) m c (issuedRow k) (rowXfer s c a k) (k.u 32 4)
  have hbytes : (landedRow (rowIssued s c a k) m c (issuedRow k) (rowXfer s c a k) (k.u 32 4)).k.bytes = k.u 32 4 := by
    have hzero : (issuedRow k).bytes = 0 := h.bytes
    have := h.destFits
    rw [hbytes, hzero, Nat.zero_add, satTo, if_pos (by omega)]
  rw [hcmds] at lnums
  rw [hxfers, List.erase_cons_head] at lxfers
  have hgo : (landedRow (rowIssued s c a k) m c (issuedRow k) (rowXfer s c a k) (k.u 32 4)).halt = .go := rfl
  have hc : (landedRow (rowIssued s c a k) m c (issuedRow k) (rowXfer s c a k) (k.u 32 4)).c = c := rfl
  generalize landedRow (rowIssued s c a k) m c (issuedRow k) (rowXfer s c a k) (k.u 32 4) = w at *
  obtain ⟨y, hy, hynum⟩ := List.map_eq_singleton_iff.mp lnums
  obtain ⟨kstores, kbulk, kscache, klocals⟩ := sameMemory_keep (w := w.finish) hgo
  obtain ⟨kcmds, kxfers⟩ := cell_keep_finish hgo hc hy (hynum.trans hnum.symm)
  refine ⟨hgo, ⟨⟨w.finish.k, cmd_of_single kcmds (hnum.trans h.num), rfl, hfault.trans h.noFault, hbytes⟩, kbulk.trans (lbulk.trans hbulk),
    kscache.trans (lscache.trans hscache), klocals.trans (llocals.trans hlocals), fun x => ?_⟩, kxfers.trans lxfers⟩
  rw [kstores, show w.finish.s.stores = m from lstores]
  exact hm x

/-! ### The events in turn -/

theorem OneRow.cmd_rowIssued : (rowIssued s c a k).cmd c n = some (issuedRow k) :=
  cmd_of_single (rowIssued_leaves s c a k h.alone h.noXfers).1 h.num

theorem OneRow.xferAway_rowIssued (v : Nat) : (rowIssued s c a k).xferAway c n v = false := by
  obtain ⟨-, -, -, -, -, -, -, hfab⟩ := rowIssued_leaves s c a k h.alone h.noXfers
  rw [State.xferAway, hfab, h.noneAway]
  rfl

/-- The first step of the MOVE issues its row. -/
theorem OneRow.moveStep_issue : State.moveStep c n s = (rowIssued s c a k, true) := by
  obtain ⟨-, hcmd, hop, hfin, -⟩ := h.working
  have hnone : s.xfersOf c n = [] := by rw [State.xfersOf, h.noXfers]; rfl
  rw [State.moveStep, hnone, List.map_nil, List.nil_append, firstOf_single, moveIssue_of_ready hcmd hop hfin h.ready, h.moveIssue_eq]
  rfl

/-- The second step lands it. -/
theorem OneRow.moveStep_land : State.moveStep c n (rowIssued s c a k) = ((rowLanded s c a k).keep, true) := by
  obtain ⟨-, -, hop, -, hnum⟩ := h.working
  obtain ⟨-, hxfers, -⟩ := rowIssued_leaves s c a k h.alone h.noXfers
  obtain ⟨hgo, -⟩ := h.lands
  have hone : (rowIssued s c a k).xfersOf c n = [rowXfer s c a k] := by
    rw [State.xfersOf, hxfers, List.filter_cons_of_pos (by simp [rowXfer, hnum]), List.filter_nil]
  have hland := moveLand_of_xfer (x := rowXfer s c a k) h.cmd_rowIssued hop (by rw [hxfers]; exact List.mem_singleton_self _) hnum
    (h.xferAway_rowIssued _)
  rw [State.moveStep, hone, List.map_singleton, List.singleton_append, State.firstOf, hland, ← rowLanded, W.step, hgo]
  exact if_pos rfl

theorem OneRow.exec_move : ∃ t, exec (.move c n) s = .next t ∧ RowCopied s c n a b (k.u 32 4) t := by
  obtain ⟨hdead, hcmd, -⟩ := h.working
  obtain ⟨-, hcopied, hnone⟩ := h.lands
  obtain ⟨y, hy, hyfin, -⟩ := hcopied.1
  have hdone := moveStep_of_finished hy hyfin hnone
  have hsteps : State.steps (State.moveStep c n) (3 * k.u 36 4 + 3) s = (rowLanded s c a k).keep := by
    rw [h.rows, State.steps, h.moveStep_issue, if_pos rfl, State.steps, h.moveStep_land, if_pos rfl, steps_of_no_progress hdone]
  refine ⟨_, Proofs.exec_move hdead hcmd, ?_⟩
  rw [hsteps, work_of_finished hy hyfin]
  exact hcopied

/-- The row's transfer lands as the cell's first. -/
theorem OneRow.exec_transferLanded : ∃ z, exec (.transferLanded c 0) (rowIssued s c a k) = .next z ∧ RowCopied s c n a b (k.u 32 4) z := by
  obtain ⟨hdead, -, hop, -, hnum⟩ := h.working
  obtain ⟨-, hxfers, -⟩ := rowIssued_leaves s c a k h.alone h.noXfers
  obtain ⟨-, hcopied, -⟩ := h.lands
  exact ⟨_, exec_transferLanded_move (x := rowXfer s c a k) ((seesAlike_rowIssued s c a k).dead.trans hdead) h.cmd_rowIssued hop
    (by rw [hxfers]; rfl) hnum (h.xferAway_rowIssued _), hcopied⟩

end

theorem moveCopiesARow : MoveCopiesARow := by
  intro c q n a b u k s hw herr htenant hholder _ hfault hlive hissued hbytes halone hnone haway hq hroom hrows hfrom hto hsource hdest hpos
    hsourceFits hdestFits copied
  have h : OneRow s c n a b u k :=
    ⟨hw, herr, htenant, hholder, hfault, hlive, hissued, hbytes, halone, hnone, haway, hroom, hrows, hfrom, hto, hsource, hdest, hpos,
      hsourceFits, hdestFits⟩
  obtain ⟨hdead, hcmd, hop, hfin, hnum⟩ := hw
  obtain ⟨-, hxfers, hstores, hbulk, hscache, hlocals, -⟩ := rowIssued_leaves s c a k halone hnone
  refine ⟨h.exec_move, rowIssued s c a k, ?_, hstores, hbulk, hscache, hlocals, ?_, h.exec_transferLanded⟩
  · rw [exec_carterTransfer_move hdead hcmd hop hfin hq halone h.ready, h.moveIssue_eq]
    rfl
  · rw [hxfers, rowXfer, rowBytes_eq s c hsourceFits, hnum]

/-- Settles O55: each event of a MOVE is the step of its row, and a row inside a cell's store is read in it and written in it line by line. -/
theorem moveMovesItsRows : Obligations.MoveMovesItsRows := ⟨moveTakesItsRows, moveCopiesARow⟩

end Sys2Proof.Proofs
end

section
/-! PROOFS. Whether a cell can act, and whether a command stands in a cell that cannot (R48, R438): what the operations on registers, cells,
SRAM, bursts and frames leave of it. -/

namespace Sys2Proof.Proofs

open Sys2Proof Sys2Proof.Machine Sys2Proof.Claims

/-! ## Whether a cell can act -/

/-- What a state tells of a cell: whether it can act (R48, R438), and, where it cannot, whether a command of a number stands in it. -/
def standing (c n : Nat) (s : State) : Bool × Bool :=
  (s.cellDead c, s.cellDead c && ((s.cell c).cmds.map Cmd.num).contains n)

/-- A field no register of which, whatever its indices, shares a bit with FENCED or IN_RESET of a cell: it belongs to another block, or to
one other register of the cell, or to other bits. -/
def leavesStanding (f : Field) : Bool :=
  decide (f.blk = .cell → (f.stride = 0 ∧ f.base < 0x10000 ∧ f.base ≠ 0 ∧ f.base ≠ 0xFF0) ∨
    (0 < f.w ∧ f.lo + f.w ≤ 64 ∧ 0 < f.lo ∧ (8 ≤ f.lo ∨ f.lo + f.w ≤ 4)))

/-- A register of a cell is none of another block (R10). -/
theorem reg_ne_of_block {f : Field} (h : f.blk ≠ .cell) (b i : Nat) (c : Fin 256) {p : Nat} (hp : p < 0x10000) :
    Blk.cell.base c + p ≠ f.reg b i := by
  have hc := c.isLt
  have hbase : 0x2000000 ≤ f.blk.base b := by
    cases hb : f.blk <;> simp_all [Blk.base] <;> omega
  simp only [Field.reg, Blk.base] at *
  omega

section
variable {c : Fin 256} {n : Nat}

/-- The two fields of a cell that say whether it can act (R48, R438) read alike. -/
def SameLiveness (c : Nat) (s t : State) : Prop :=
  t.fld Fd.cellStateFenced c = s.fld Fd.cellStateFenced c ∧ t.fld (Fd.swrstInReset .cell) c = s.fld (Fd.swrstInReset .cell) c

theorem SameLiveness.trans {s t u : State} (h : SameLiveness c s t) (h' : SameLiveness c t u) : SameLiveness c s u := by
  obtain ⟨hfenced, hreset⟩ := h
  obtain ⟨hfenced', hreset'⟩ := h'
  exact ⟨hfenced'.trans hfenced, hreset'.trans hreset⟩

theorem cellDead_congr {s t : State} (h : SameLiveness c s t) : t.cellDead c = s.cellDead c := by
  obtain ⟨hfenced, hreset⟩ := h
  simp only [State.cellDead, State.fenced, State.inReset, State.flag, State.bitOf, hfenced, hreset]

theorem standing_congr {s t : State} (h : SameLiveness c s t)
    (hcmds : (t.cell c).cmds.map Cmd.num = (s.cell c).cmds.map Cmd.num) : standing c n t = standing c n s := by
  rw [standing, standing, cellDead_congr h, hcmds]

theorem cellDead_of_standing {s t : State} (h : standing c n t = standing c n s) : t.cellDead c = s.cellDead c := congrArg Prod.fst h

theorem standing_of_same {s t : State} (hregs : t.regs = s.regs) (hcells : t.cells = s.cells) : standing c n t = standing c n s := by
  have hfld (f : Field) : t.fld f c = s.fld f c := by rw [State.fld, State.fld, State.reg, State.reg, hregs]
  exact standing_congr ⟨hfld _, hfld _⟩ (by rw [State.cell, State.cell, hcells])

/-! ### Registers -/

theorem sameLiveness_setFld {f : Field} (hf : leavesStanding f = true) (s : State) (b i v : Nat) : SameLiveness c s (s.setFld f b i v) := by
  by_cases hblk : f.blk = .cell
  · rcases of_decide_eq_true hf hblk with ⟨hstride, hbase, hfenced, hreset⟩ | ⟨hw, h64, hlo, hbits⟩
    · constructor <;> refine fld_setFld_other s ?_ v
      · simp only [Field.reg, hblk, hstride, Fd.cellStateFenced, Blk.base]; omega
      · simp only [Field.reg, hblk, hstride, Fd.swrstInReset, Blk.base]; omega
    · constructor <;> refine fld_setFld_beside s hw h64 ?_ (by decide) v
      · simp only [Fd.cellStateFenced]; omega
      · simp only [Fd.swrstInReset]; omega
  · exact ⟨fld_setFld_other s (reg_ne_of_block hblk b i c (by decide)) v, fld_setFld_other s (reg_ne_of_block hblk b i c (by decide)) v⟩

theorem standing_setFld {f : Field} (hf : leavesStanding f = true) (s : State) (b i v : Nat) :
    standing c n (s.setFld f b i v) = standing c n s := standing_congr (sameLiveness_setFld hf s b i v) rfl

theorem standing_bump {f : Field} (hf : leavesStanding f = true) (s : State) (b i m : Nat) :
    standing c n (s.bump f b i m) = standing c n s := standing_setFld hf ..

theorem standing_inc {f : Field} (hf : leavesStanding f = true) (s : State) (b i : Nat) : standing c n (s.inc f b i) = standing c n s :=
  standing_setFld hf ..

theorem standing_setBit {f : Field} (hf : leavesStanding f = true) (s : State) (b i m : Nat) (v : Bool) :
    standing c n (s.setBit f b i m v) = standing c n s := standing_setFld hf ..

theorem standing_bumpCell {f : Field} (hf : leavesStanding f = true) (s : State) (d m : Nat) :
    standing c n (s.bumpCell f d m) = standing c n s := by
  unfold State.bumpCell
  split
  · rfl
  · exact standing_bump hf ..

/-! ### Parts of the state beside registers and cells -/

section
variable (s : State)

@[simp] theorem standing_setTinker (k : Nat) (x : Tinker) : standing c n (s.setTinker k x) = standing c n s := rfl
@[simp] theorem standing_onTinker (k : Nat) (f : Tinker → Tinker) : standing c n (s.onTinker k f) = standing c n s := rfl
@[simp] theorem standing_setFrame (f : Nat) (x : FrameInfo) : standing c n (s.setFrame f x) = standing c n s := rfl
@[simp] theorem standing_clearBursts (f : Nat) : standing c n (s.clearBursts f) = standing c n s := rfl
@[simp] theorem standing_noteSramUe : standing c n s.noteSramUe = standing c n s := rfl
@[simp] theorem standing_setPort (p : Nat) (x : PortSt) : standing c n (s.setPort p x) = standing c n s := rfl
@[simp] theorem standing_inject (vc : Nat) (p : Packet) (v : Option Nat) (k : Option (Nat × Nat)) :
    standing c n (s.inject vc p v k) = standing c n s := rfl
@[simp] theorem standing_joinWait (x : AllocWait) : standing c n (s.joinWait x) = standing c n s := rfl
@[simp] theorem standing_setSram (r : Sram) (m : Mem) : standing c n (s.setSram r m) = standing c n s := by cases r <;> rfl
@[simp] theorem standing_undoMem (z : State) : standing c n (s.undoMem z) = standing c n s := rfl

end

/-! ### Cells -/

theorem standing_setCell (s : State) (d : Nat) {x : CellSt} (h : x.cmds.map Cmd.num = (s.cell d).cmds.map Cmd.num) :
    standing c n (s.setCell d x) = standing c n s := by
  refine standing_congr ⟨rfl, rfl⟩ ?_
  by_cases hd : c.val = d
  · rw [← hd, State.cell_set_self, h, hd]
  · rw [State.cell_set_other s x hd]

theorem standing_onCell (s : State) (d : Nat) {f : CellSt → CellSt} (h : ∀ x, (f x).cmds.map Cmd.num = x.cmds.map Cmd.num) :
    standing c n (s.onCell d f) = standing c n s := standing_setCell s d (h _)

/-- Where the cell can act, its commands may come and go. -/
theorem standing_setCell_of_alive {s z : State} (hz : standing c n z = standing c n s) {d : Nat} (halive : d = c → s.cellDead c = false)
    (x : CellSt) : standing c n (z.setCell d x) = standing c n s := by
  rw [← hz]
  by_cases hd : c.val = d
  · have hbefore : z.cellDead c = false := (congrArg Prod.fst hz).trans (halive hd.symm)
    have hafter : (z.setCell d x).cellDead c = false := hbefore
    rw [standing, standing, hbefore, hafter, Bool.false_and, Bool.false_and]
  · exact standing_congr ⟨rfl, rfl⟩ (by rw [State.cell_set_other z x hd])

@[simp] theorem standing_setQueue (s : State) (d q : Nat) (l : List QEnt) : standing c n (s.setQueue d q l) = standing c n s :=
  standing_onCell s d fun _ => rfl

theorem num_map_replace {p : Cmd → Bool} {f : Cmd → Cmd} (h : ∀ y, p y = true → (f y).num = y.num) (l : List Cmd) :
    (l.map (fun y => if p y then f y else y)).map Cmd.num = l.map Cmd.num := by
  rw [List.map_map]
  refine List.map_congr_left fun y _ => ?_
  simp only [Function.comp_apply]
  split
  next hp => exact h y hp
  next => rfl

@[simp] theorem standing_putCmd (s : State) (d : Nat) (k : Cmd) : standing c n (s.putCmd d k) = standing c n s :=
  standing_onCell s d fun x => by
    simpa using num_map_replace (p := fun y => decide (y.num = k.num)) (f := fun _ => k) (fun y hy => (of_decide_eq_true hy).symm) x.cmds

/-! ### Several steps -/

theorem standing_ite {p : Prop} [Decidable p] {s x y : State} (hx : standing c n x = standing c n s) (hy : standing c n y = standing c n s) :
    standing c n (if p then x else y) = standing c n s := by
  split
  · exact hx
  · exact hy

theorem foldl_keeps {σ α β : Type} (g : σ → β) {f : σ → α → σ} {l : List α} (h : ∀ z, ∀ a ∈ l, g (f z a) = g z) (z : σ) :
    g (l.foldl f z) = g z := by
  induction l generalizing z with
  | nil => rfl
  | cons a l ih =>
    rw [List.foldl_cons, ih (fun y b hb => h y b (List.mem_cons_of_mem _ hb)), h z a List.mem_cons_self]

/-! ## SRAM (R70) -/

section
variable (s : State)

@[simp] theorem standing_sramCount (r : Sram) (a m : Nat) : standing c n (s.sramCount r a m) = standing c n s := by
  cases r
  · exact standing_bumpCell (by decide) ..
  · exact standing_bumpCell (by decide) ..
  · exact standing_bump (by decide) ..

@[simp] theorem standing_sramRead (r : Sram) (as : List Nat) : standing c n (s.sramRead r as).2.2 = standing c n s := by
  simp only [State.sramRead]
  split <;> split <;> simp

@[simp] theorem standing_sramWriteWord (r : Sram) (as : List (Nat × Byte)) : standing c n (s.sramWriteWord r as).2 = standing c n s := by
  simp only [State.sramWriteWord]
  split
  · rfl
  · rw [standing_setSram]
    have hcounted (p : Prop) [Decidable p] (a : Nat) : standing c n (if p then s.sramCount r a 1 else s) = standing c n s :=
      standing_ite (standing_sramCount ..) rfl
    exact standing_ite ((standing_of_same rfl rfl).trans (hcounted ..)) (hcounted ..)

@[simp] theorem standing_sramWriteWords (r : Sram) (gs : List (List (Nat × Byte))) :
    standing c n (s.sramWriteWords r gs).2 = standing c n s := by
  induction gs generalizing s with
  | nil => rfl
  | cons g gs ih =>
    simp only [State.sramWriteWords]
    split
    · simp
    · rw [ih, standing_sramWriteWord]

@[simp] theorem standing_sramWrite (r : Sram) (as : List (Nat × Byte)) : standing c n (s.sramWrite r as).2 = standing c n s :=
  standing_sramWriteWords s r _

@[simp] theorem standing_storeRead (d off m : Nat) : standing c n (s.storeRead d off m).2.2 = standing c n s := standing_sramRead s _ _

@[simp] theorem standing_storeWrite (d off : Nat) (bs : List Byte) : standing c n (s.storeWrite d off bs).2 = standing c n s :=
  standing_sramWrite s _ _

@[simp] theorem standing_countRunWrap (w : Who) (a m : Nat) : standing c n (s.countRunWrap w a m) = standing c n s := by
  unfold State.countRunWrap
  split
  · exact standing_bump (by decide) ..
  · rfl

/-! ## Bursts and frames (R260 to R269) -/

@[simp] theorem standing_refFrame (f : Nat) : standing c n (s.refFrame f) = standing c n s := by
  unfold State.refFrame
  split <;> rfl

@[simp] theorem standing_syncPool : standing c n s.syncPool = standing c n s := by
  simp (disch := decide) only [State.syncPool, standing_setFld]

@[simp] theorem standing_markLost (m d p : Nat) : standing c n (s.markLost m d p) = standing c n s := by
  simp only [State.markLost]
  split <;> split <;> simp (disch := decide) only [standing_syncPool, standing_setBit]

@[simp] theorem standing_suspectPin (m d p : Nat) : standing c n (s.suspectPin m d p).1 = standing c n s := by
  simp only [State.suspectPin]
  split
  · exact (standing_markLost ..).trans (standing_of_same rfl rfl)
  · exact standing_of_same rfl rfl

@[simp] theorem standing_burstRead (a : Nat) : standing c n (s.burstRead a).2.2 = standing c n s := by
  have hcounted (x : State) (p : Prop) [Decidable p] (f : Field) (hf : leavesStanding f = true) (b i m : Nat) :
      standing c n (if p then x else x.bump f b i m) = standing c n x := standing_ite rfl (standing_bump hf ..)
  have hpins (l : List Nat) (m d : Nat) (q : State × Bool) :
      standing c n (l.foldl (fun (x : State × Bool) p => ((x.1.suspectPin m d p).1, x.2 || (x.1.suspectPin m d p).2)) q).1 = standing c n q.1 := by
    induction l generalizing q with
    | nil => rfl
    | cons p l ih => rw [List.foldl_cons, ih, standing_suspectPin]
  simp only [State.burstRead]
  split
  · simp (disch := decide) only [standing_bump, standing_setFld, hcounted]
  · split <;> simp (disch := decide) only [standing_bump, hpins, hcounted]

@[simp] theorem standing_bulkGet (a m : Nat) : standing c n (s.bulkGet a m).st = standing c n s := by
  have hread := standing_burstRead (c := c) (n := n) (s.refFrame (a / 65536)) a
  rw [standing_refFrame] at hread
  simp only [State.bulkGet]
  split
  · exact (standing_bump (by decide) ..).trans (standing_refFrame ..)
  · split <;> rename_i hgot <;> rw [hgot] at hread <;> exact hread

@[simp] theorem standing_bulkPut (a : Nat) (bs : List Byte) : standing c n (s.bulkPut a bs).st = standing c n s := by
  have hcow (x : State) (p : Prop) [Decidable p] : standing c n (if p then x.bump Fd.poolCowWriteCnt else x) = standing c n x :=
    standing_ite (standing_bump (by decide) ..) rfl
  simp only [State.bulkPut]
  split
  · exact (standing_bump (by decide) ..).trans (standing_refFrame ..)
  · split
    · exact (standing_of_same rfl rfl).trans ((hcow _ _).trans (standing_refFrame ..))
    · split <;> rename_i hgot <;> replace hgot := congrArg (fun r => standing c n r.2.2) hgot <;>
        simp (disch := decide) only [standing_burstRead, standing_bump, hcow, standing_refFrame] at hgot
      · exact hgot.symm
      · exact (standing_of_same rfl rfl).trans hgot.symm

@[simp] theorem standing_setPte (t tpn : Nat) (p : Pte) : standing c n (s.setPte t tpn p) = standing c n s := standing_bulkPut s _ _

@[simp] theorem standing_readPte (t tpn : Nat) : standing c n (s.readPte t tpn).st = standing c n s := by
  simp only [State.readPte]
  split
  · exact standing_bump (by decide) ..
  · exact standing_bulkGet ..

@[simp] theorem standing_readBursts (f : Nat) (bs : List Nat) : standing c n (s.readBursts f bs).st = standing c n s := by
  induction bs generalizing s with
  | nil => rfl
  | cons b bs ih =>
    have hread := standing_burstRead (c := c) (n := n) s (f * 65536 + 64 * b)
    unfold State.readBursts
    split <;> rename_i hgot <;> rw [hgot] at hread
    · exact hread
    · exact (ih _).trans hread

@[simp] theorem standing_frameRead (f : Nat) : standing c n (s.frameRead f).st = standing c n s := by
  simp only [State.frameRead]
  split
  · exact standing_bump (by decide) ..
  · split
    · exact (standing_bump (by decide) ..).trans (standing_refFrame ..)
    · simp

@[simp] theorem standing_copyFrame (src dst : Nat) : standing c n (s.copyFrame src dst).st = standing c n s := by
  simp only [State.copyFrame]
  split
  · simp
  · rw [standing_refFrame, standing_clearBursts]
    exact (standing_of_same rfl rfl).trans (standing_frameRead ..)

end

end

end Sys2Proof.Proofs
end

section
/-! PROOFS. Pages, transactions and stream queues leave whether a cell can act, and strand no command in it (R65, R106, R141, R142, R281 to
R303, R358 to R370). -/

namespace Sys2Proof.Proofs

open Sys2Proof Sys2Proof.Machine Sys2Proof.Claims

section
variable {c : Fin 256} {n : Nat} (s : State)

/-! ## Pages, transactions and bulk addresses (R281 to R303, R358 to R370) -/

@[simp] theorem standing_startDemote (purpose : Nat) (cmd : Option (Nat × Nat)) (t : Fin 16) (tpn : Nat) :
    standing c n (s.startDemote purpose cmd t tpn) = standing c n s :=
  (standing_of_same rfl rfl).trans (standing_setPte ..)

@[simp] theorem standing_flashDropped : standing c n s.flashDropped = standing c n s := standing_bump (by decide) ..

@[simp] theorem standing_alloc (t : Fin 16) (tpn : Nat) (cmd : Option (Nat × Nat)) (hint : Option (Nat × Nat)) (d : Option Nat) :
    standing c n (s.alloc t tpn cmd hint d).2 = standing c n s := by
  simp only [State.alloc]
  split
  · exact standing_setFld (by decide) ..
  · split
    · rfl
    · split
      · split
        · rfl
        · split
          · exact standing_flashDropped s
          · exact (standing_joinWait ..).trans (standing_startDemote ..)
      · rfl

@[simp] theorem standing_dropFrame (f : Nat) : standing c n (s.dropFrame f) = standing c n s := standing_syncPool _

@[simp] theorem standing_faultIn (cmd : Option (Nat × Nat)) (d : Option Nat) (hint : Option (Nat × Nat)) (t : Fin 16) (tpn : Nat) :
    standing c n (s.faultIn cmd d hint t tpn).2 = standing c n s := by
  have halloc := standing_alloc (c := c) (n := n) s t tpn cmd hint d
  simp only [State.faultIn]
  split
  · rfl
  split
  · rfl
  split
  · rfl
  split
  · exact standing_flashDropped s
  split <;> rename_i hgot <;> rw [hgot] at halloc
  · exact halloc
  · exact halloc
  · exact (standing_of_same rfl rfl).trans ((standing_setPte ..).trans halloc)

@[simp] theorem standing_addPinned (t : Fin 16) (d : Int) : standing c n (s.addPinned t d) = standing c n s := standing_setFld (by decide) ..

@[simp] theorem standing_undoFlash (o : FlashOp) (lost : Bool) : standing c n (s.undoFlash o lost) = standing c n s := by
  simp only [State.undoFlash]
  split
  · simp
  split
  · simp
  split
  · split <;> simp
  split
  · simp
  · rfl

@[simp] theorem standing_setTxnState (t : Fin 16) (k v : Nat) : standing c n (s.setTxnState t k v) = standing c n s :=
  standing_setFld (by decide) ..

@[simp] theorem standing_doom (t : Fin 16) (id : Nat) : standing c n (s.doom t id) = standing c n s := by
  unfold State.doom
  split
  · exact standing_ite (standing_setTxnState ..) rfl
  · rfl

theorem standing_setPool (x : PoolSt) : standing c n { s with pool := x } = standing c n s := rfl

@[simp] theorem standing_makeShadow (x : Ctx) (t : Fin 16) (slot tpn : Nat) : standing c n (s.makeShadow x t slot tpn).2 = standing c n s := by
  have hread := standing_readPte (c := c) (n := n) s t.val tpn
  simp only [State.makeShadow]
  generalize (s.readPte t.val tpn).st = z at hread ⊢
  have hfault := standing_faultIn (c := c) (n := n) z x.cmd x.cell none t tpn
  split
  · exact hread
  split
  · exact hread
  split
  · exact hread
  split
  · split
    · exact hread
    · split <;> exact hread
  split
  · exact hread
  split
  · exact hread
  split
  next y hin =>
    rw [hin] at hfault
    have halloc := standing_alloc (c := c) (n := n) y t tpn x.cmd (some (stackOf (z.pte t.val tpn).frame, regionOf (z.pte t.val tpn).frame)) x.cell
    split <;> rename_i hgot <;> rw [hgot] at halloc <;> replace halloc := halloc.trans (hfault.trans hread)
    · exact halloc
    · exact halloc
    · split
      · exact (standing_dropFrame ..).trans ((standing_copyFrame ..).trans ((standing_setFrame ..).trans halloc))
      · refine (standing_setPool ..).trans ?_
        simp (disch := decide) only [standing_setFld, standing_addPinned, standing_setPte, standing_copyFrame, standing_setFrame]
        exact halloc
  next => exact hfault.trans hread

@[simp] theorem standing_route (x : Ctx) (f : Nat) (write : Bool) : standing c n (s.route x f write).2 = standing c n s := by
  simp only [State.route]
  split
  · rfl
  next t id _ =>
    split
    · split
      · exact standing_bump (by decide) ..
      · rfl
    next k _ =>
      split
      · split
        · split
          · rfl
          · split <;> rfl
        · split
          · rfl
          · split
            · exact standing_doom ..
            · rfl
      · split
        · rfl
        · split
          · rfl
          · have hshadow := standing_makeShadow (c := c) (n := n) s x t k (s.frame f).tpn
            split <;> rename_i hgot <;> rw [hgot] at hshadow
            · split <;> exact hshadow
            · exact hshadow
            · exact (standing_doom ..).trans hshadow

@[simp] theorem standing_bulkAccess (x : Ctx) (a : Nat) (w : Option (List Byte)) (m : Nat) :
    standing c n (s.bulkAccess x a w m).st = standing c n s := by
  have hroute := standing_route (c := c) (n := n) s x (a / 65536) w.isSome
  simp only [State.bulkAccess]
  split
  · split
    · split
      · exact standing_bump (by decide) ..
      · exact standing_bump (by decide) ..
    · exact standing_bump (by decide) ..
  · split <;> rename_i hgot <;> rw [hgot] at hroute
    · exact hroute
    · exact hroute
    · split
      · exact (standing_bump (by decide) ..).trans hroute
      · split
        · exact (standing_bulkGet ..).trans hroute
        · exact (standing_bulkPut ..).trans hroute

end

section
variable {c : Fin 256} {n : Nat} (s : State)

/-! ## Appending to a stream queue (R65, R106, R136, R141, R142) -/

@[simp] theorem standing_withdraw (d : Nat) (k : Cmd) : standing c n (s.withdraw d k) = standing c n s := by
  unfold State.withdraw
  split
  · rfl
  · refine foldl_keeps (standing c n) (fun z b _ => ?_) s
    refine standing_ite rfl (standing_ite (standing_onCell z _ fun x => ?_) (standing_ite (standing_onCell z _ fun _ => rfl) rfl))
    simpa using num_map_replace (p := fun y : Cmd => decide (y.mcTag (k.u 36 2) = true ∧ (!y.mcOut.contains d) = true))
      (f := fun y => { y with mcOut := d :: y.mcOut }) (fun _ _ => rfl) x.cmds

@[simp] theorem standing_stopCmd (d : Nat) (k : Cmd) (mark : Bool) : standing c n (s.stopCmd d k mark).1 = standing c n s := by
  have hslots (slots : List Nat) (z : State) :
      standing c n (slots.foldl (fun z i => z.setFld Fd.cellTillSlotBusy d i 0) z) = standing c n z :=
    foldl_keeps (standing c n) (fun z i _ => standing_setFld (f := Fd.cellTillSlotBusy) (by decide) z d i 0) z
  rw [State.stopCmd]
  dsimp only
  rw [standing_bumpCell (by decide), standing_setFld (by decide), hslots, standing_putCmd]
  exact standing_onCell s d fun _ => rfl

@[simp] theorem standing_readDesc (d off : Nat) : standing c n (s.readDesc d off).2.2 = standing c n s := by
  obtain ⟨bs, bad, z, hread, hz⟩ : ∃ bs bad z, s.readDesc d off = (bs, bad, z) ∧ standing c n z = standing c n s :=
    ⟨_, _, _, rfl, (standing_storeRead ..).trans (standing_storeRead ..)⟩
  rw [hread]
  exact hz

theorem standing_retireEntry (d q : Nat) (e : QEnt) (halive : d = c → s.cellDead c = false) :
    standing c n (s.retireEntry d q e) = standing c n s := by
  cases hdesc : e.desc with
  | some bs =>
    simp only [State.retireEntry, hdesc]
    exact (standing_withdraw ..).trans (standing_setCell_of_alive rfl halive _)
  | none =>
    simp only [State.retireEntry, hdesc]
    exact (standing_withdraw ..).trans (standing_setCell_of_alive (standing_readDesc ..) halive _)

@[simp] theorem standing_chainFrom (d q off : Nat) (desc : List Byte) (num root : Nat) :
    standing c n (s.chainFrom d q off desc num root) = standing c n s := by
  unfold State.chainFrom
  split
  · rfl
  · dsimp only
    have hread := standing_readDesc (c := c) (n := n) s d ((off + 64 * max 1 (ceilDiv (fieldB desc 2 1) 4)) % 2 ^ 21)
    generalize s.readDesc d _ = r at hread ⊢
    rw [standing_setQueue, ← hread]
    exact standing_setCell r.2.2 d rfl

@[simp] theorem standing_cancelStarted (d : Nat) (hit : List Cmd) : standing c n (s.cancelStarted d hit).1 = standing c n s := by
  refine foldl_keeps (fun z : State × Nat => standing c n z.1) (fun z k _ => ?_) (s, 0)
  dsimp only
  split
  · rfl
  · split <;> simp

theorem standing_retireEntries (d q : Nat) (es : List QEnt) (halive : d = c → s.cellDead c = false) :
    standing c n (es.foldl (fun z e => z.retireEntry d q e) s) = standing c n s := by
  induction es generalizing s with
  | nil => rfl
  | cons e es ih =>
    have hone := standing_retireEntry (n := n) s d q e halive
    exact (ih _ fun hd => (cellDead_of_standing hone).trans (halive hd)).trans hone

theorem standing_cancelStart (d q off seq : Nat) (desc : List Byte) (halive : d = c → s.cellDead c = false) :
    standing c n (s.cancelStart d q off seq desc) = standing c n s := by
  simp only [State.cancelStart]
  have hstarted := standing_cancelStarted (c := c) (n := n) s d ((s.cell d).cmds.filter (fun k =>
    decide (k.q = fieldB desc 20 1 % 16) && ((fieldB desc 21 1).testBit 0 || decide (k.off = fieldB desc 16 4 % 2 ^ 21 / 64 * 64)) &&
      s.stoppable d k))
  generalize s.cancelStarted d _ = r at hstarted ⊢
  have hqueue (tq : Nat) (l : List QEnt) : standing c n (r.1.setQueue d tq l) = standing c n s := (standing_setQueue ..).trans hstarted
  have hgone (tq : Nat) (l es : List QEnt) :
      standing c n (es.foldl (fun z e => z.retireEntry d tq e) (r.1.setQueue d tq l)) = standing c n s :=
    (standing_retireEntries _ d tq es fun hd => (cellDead_of_standing (hqueue tq l)).trans (halive hd)).trans (hqueue tq l)
  rw [standing_chainFrom, standing_storeWrite]
  exact standing_setCell_of_alive ((standing_of_same rfl rfl).trans (standing_ite (hgone ..) (hqueue ..))) halive _

theorem standing_append (d q off : Nat) (halive : d = c → s.cellDead c = false) : standing c n (s.append d q off) = standing c n s := by
  have hnext : standing c n (s.setCell d { s.cell d with nextSeq := (s.cell d).nextSeq + 1 }) = standing c n s := standing_setCell s d rfl
  simp only [State.append]
  split
  · rw [standing_cancelStart, standing_readDesc, hnext]
    exact fun hd => (cellDead_of_standing ((standing_readDesc ..).trans hnext)).trans (halive hd)
  · rw [standing_setQueue, hnext]

@[simp] theorem standing_dropBytes (d num m : Nat) : standing c n (s.dropBytes d num m) = standing c n s := by
  simp only [State.dropBytes]
  split
  next x _ =>
    refine (standing_onCell _ d fun y => ?_).trans (standing_bumpCell (by decide) ..)
    simpa using num_map_replace (p := fun k : Cmd => decide (k.num = x)) (f := fun k => { k with bytes := satTo (2 ^ 48 - 1) (k.bytes + m) })
      (fun _ _ => rfl) y.cmds
  next => exact standing_bumpCell (by decide) ..

end

end Sys2Proof.Proofs
end

section
/-! PROOFS. What a write to a register sets off leaves whether another cell can act: RUN bits, streams, memory-side operations, ports and the
resets of units (R83, R276 to R278, R313, R436 to R438). -/

namespace Sys2Proof.Proofs

open Sys2Proof Sys2Proof.Machine Sys2Proof.Claims

section
variable {c : Fin 256} {n : Nat} (s : State)

/-! ## What a write to a register sets off -/

/-! ### Tinkers and streams (R83, R375 to R377) -/

@[simp] theorem standing_setRun (k : Nat) (v : Bool) : standing c n (s.setRun k v) = standing c n s := by
  unfold State.setRun
  split <;> exact standing_setBit (by decide) ..

@[simp] theorem standing_startTinker (k : Nat) : standing c n (s.startTinker k) = standing c n s :=
  standing_ite (standing_setRun ..) ((standing_setTinker ..).trans (standing_setRun ..))

@[simp] theorem standing_stopTinker (k : Nat) : standing c n (s.stopTinker k) = standing c n s := by
  simp only [State.stopTinker]
  split <;> simp

@[simp] theorem standing_writeRun (d first old new : Nat) : standing c n (s.writeRun d first old new) = standing c n s :=
  foldl_keeps (standing c n) (fun z _ _ => standing_ite (standing_startTinker z _) (standing_ite (standing_stopTinker z _) rfl)) s

@[simp] theorem standing_drawStream (t st : Nat) : standing c n (s.drawStream t st).2.2 = standing c n s := by
  simp only [State.drawStream]
  split
  · rfl
  split
  · exact standing_setFld (by decide) ..
  · simp (disch := decide) only [standing_setFld]

@[simp] theorem standing_armStream (i : Nat) : standing c n (s.armStream i) = standing c n s := standing_setFld (by decide) ..

@[simp] theorem standing_armAll (t : Nat) : standing c n (s.armAll t) = standing c n s :=
  foldl_keeps (standing c n) (fun z _ _ => standing_armStream z _) s

/-! ### Memory-side operations (R276 to R278) -/

@[simp] theorem standing_msRead (x : Ctx) (a : Nat) (ps : List (Nat × Nat)) : standing c n (s.msRead x a ps).st = standing c n s := by
  induction ps generalizing s with
  | nil => rfl
  | cons p ps ih =>
    simp only [State.msRead]
    split
    · exact standing_bulkAccess ..
    · exact (ih _).trans (standing_bulkAccess ..)

@[simp] theorem standing_msWrite (x : Ctx) (a : Nat) (bs : List Byte) (ps : List (Nat × Nat)) :
    standing c n (s.msWrite x a bs ps).st = standing c n s := by
  induction ps generalizing s with
  | nil => rfl
  | cons p ps ih =>
    simp only [State.msWrite]
    split
    · exact standing_bulkAccess ..
    · exact (ih _).trans (standing_bulkAccess ..)

@[simp] theorem standing_msRun (x : Ctx) (m kind : Nat) (imm : Option Nat) (dst src count i : Nat) :
    standing c n (s.msRun x m kind imm dst src count i).2 = standing c n s := by
  induction count generalizing s i with
  | zero => rfl
  | succ count ih =>
    have hsource (g : Got) (hg : standing c n g.st = standing c n s) (a : Nat) (bs : List Byte) (ps : List (Nat × Nat)) :
        standing c n (g.st.msWrite x a bs ps).st = standing c n s := (standing_msWrite ..).trans hg
    simp only [State.msRun]
    split
    · exact standing_bump (by decide) ..
    · have himm (a : Nat) (ps : List (Nat × Nat)) : standing c n (match imm with
          | some v => Got.ok (leBytes (msSize kind) v) s
          | none => s.msRead x a ps).st = standing c n s := by
        cases imm with
        | some v => rfl
        | none => exact standing_msRead ..
      split
      · exact himm ..
      · split
        · exact hsource _ (himm ..) ..
        · exact (ih ..).trans (hsource _ (himm ..) ..)

theorem standing_setStk (x : StackSt) : standing c n { s with stk := x } = standing c n s := rfl

@[simp] theorem standing_msGo (who : Who) (m kind : Nat) (imm : Bool) : standing c n (s.msGo who m kind imm) = standing c n s := by
  simp only [State.msGo]
  split
  · simp (disch := decide) only [standing_bump, standing_setFld]
  split
  · exact standing_bump (by decide) ..
  split
  · simp (disch := decide) only [standing_setFld]
  · refine (standing_setStk ..).trans ?_
    rw [standing_setFld (by decide), standing_msRun]

/-! ### Scecy ports, queue pairs and Weaver instances (R313, R328, R333, R404) -/

@[simp] theorem standing_setLink (p v : Nat) : standing c n (s.setLink p v) = standing c n s := by
  simp (disch := decide) only [State.setLink, standing_setBit, standing_setFld]

@[simp] theorem standing_owe (port : Option Nat) (pool m : Nat) : standing c n (s.owe port pool m) = standing c n s := by
  unfold State.owe
  split
  · exact standing_ite (standing_setPort ..) rfl
  · rfl

@[simp] theorem standing_dropPort (p link : Nat) : standing c n (s.dropPort p link) = standing c n s := by
  have howed (ts : List Transit) : standing c n (ts.foldl (fun (z : State) (t : Transit) => z.owe t.port t.pool t.bodies.length) s) =
      standing c n s := foldl_keeps (standing c n) (fun z t _ => standing_owe z t.port t.pool t.bodies.length) s
  simp only [State.dropPort]
  rw [standing_setLink, standing_setPort, standing_bump (by decide)]
  exact (standing_of_same rfl rfl).trans (howed _)

@[simp] theorem standing_portCtrl (p : Nat) (enable retrain : Bool) : standing c n (s.portCtrl p enable retrain) = standing c n s := by
  have hlinked : standing c n (if !enable then s
      else if !s.flag Fd.scecyCtrlEnable p then (if s.link p = 3 then s else s.dropPort p 3)
      else if s.link p = 0 ∨ s.link p = 3 then (s.setPort p PortSt.init).setLink p 1 else s) = standing c n s :=
    standing_ite rfl (standing_ite (standing_ite rfl (standing_dropPort ..)) (standing_ite (standing_setLink ..) rfl))
  exact standing_ite ((standing_setPort ..).trans hlinked) hlinked

@[simp] theorem standing_errQps (f : Qp → Bool) : standing c n (s.errQps f) = standing c n s := by
  simp only [State.errQps]
  exact (foldl_keeps (standing c n) (fun z q _ => standing_setFld (by decide) z _ _ _) _).trans (standing_of_same rfl rfl)

@[simp] theorem standing_doubt (k : Cmd) : standing c n (s.doubt k) = standing c n s := by
  unfold State.doubt
  split
  next t _ =>
    refine standing_ite (foldl_keeps (standing c n) (fun z id _ => ?_) s) rfl
    split
    · exact standing_ite (standing_setTxnState ..) rfl
    · rfl
  next => rfl

@[simp] theorem standing_endInsts (f : Inst → Bool) (code : Option Code) (cancel : Bool) :
    standing c n (s.endInsts f code cancel) = standing c n s := by
  refine (foldl_keeps (standing c n) (fun z i _ => ?_) _).trans (standing_of_same rfl rfl)
  have hflight : standing c n (z.setFld Fd.weaverChanInflight 0 (16 * i.t.val + i.ch.val)
      (z.fld Fd.weaverChanInflight 0 (16 * i.t.val + i.ch.val) - 1)) = standing c n z := standing_setFld (by decide) ..
  dsimp only
  generalize z.setFld Fd.weaverChanInflight _ _ _ = z0 at hflight ⊢
  have hdoubt : standing c n (match z0.cmd i.cell i.cmd with
      | some k => z0.doubt k
      | none => z0) = standing c n z := by
    split
    · exact (standing_doubt ..).trans hflight
    · exact hflight
  split
  · exact standing_ite hdoubt ((standing_putCmd ..).trans hdoubt)
  · exact hdoubt

/-! ### Resets of units (R436 to R438) -/

@[simp] theorem standing_scrambleMs (m : Nat) : standing c n (s.scrambleMs m) = standing c n s := standing_of_same rfl rfl

theorem reg_filter_regs {p : Nat × BitVec 64 → Bool} {o : Nat} (h : ∀ v, p (o, v) = true) :
    ({ s with regs := s.regs.filter p } : State).reg o = s.reg o := by
  show Tab.get resetValue (s.regs.filter p) o = Tab.get resetValue s.regs o
  induction s.regs with
  | nil => rfl
  | cons e m ih =>
    obtain ⟨x, v⟩ := e
    by_cases hx : o = x
    · subst hx
      simp [Tab.get, h]
    · cases hp : p (x, v) <;> simp [Tab.get, hp, hx, ih]

/-- Clearing a cell's registers leaves those of another. -/
theorem standing_clearCellRegs {d : Nat} (hne : d ≠ c) : standing c n (s.clearCellRegs d) = standing c n s := by
  have hqueues (z : State) : standing c n ((List.range 16).foldl (fun z q => z.setFld Fd.cellQueueOutst d q 0) z) = standing c n z :=
    foldl_keeps (standing c n) (fun z q _ => standing_setFld (by decide) z d q 0) z
  have hout : ∀ p < 0x10000, Blk.cell.base c + p < Blk.cell.base d ∨ Blk.cell.base d + 0x10000 ≤ Blk.cell.base c + p := by
    intro p hp
    simp only [Blk.base]
    omega
  have hfenced : Fd.cellStateFenced.reg c 0 < Blk.cell.base d ∨ Blk.cell.base d + 0x10000 ≤ Fd.cellStateFenced.reg c 0 := hout 0 (by decide)
  have hreset : (Fd.swrstInReset .cell).reg c 0 < Blk.cell.base d ∨ Blk.cell.base d + 0x10000 ≤ (Fd.swrstInReset .cell).reg c 0 :=
    hout 0xFF0 (by decide)
  simp only [State.clearCellRegs]
  simp (disch := decide) only [standing_setFld, hqueues]
  refine standing_congr ⟨fld_congr (reg_filter_regs s fun _ => ?_), fld_congr (reg_filter_regs s fun _ => ?_)⟩ rfl
  · simpa using Or.inl hfenced
  · simpa using Or.inl hreset

/-- The reset of a cell leaves another. -/
theorem standing_resetCell {d : Nat} (hne : d ≠ c) : standing c n (s.resetCell d) = standing c n s := by
  have hundone (os : List FlashOp) : standing c n (os.foldl (fun (z : State) (o : FlashOp) => z.undoFlash o false) s) = standing c n s :=
    foldl_keeps (standing c n) (fun z o _ => standing_undoFlash z o false) s
  have hearly (is : List Inst) (g : State → Inst → WeavSt) (z : State) :
      standing c n (is.foldl (fun z i => { z with weav := g z i }) z) = standing c n z :=
    foldl_keeps (f := fun z i => { z with weav := g z i }) (standing c n) (fun _ _ _ => rfl) z
  have hunits (z : State) (fl : FlashSt) (ts : Tab Tinker) (sl : List SliceReq) :
      standing c n { z with flash := fl, tinkers := ts, slices := sl } = standing c n z := rfl
  simp only [State.resetCell]
  refine (standing_clearCellRegs _ hne).trans (standing_setCell_of_alive ((hunits ..).trans ?_) (fun h => absurd h hne) _)
  rw [hearly, standing_endInsts, hundone]

/-- A cell's reset takes its commands away. -/
theorem cmds_resetCell (d : Nat) : ((s.resetCell d).cell d).cmds = [] := by
  have hqueues (z : State) : ((List.range 16).foldl (fun z q => z.setFld Fd.cellQueueOutst d q 0) z).cell d = z.cell d :=
    foldl_keeps (fun z : State => z.cell d) (fun z q _ => State.cell_set_fld z d _ _ _ _) z
  have hregs (z : State) : (z.clearCellRegs d).cell d = z.cell d := by
    rw [State.clearCellRegs, State.cell_set_fld, State.cell_set_fld, State.cell_set_fld, hqueues]
    rfl
  obtain ⟨z, till, hreset⟩ : ∃ z till, s.resetCell d = (State.setCell z d { CellSt.init with till := till }).clearCellRegs d := ⟨_, _, rfl⟩
  rw [hreset, hregs, State.cell_set_self]
  rfl

end

end Sys2Proof.Proofs
end

section
/-! PROOFS. No access strands a command in a cell that cannot act: a reset of the cell takes its commands away, and all else leaves whether it can
act. Writes to control space and runs of the data space (R7, R11 to R13, R382, R412, R417, R431 to R439). -/

namespace Sys2Proof.Proofs

open Sys2Proof Sys2Proof.Machine Sys2Proof.Claims

section
variable {c : Fin 256} {n : Nat} (s : State)

theorem standing_setFld_of_reg_ne {f : Field} {b i : Nat} (hfenced : Fd.cellStateFenced.reg c 0 ≠ f.reg b i)
    (hreset : (Fd.swrstInReset .cell).reg c 0 ≠ f.reg b i) (v : Nat) : standing c n (s.setFld f b i v) = standing c n s :=
  standing_congr ⟨fld_setFld_other s hfenced v, fld_setFld_other s hreset v⟩ rfl

/-- The reset bit of a unit that is not the cell. -/
theorem standing_setInReset {b : Blk} {i : Nat} (h : b = .cell → i ≠ c) (u : Nat) (v : Bool) :
    standing c n (s.setBit (Fd.swrstInReset b) i 0 u v) = standing c n s := by
  by_cases hb : b = .cell
  · subst hb
    have hne := h rfl
    refine standing_setFld_of_reg_ne s ?_ ?_ _
    · simp only [Field.reg, Fd.cellStateFenced, Fd.swrstInReset, Blk.base]; omega
    · simp only [Field.reg, Fd.swrstInReset, Blk.base]; omega
  · exact standing_setBit (decide_eq_true fun hcell => absurd hcell hb) ..

/-- The reset of a unit that is not the cell leaves the cell as it stands. -/
theorem standing_resetUnit {b : Blk} {i : Nat} (h : b = .cell → i ≠ c) (u : Nat) :
    standing c n (s.resetUnit b i u) = standing c n s := by
  have hnoted : standing c n (if s.unitIdle b i u then s.setBit (Fd.swrstInReset b) i 0 u true
      else (s.setBit (Fd.swrstInReset b) i 0 u true).setBit (Fd.swrstNotIdle b) i 0 u true) = standing c n s :=
    standing_ite (standing_setInReset s h u true)
      ((standing_setBit (by cases b <;> decide) ..).trans (standing_setInReset s h u true))
  simp only [State.resetUnit]
  generalize (if s.unitIdle b i u then s.setBit (Fd.swrstInReset b) i 0 u true
      else (s.setBit (Fd.swrstInReset b) i 0 u true).setBit (Fd.swrstNotIdle b) i 0 u true) = s1 at hnoted ⊢
  cases b with
  | cell => exact (standing_resetCell s1 (h rfl)).trans hnoted
  | stack =>
    refine (standing_setStk ..).trans ((standing_setFld (by decide) ..).trans ?_)
    exact standing_ite hnoted ((standing_scrambleMs ..).trans hnoted)
  | scecy => exact (standing_setFld (by decide) ..).trans ((standing_dropPort ..).trans hnoted)
  | eth => exact (standing_setFld (by decide) ..).trans ((standing_setFld (by decide) ..).trans ((standing_errQps ..).trans hnoted))
  | weaver => exact standing_ite ((standing_endInsts ..).trans hnoted) hnoted
  | flash =>
    have hundone (os : List FlashOp) (z : State) :
        standing c n (os.foldl (fun (z : State) (o : FlashOp) => z.undoFlash o false) z) = standing c n z :=
      foldl_keeps (standing c n) (fun z o _ => standing_undoFlash z o false) z
    have hflash (z : State) (x : FlashSt) : standing c n { z with flash := x } = standing c n z := rfl
    refine Eq.trans (foldl_keeps (standing c n) (fun z cn _ => ?_) _) ?_
    · split
      · rw [standing_setFld (by decide)]
        exact (standing_onCell (f := fun x => { x with xfers := x.xfers.filter fun y => decide (y.num ≠ _) }) _ _ fun _ => rfl).trans
          (standing_putCmd ..)
      · rfl
    · rw [standing_setFld (by decide), hundone, hflash, hnoted]
  | scecyAll => exact hnoted
  | ethAll => exact hnoted
  | pool => exact hnoted
  | scache => exact hnoted
  | clerk => exact hnoted
  | rst => exact hnoted
  | module => exact hnoted

/-- No command of the number stands in the cell while the cell cannot act. -/
def NotStranded (c n : Nat) (s : State) : Prop := (standing c n s).2 = false

variable {s}

theorem NotStranded.of_standing {t : State} (h : NotStranded c n s) (heq : standing c n t = standing c n s) : NotStranded c n t :=
  (congrArg Prod.snd heq).trans h

theorem notStranded_of_noCmds (h : (s.cell c).cmds = []) : NotStranded c n s := by simp [NotStranded, standing, h]

theorem notStranded_of_alive (h : s.cellDead c = false) : NotStranded c n s := by simp [NotStranded, standing, h]

/-- Where the command stands, the cell can act. -/
theorem NotStranded.alive (h : NotStranded c n s) (hcmd : (s.cmd c n).isSome = true) : s.cellDead c = false := by
  obtain ⟨k, hk⟩ := Option.isSome_iff_exists.mp hcmd
  have hnum : k.num = n := by simpa using List.find?_some hk
  have hmem : ((s.cell c).cmds.map Cmd.num).contains n = true := by
    simpa using ⟨k, List.mem_of_find?_eq_some hk, hnum⟩
  have hboth : (s.cellDead c && true) = false := hmem ▸ h
  simpa using hboth

theorem NotStranded.resetUnit (h : NotStranded c n s) (b : Blk) (i u : Nat) : NotStranded c n (s.resetUnit b i u) := by
  by_cases hcell : b = .cell ∧ i = c
  · obtain ⟨rfl, rfl⟩ := hcell
    exact notStranded_of_noCmds (cmds_resetCell ..)
  · exact h.of_standing (standing_resetUnit s (fun hb hi => hcell ⟨hb, hi⟩) u)

/-! ### Full resets, requests to the Clerk, pairs, doorbells (R382, R412, R431 to R435, R439, R449) -/

theorem notStranded_fullReset (source : Nat) : NotStranded c n (s.fullReset source) := by
  refine notStranded_of_noCmds ?_
  simp only [State.fullReset]
  rw [State.cell_set_fld, State.cell_set_fld, State.cell_set_fld]
  rfl

theorem NotStranded.swReset (h : NotStranded c n s) (arm go : Bool) : NotStranded c n (s.swReset arm go) := by
  have hagain : NotStranded c n (if arm then { s with clk := { s.clk with armed := some (s.fld (Fd.cycles .clerk)) } } else s) :=
    h.of_standing (standing_ite (standing_of_same rfl rfl) rfl)
  simp only [State.swReset]
  split
  · exact hagain
  · split
    · split
      · exact notStranded_fullReset 4
      · exact h.of_standing (standing_of_same rfl rfl)
    · exact hagain

variable (s)

@[simp] theorem standing_memReq : standing c n s.memReq = standing c n s := by
  simp only [State.memReq]
  rw [standing_setFld (by decide)]
  exact foldl_keeps (standing c n) (fun z m _ => standing_ite (standing_setFld (by decide) ..) rfl) s

@[simp] theorem standing_sendMsg (dst : Nat) (m : Msg) (via : Option Nat) (cmd : Option (Nat × Nat)) :
    standing c n (s.sendMsg dst m via cmd) = standing c n s := by
  simp only [State.sendMsg]
  exact foldl_keeps (standing c n) (fun z i _ => standing_inject z _ _ _ _) s

@[simp] theorem standing_startPair (t : Fin 16) : standing c n (s.startPair t) = standing c n s := by
  simp only [State.startPair]
  rw [standing_sendMsg]
  have hclk (z : State) (x : ClkSt) : standing c n { z with clk := x } = standing c n z := rfl
  rw [hclk]
  simp (disch := decide) only [standing_setFld]

@[simp] theorem standing_updateStartFlag : standing c n s.updateStartFlag = standing c n s := by
  unfold State.updateStartFlag
  split
  · exact standing_bump (by decide) ..
  · have hclk (z : State) (x : ClkSt) : standing c n { z with clk := x } = standing c n z := rfl
    rw [hclk, standing_setFld (by decide)]

theorem standing_doorbell (d q off : Nat) (halive : d = c → s.inReset .cell c = false) : standing c n (s.doorbell d q off) = standing c n s := by
  unfold State.doorbell
  split
  · exact standing_bump (by decide) ..
  next hfenced =>
    refine standing_ite (standing_append s d q off fun hd => ?_) (standing_bump (by decide) ..)
    rw [State.cellDead, halive hd, Bool.or_false, ← hd]
    exact Bool.eq_false_iff.mpr hfenced

end

section
variable {c : Fin 256} {n : Nat}

/-! ### Registers under a write (R11 to R13) -/

/-- A write leaves every bit that its field does not hold, and all of a field that is RO or WO. -/
theorem testBit_field_beside (w : RegWrite) {f : Field} (hw : 0 < f.w) (v : Nat) {m : Nat}
    (h : f.acs = .ro ∨ f.acs = .wo ∨ m < f.lo ∨ f.lo + f.w ≤ m) : (w.field f v).1.testBit m = v.testBit m := by
  have hput (hout : m < f.lo ∨ f.lo + f.w ≤ m) (x : Nat) : (putBits v f.lo f.w x).testBit m = v.testBit m :=
    put_bits_other v f.lo f.w x m hout hw
  cases hacs : f.acs with
  | ro => simp [RegWrite.field, hacs]
  | wo => simp [RegWrite.field, hacs]
  | rw => simp [RegWrite.field, hacs, hput (by simpa [hacs] using h)]
  | rwl => cases hlock : w.locked <;> simp [RegWrite.field, hacs, hlock, hput (by simpa [hacs] using h)]
  | sat => simp [RegWrite.field, hacs, apply_ite (Nat.testBit · m), hput (by simpa [hacs] using h)]
  | w1c => simp [RegWrite.field, hacs, hput (by simpa [hacs] using h)]

/-- The fields of STATE and of SWRST of a cell are RO or WO, or lie above bit 7. -/
theorem fieldsAt_standing {p : Nat} (hp : p = 0 ∨ p = 0xFF0) :
    ∀ fi ∈ fieldsAt (Blk.cell.base c + p), 0 < fi.1.w ∧ (fi.1.acs = .ro ∨ fi.1.acs = .wo ∨ 8 ≤ fi.1.lo) := by
  rcases hp with rfl | rfl
  · rw [fieldsAt, blockOf_cell c (by decide)]
    dsimp only
    decide +kernel
  · rw [fieldsAt, blockOf_cell c (by decide)]
    dsimp only
    decide +kernel

theorem sameLiveness_setReg (s : State) {o : Nat} {v : BitVec 64}
    (h : ∀ p, p = 0 ∨ p = 0xFF0 → o = Blk.cell.base c + p → ∀ m < 8, v.getLsbD m = (s.reg o).getLsbD m) :
    SameLiveness c s (s.setReg o v) := by
  have hfld {f : Field} (hw : 0 < f.w) (hlow : f.lo + f.w ≤ 8) {p : Nat} (hp : p = 0 ∨ p = 0xFF0) (hreg : f.reg c 0 = Blk.cell.base c + p) :
      (s.setReg o v).fld f c = s.fld f c := by
    by_cases ho : f.reg c 0 = o
    · refine Nat.eq_of_testBit_eq fun m => ?_
      rw [testBit_fld _ hw, testBit_fld _ hw, ho, State.reg_set_self]
      by_cases hm : m < f.w
      · rw [h p hp (ho ▸ hreg) (m + f.lo) (by omega)]
      · simp [hm]
    · exact fld_congr (State.reg_set_other s v ho)
  exact ⟨hfld (by decide) (by decide) (.inl rfl) rfl, hfld (by decide) (by decide) (.inr rfl) rfl⟩

theorem sameLiveness_storeReg (s : State) (who : Who) (o : Nat) (w : RegWrite) : SameLiveness c s (s.storeReg who o w) := by
  have hset : SameLiveness c s (s.setReg o (BitVec.ofNat 64 ((fieldsAt o).foldl (fun (x : Nat × Nat) fi =>
      if s.writeIgnored who w fi.1 fi.2 then x
      else let y := w.field fi.1 x.1; (y.1, x.2 + y.2)) ((s.reg o).toNat, 0)).1)) := by
    refine sameLiveness_setReg s fun p hp ho m hm => ?_
    subst ho
    rw [BitVec.getLsbD_ofNat, foldl_keeps (fun x : Nat × Nat => x.1.testBit m) (fun x fi hfi => ?_)]
    · simp [show m < 64 by omega, BitVec.testBit_toNat]
    · obtain ⟨hw, hkind⟩ := fieldsAt_standing hp fi hfi
      split
      · rfl
      · exact testBit_field_beside w hw x.1 (hkind.imp_right (Or.imp_right fun habove => .inl (by omega)))
  simp only [State.storeReg]
  split
  · split
    · exact hset
    · exact hset.trans (sameLiveness_setFld (by cases ‹Blk› <;> decide) ..)
  · exact hset

theorem standing_storeReg (s : State) (who : Who) (o : Nat) (w : RegWrite) : standing c n (s.storeReg who o w) = standing c n s := by
  refine standing_congr (sameLiveness_storeReg s who o w) ?_
  have hbump (z : State) (f : Field) (b i m : Nat) : (z.bump f b i m).cell c = z.cell c := rfl
  simp only [State.storeReg]
  split
  · split
    · rfl
    · rw [hbump]; rfl
  · rfl

/-! ### What a write sets off, accesses to control space (R11, R417) -/

theorem blk_of_mem_fields (b : Blk) : ∀ f ∈ b.fields, f.blk = b := by
  cases b <;> decide +kernel

/-- A field stands in the register that holds it. -/
theorem of_mem_fieldsAt {o : Nat} {b : Blk} {bi p : Nat} (hblock : blockOf o = some (b, bi, p)) {f : Field} {i : Nat} (h : (f, i) ∈ fieldsAt o) :
    f.blk = b ∧ f.indexAt p = some i := by
  rw [fieldsAt, hblock] at h
  obtain ⟨g, hg, hsome⟩ := List.mem_filterMap.mp h
  split at hsome
  next hindex =>
    obtain ⟨rfl, rfl⟩ : g = f ∧ _ = i := by simpa using (Option.ite_none_right_eq_some.mp hsome).2
    exact ⟨blk_of_mem_fields b g hg, hindex⟩
  · simp at hsome

/-- A doorbell that a write reaches belongs to a cell that is not in reset. -/
theorem inReset_of_doorbell {s : State} {o : Nat} (h : s.ctlInReset o = false) {b : Blk} {bi p i : Nat} (hblock : blockOf o = some (b, bi, p))
    (hmem : (Fd.cellDoorbell, i) ∈ fieldsAt o) : s.inReset .cell bi = false := by
  obtain ⟨rfl, hindex⟩ := of_mem_fieldsAt hblock hmem
  have hp : p ≠ 0xFF0 := by rintro rfl; simp [Field.indexAt, Fd.cellDoorbell] at hindex
  simpa [State.ctlInReset, hblock, Fd.cellDoorbell, hp] using h

theorem NotStranded.ite {p : Prop} [Decidable p] {x y : State} (hx : p → NotStranded c n x) (hy : ¬p → NotStranded c n y) :
    NotStranded c n (if p then x else y) := by
  split
  · exact hx ‹_›
  · exact hy ‹_›

theorem NotStranded.writeEffect {s : State} (h : NotStranded c n s) (who : Who) (b : Blk) (bi : Nat) (f : Field) (i old : Nat) (w : RegWrite)
    (hbell : f = Fd.cellDoorbell → bi = c → s.inReset .cell c = false) : NotStranded c n (s.writeEffect who b bi f i old w) := by
  have hset (z : State) : standing c n (z.setFld Fd.moduleStreamCfgSkew 0 i 0) = standing c n z := standing_setFld (by decide) ..
  refine .ite (fun _ => h.of_standing (standing_writeRun ..)) fun _ => ?_
  refine .ite (fun _ => h.of_standing (standing_writeRun ..)) fun _ => ?_
  refine .ite (fun hf => h.of_standing (standing_doorbell s bi i _ (hbell hf))) fun _ => ?_
  refine .ite (fun _ => h.of_standing (standing_msGo ..)) fun _ => ?_
  refine .ite (fun _ => h.of_standing (standing_portCtrl ..)) fun _ => ?_
  refine .ite (fun _ => h.of_standing (standing_armStream ..)) fun _ => ?_
  refine .ite (fun _ => h.of_standing ((hset _).trans (standing_armStream ..))) fun _ => ?_
  refine .ite (fun _ => h.of_standing (standing_armAll ..)) fun _ => ?_
  refine .ite (fun _ => ?_) fun _ => ?_
  · split
    · exact h.of_standing (standing_ite (standing_startPair ..) rfl)
    · exact h
  refine .ite (fun _ => h.of_standing (standing_inc (by decide) ..)) fun _ => ?_
  refine .ite (fun _ => h.of_standing (standing_ite (standing_memReq ..) rfl)) fun _ => ?_
  refine .ite (fun _ => h.swReset ..) fun _ => ?_
  refine .ite (fun _ => h.of_standing (standing_ite (standing_updateStartFlag ..) rfl)) fun _ => ?_
  exact .ite (fun _ => List.foldlRecOn _ _ h fun z hz u _ => .ite (fun _ => hz.resetUnit ..) fun _ => hz) fun _ => h

theorem NotStranded.ctlWriteMask {s : State} (h : NotStranded c n s) (who : Who) (r mask v hw : Nat) :
    NotStranded c n (s.ctlWriteMask who r mask v hw).2 := by
  unfold State.ctlWriteMask
  split
  · exact h.of_standing (standing_bump (by decide) ..)
  next hreset =>
  split
  · exact h.of_standing (standing_bump (by decide) ..)
  · generalize (⟨mask, Nat.land v mask, hw, s.flag Fd.resetLockBootLock⟩ : RegWrite) = w
    have hstored : NotStranded c n (s.storeReg who r w) := h.of_standing (standing_storeReg ..)
    dsimp only
    split
    next b bi p fi hblock hhead =>
      refine hstored.writeEffect who b bi fi.1 fi.2 _ w fun hbell hcell => ?_
      obtain ⟨rest, hfields⟩ := List.head?_eq_some_iff.mp hhead
      have hmem : (Fd.cellDoorbell, fi.2) ∈ fieldsAt r := by rw [hfields, ← hbell]; exact List.mem_cons_self
      obtain ⟨-, hsame⟩ := sameLiveness_storeReg (c := c) s who r w
      rw [State.inReset, State.bitOf, hsame]
      exact hcell ▸ inReset_of_doorbell (Bool.eq_false_iff.mpr hreset) hblock hmem
    · exact hstored

theorem NotStranded.ctlWrite {s : State} (h : NotStranded c n s) (who : Who) (o m v hw : Nat) : NotStranded c n (s.ctlWrite who o m v hw).2 :=
  h.ctlWriteMask ..

theorem NotStranded.ctlWriteRun {s : State} (h : NotStranded c n s) (w : Who) (o fuel : Nat) (bs : List Byte) :
    NotStranded c n (s.ctlWriteRun w o fuel bs).st := by
  induction fuel generalizing s o bs with
  | zero => exact h
  | succ fuel ih =>
    unfold State.ctlWriteRun
    split
    · exact h
    · dsimp only
      split
      · exact h.ctlWrite ..
      · exact ih (h.ctlWrite ..) ..

section
variable (s : State)

@[simp] theorem standing_ctlRead (who : Who) (o m : Nat) : standing c n (s.ctlRead who o m).2.2 = standing c n s := by
  unfold State.ctlRead
  dsimp only
  split
  · exact standing_bump (by decide) ..
  split
  · exact standing_bump (by decide) ..
  split
  next i _ =>
    have hdrawn := standing_drawStream (c := c) (n := n) s (i / 4) (i % 4)
    generalize s.drawStream (i / 4) (i % 4) = d at hdrawn ⊢
    split
    · exact hdrawn
    · rfl
  · rfl

@[simp] theorem standing_ctlReadRun (w : Who) (o fuel m : Nat) : standing c n (s.ctlReadRun w o fuel m).st = standing c n s := by
  induction fuel generalizing s o m with
  | zero => rfl
  | succ fuel ih =>
    unfold State.ctlReadRun
    split
    · rfl
    · dsimp only
      split
      · exact standing_ctlRead ..
      · exact (ih ..).trans (standing_ctlRead ..)

/-! ### Runs of the data space (R7, R8, R69, R144) -/

@[simp] theorem standing_storeAccess (x : Ctx) (d o : Nat) (w : Option (List Byte)) (m : Nat) :
    standing c n (s.storeAccess x d o w m).st = standing c n s := by
  unfold State.storeAccess
  split
  · exact standing_bump (by decide) ..
  split
  · exact standing_bump (by decide) ..
  split
  · exact standing_bump (by decide) ..
  split
  · dsimp only
    split
    · exact standing_storeRead ..
    · exact standing_storeRead ..
  · dsimp only
    split
    · exact standing_storeWrite ..
    · exact standing_storeWrite ..

@[simp] theorem standing_scacheAccess (x : Ctx) (o : Nat) (w : Option (List Byte)) (m : Nat) :
    standing c n (s.scacheAccess x o w m).st = standing c n s := by
  unfold State.scacheAccess
  split
  · exact standing_bump (by decide) ..
  dsimp only
  split
  · split
    · exact standing_sramRead ..
    · exact standing_sramRead ..
  · split
    · exact standing_sramWrite ..
    · exact standing_sramWrite ..

@[simp] theorem standing_countHole (a i : Nat) (hole : Bool) : standing c n (s.countHole a i hole).1 = standing c n s := by
  unfold State.countHole
  split
  · exact standing_ite rfl (standing_bump (by decide) ..)
  · rfl

@[simp] theorem standing_readPiece (x : Ctx) (a m : Nat) : standing c n (s.pieceAccess x a none m).st = standing c n s := by
  unfold State.pieceAccess
  split
  · exact standing_bulkAccess ..
  · rfl
  · exact standing_scacheAccess ..
  · exact standing_storeAccess ..
  · exact standing_ctlReadRun ..
  · rfl

@[simp] theorem standing_readLines (x : Ctx) (a : Nat) (hole : Bool) (ls : List (Nat × Nat)) :
    standing c n (s.readLines x a hole ls).st = standing c n s := by
  induction ls generalizing s hole with
  | nil => rfl
  | cons l ls ih =>
    unfold State.readLines
    dsimp only
    split
    · exact (standing_readPiece ..).trans (standing_countHole ..)
    · exact (ih ..).trans ((standing_readPiece ..).trans (standing_countHole ..))

@[simp] theorem standing_readSpan (x : Ctx) (a m : Nat) : standing c n (s.readSpan x a m).st = standing c n s := standing_readLines ..

@[simp] theorem standing_globalRead (x : Ctx) (a m : Nat) : standing c n (s.globalRead x a m).st = standing c n s :=
  (standing_readSpan ..).trans (standing_countRunWrap ..)

end

section
variable {s : State} (h : NotStranded c n s)
include h

theorem NotStranded.pieceAccess (x : Ctx) (a : Nat) (w : Option (List Byte)) (m : Nat) : NotStranded c n (s.pieceAccess x a w m).st := by
  unfold State.pieceAccess
  split
  · exact h.of_standing (standing_bulkAccess ..)
  · exact h
  · exact h.of_standing (standing_scacheAccess ..)
  · exact h.of_standing (standing_storeAccess ..)
  · split
    · exact h.of_standing (standing_ctlReadRun ..)
    · exact h.ctlWriteRun ..
  · exact h

theorem NotStranded.writeLines (x : Ctx) (a : Nat) (hole : Bool) (bs : List Byte) (ls : List (Nat × Nat)) :
    NotStranded c n (s.writeLines x a hole bs ls).st := by
  induction ls generalizing s hole with
  | nil => exact h
  | cons l ls ih =>
    have hcounted := h.of_standing (standing_countHole s a l.1 hole)
    unfold State.writeLines
    dsimp only
    split
    · exact hcounted.pieceAccess ..
    · exact ih (hcounted.pieceAccess ..) ..

theorem NotStranded.writeSpan (x : Ctx) (a : Nat) (bs : List Byte) : NotStranded c n (s.writeSpan x a bs).st := h.writeLines ..

theorem NotStranded.globalWrite (x : Ctx) (a : Nat) (bs : List Byte) : NotStranded c n (s.globalWrite x a bs).st :=
  (h.of_standing (standing_countRunWrap ..)).writeSpan ..

end

end

end Sys2Proof.Proofs
end

section
/-! PROOFS. No operation of a slice (R103, R122), and no row of ACT_FUSED (R153 to R163), strands a command in a cell that cannot act. -/

namespace Sys2Proof.Proofs

open Sys2Proof Sys2Proof.Machine Sys2Proof.Claims

section
variable {c : Fin 256} {n : Nat}

/-! ### What the slices of the shared cache do (R103, R122) -/

section
variable (s : State)

@[simp] theorem standing_sliceWord (o : Nat) : standing c n (s.sliceWord o).2 = standing c n s := by
  unfold State.sliceWord
  dsimp only
  split
  · exact standing_sramRead ..
  · exact standing_sramRead ..

@[simp] theorem standing_setSliceWord (o v : Nat) : standing c n (s.setSliceWord o v) = standing c n s := standing_sramWrite ..

@[simp] theorem standing_noteWrap (o old add : Nat) : standing c n (s.noteWrap o old add) = standing c n s := by
  unfold State.noteWrap
  split
  · rfl
  · exact (standing_setFld (by decide) ..).trans (standing_setFld (by decide) ..)

@[simp] theorem standing_addWord (o add : Nat) : standing c n (s.addWord o add).2 = standing c n s := by
  have hword := standing_sliceWord (c := c) (n := n) s o
  unfold State.addWord
  split <;> rename_i hgot <;> rw [hgot] at hword
  · exact hword
  · exact (standing_noteWrap ..).trans ((standing_setSliceWord ..).trans hword)

@[simp] theorem standing_histRead (o : Nat) : standing c n (s.histRead o).2 = standing c n s := by
  unfold State.histRead
  dsimp only
  split
  · exact standing_sramRead ..
  · exact standing_sramRead ..

@[simp] theorem standing_histMerge (off : Nat) (q : Int) : standing c n (s.histMerge off q).2 = standing c n s := by
  have hread := standing_histRead (c := c) (n := n) s (recordOffset off)
  unfold State.histMerge
  dsimp only
  split <;> rename_i hgot <;> rw [hgot] at hread
  · exact hread
  · split
    · exact hread
    · exact (standing_setSliceWord ..).trans ((standing_setSliceWord ..).trans hread)

@[simp] theorem standing_histPredict (off : Nat) (f : Fmt) : standing c n (s.histPredict off f).2 = standing c n s := by
  have hread := standing_histRead (c := c) (n := n) s (recordOffset off)
  unfold State.histPredict
  split <;> rename_i hgot <;> rw [hgot] at hread <;> exact hread

@[simp] theorem standing_readRuns (x : Ctx) (a m : Nat) (rs : List (Nat × Nat)) : standing c n (s.readRuns x a m rs).st = standing c n s := by
  induction rs generalizing s with
  | nil => rfl
  | cons r rs ih =>
    unfold State.readRuns
    dsimp only
    split
    · exact standing_globalRead ..
    · exact (ih _).trans (standing_globalRead ..)

@[simp] theorem standing_sliceConsume (d q seq o : Nat) : standing c n (s.sliceConsume d q seq o) = standing c n s := by
  have hword := standing_sliceWord (c := c) (n := n) s o
  unfold State.sliceConsume
  split <;> rename_i hgot <;> rw [hgot] at hword
  · exact (standing_setQueue ..).trans ((standing_setSliceWord ..).trans hword)
  · exact hword

end

section
variable {s : State} (h : NotStranded c n s)
include h

theorem NotStranded.writeRuns (x : Ctx) (a : Nat) (bs : List Byte) (rs : List (Nat × Nat)) : NotStranded c n (s.writeRuns x a bs rs).st := by
  induction rs generalizing s with
  | nil => exact h
  | cons r rs ih =>
    unfold State.writeRuns
    dsimp only
    split
    · exact h.globalWrite ..
    · exact ih (h.globalWrite ..)

theorem NotStranded.perform (k : Nat) (a : TkAcc) : NotStranded c n (s.perform k a).2 := by
  unfold State.perform
  extract_lets x fin word
  have hanswer (g : Got) (hg : NotStranded c n g.st) : NotStranded c n (fin g).2 := by
    dsimp only [fin]
    split
    · exact hg.of_standing (standing_undoMem ..)
    · exact hg
  have hword (f : Nat → Option Nat) : NotStranded c n (word f).2 := by
    have hread := standing_sliceWord (c := c) (n := n) s a.addr
    dsimp only [word]
    split
    · exact h.of_standing (standing_bump (by decide) ..)
    split <;> rename_i hgot <;> rw [hgot] at hread
    · exact h.of_standing hread
    · dsimp only
      split
      · exact h.of_standing ((standing_setSliceWord ..).trans hread)
      · exact h.of_standing hread
  have hnoted (r : (Code × List Byte) × State) (hr : NotStranded c n r.2) (add : Nat) :
      NotStranded c n (if r.1.1 = cOK then r.2.noteWrap a.addr (ofLe r.1.2) add else r.2) :=
    .ite (fun _ => hr.of_standing (standing_noteWrap ..)) fun _ => hr
  clear_value fin word
  cases hop : a.op with
  | load m f => exact hanswer _ (h.of_standing (standing_globalRead ..))
  | store bs => exact hanswer _ (h.globalWrite ..)
  | vload vd pg fmt f => exact hanswer _ (h.of_standing (standing_readRuns ..))
  | vstore fmt lanes f =>
    have hold (need : List (Nat × Nat)) :
        NotStranded c n (if fmt = 1 then s.readRuns (s.tkCtx k) a.addr (vmBytes fmt) need else Got.ok [] s).st := by
      split
      · exact h.of_standing (standing_readRuns ..)
      · exact h
    dsimp only
    generalize runsOf _ = need
    have hread := hold need
    generalize (if fmt = 1 then s.readRuns (s.tkCtx k) a.addr (vmBytes fmt) need else Got.ok [] s) = old at hread ⊢
    split
    · exact hanswer _ hread
    · exact hanswer _ (hread.writeRuns ..)
  | fai => exact hnoted _ (hword _) 1
  | faa v => exact hnoted _ (hword _) v.toNat
  | cas cmp new => exact hword _
  | hmerge q =>
    have hread := standing_histMerge (c := c) (n := n) s (recordOffset a.addr) q
    dsimp only
    generalize s.histMerge (recordOffset a.addr) q = r at hread ⊢
    split
    · exact h.of_standing (standing_bump (by decide) ..)
    · obtain ⟨_ | _, s1⟩ := r <;> exact h.of_standing hread
  | hpred fmt =>
    have hread := standing_histPredict (c := c) (n := n) s (recordOffset a.addr) (Fmt.ofField fmt)
    dsimp only
    generalize s.histPredict (recordOffset a.addr) (Fmt.ofField fmt) = r at hread ⊢
    split
    · exact h.of_standing (standing_bump (by decide) ..)
    · obtain ⟨_ | _, s1⟩ := r <;> exact h.of_standing hread

theorem NotStranded.sliceTinker (k off : Nat) : NotStranded c n (s.sliceTinker k off) := by
  have hperformed (a : TkAcc) : NotStranded c n (s.performAt k a).2 := h.perform ..
  unfold State.sliceTinker
  split
  · exact (hperformed _).of_standing (standing_onTinker ..)
  split
  · exact .ite (fun _ => h) fun _ => (hperformed _).of_standing (standing_onTinker ..)
  · exact h

theorem NotStranded.sliceOp (sl : Nat) : NotStranded c n (s.sliceOp sl) := by
  unfold State.sliceOp
  split
  · exact h
  next z _ =>
  have htaken : NotStranded c n { s with slices := s.slices.erase z } := h.of_standing (standing_of_same rfl rfl)
  dsimp only
  split
  · exact htaken.sliceTinker ..
  · exact htaken.of_standing (standing_addWord ..)
  · exact htaken.of_standing (standing_sliceConsume ..)

theorem NotStranded.drainSlice (sl fuel : Nat) : NotStranded c n (s.drainSlice sl fuel) := by
  induction fuel generalizing s with
  | zero => exact h
  | succ fuel ih =>
    unfold State.drainSlice
    exact .ite (fun _ => h) fun _ => ih (h.sliceOp sl)

theorem NotStranded.slicesFirst (o m : Nat) : NotStranded c n (s.slicesFirst o m) := by
  unfold State.slicesFirst
  exact .ite (fun _ => h) fun _ => List.foldlRecOn _ _ h fun z hz sl _ => hz.drainSlice ..

theorem NotStranded.slicesBefore (a m : Nat) : NotStranded c n (s.slicesBefore a m) := by
  unfold State.slicesBefore
  refine .ite (fun _ => h) fun _ => ?_
  split
  · exact h.slicesFirst ..
  · exact .ite (fun _ => h.slicesFirst ..) fun _ => h

end
end

section
variable {c : Fin 256} {n : Nat}

/-! ### A command's own accesses, and a row of ACT_FUSED (R118, R144, R153 to R163) -/

theorem took_s (w : W) (g : Got) : (w.took g).s = g.st := by
  simp only [W.took]
  cases g.fault with
  | some code => cases g.warn <;> rfl
  | none => cases g.wait <;> cases g.warn <;> rfl

section
variable {w : W} (h : NotStranded c n w.s)
include h

theorem NotStranded.read (a m : Nat) : NotStranded c n (w.read a m).2.s := by
  unfold W.read
  split
  · exact h
  · exact (took_s w _).symm ▸ (h.slicesBefore a m).of_standing (standing_globalRead ..)

theorem NotStranded.wrapIn (t : Nat) (cell : Option Nat) : NotStranded c n (w.wrapIn t cell).s := by
  unfold W.wrapIn
  split
  · exact h
  · split
    · exact h
    · exact h.of_standing (standing_bumpCell (by decide) ..)

theorem NotStranded.writeT (t base away : Nat) (bs : List Byte) : NotStranded c n (w.writeT t base away bs).2.s := by
  unfold W.writeT
  split
  · exact h
  · exact (took_s _ _).symm ▸ ((h.wrapIn ..).slicesBefore ..).writeSpan ..

theorem NotStranded.landPiece (t base away : Nat) (bs : List Byte) : NotStranded c n (w.landPiece t base away bs).s := by
  unfold W.landPiece
  dsimp only
  split
  · exact h.of_standing (standing_dropBytes ..)
  split
  · exact h.writeT ..
  · exact (h.writeT t base away bs).of_standing (standing_dropBytes ..)

theorem NotStranded.putRow (a : Nat) (codes : List Byte) (x : Nat) (exps : List Byte) : NotStranded c n (w.putRow a codes x exps).s := by
  unfold W.putRow
  dsimp only
  split
  · exact (h.landPiece ..).landPiece ..
  · exact (h.landPiece ..).landPiece ..

/-- What a row of ACT_FUSED reaches strands no command: also where its destinations are registers that reset the cell. -/
theorem NotStranded.actRow : NotStranded c n w.actRow.s := by
  unfold W.actRow
  extract_lets k r _ fi fo fn xc t m ne gc ge uc ue gs us vs o w1
  have hloaded : NotStranded c n ue.2.s := (((h.read ..).read ..).read ..).read ..
  clear_value o ue
  split
  · exact hloaded
  · have hcounted : NotStranded c n w1.s := hloaded
    exact hcounted.putRow ..

end
end

end Sys2Proof.Proofs
end

section
/-! PROOFS. NORM_STATS (R165 to R169) and ACT_FUSED (R153 to R163) do their rows. -/

namespace Sys2Proof.Proofs

open Sys2Proof Sys2Proof.Machine Sys2Proof.Claims

/-! ## NORM_STATS (R165 to R169) -/

theorem exec_normStats {s : State} {c : Fin 256} {n : Nat} {k : Cmd} (hcmd : s.cmd c n = some k) :
    exec (.normStats c n) s =
      .next (s.runCmd c n 0x0401 ((if k.u 20 4 = 0 then 0 else k.u 16 4) + 1) (W.rowStep (if k.u 20 4 = 0 then 0 else k.u 16 4) W.normRow)) := by
  change execNormStats c n s = _
  simp only [execNormStats, hcmd]

/-- A row of a command once it is counted. -/
def rowDone (r : W) (pos : Nat) : W := { r with k := { r.k with pos := pos + 1 } }

section
variable {s : State} {c n op : Nat} {k : Cmd} {f : W → W}

theorem cmd_keep_rowDone {r : W} (hr : RowWent r c n op) (pos : Nat) : (rowDone r pos).keep.cmd c n = some (rowDone r pos).k := by
  obtain ⟨hgo, rfl, rfl, -, -, -, hcmd⟩ := hr
  obtain ⟨y, hy⟩ := Option.isSome_iff_exists.mp hcmd
  exact cmd_keep (w := rowDone r pos) hgo hy

/-- A command of one row does it in one step and has finished in the next. -/
theorem runCmd_one_row (hw : Working s c n k op) (hpos : k.pos = 0) (hlive : k.cancelled = false) (hr : RowWent (f (W.mk s c k .go)) c n op) :
    s.runCmd c n op 2 (W.rowStep 1 f) =
      (W.mk (rowDone (f (W.mk s c k .go)) k.pos).keep c (rowDone (f (W.mk s c k .go)) k.pos).k .go).finish.keep := by
  have hnext := cmd_keep_rowDone hr k.pos
  obtain ⟨hdead, hcmd, hop, hfin, -⟩ := hw
  obtain ⟨hgo, -, -, hrop, hrfin, -, -⟩ := hr
  have hrow : W.rowStep 1 f (W.mk s c k .go) = rowDone (f (W.mk s c k .go)) k.pos := by
    simp only [W.rowStep, hpos, hlive, hgo, rowDone]
    rfl
  generalize f (W.mk s c k .go) = r at *
  have hend (z : State) : W.rowStep 1 f (W.mk z c (rowDone r k.pos).k .go) = (W.mk z c (rowDone r k.pos).k .go).finish :=
    if_pos (.inl (by simp [rowDone]))
  have hdone : (rowDone r k.pos).k.finished = false := hrfin
  have hopen : (rowDone r k.pos).k.opcode = op := hrop
  have hwent : (rowDone r k.pos).halt = .go := hgo
  simp only [State.runCmd, hdead, State.steps, hcmd, hfin, hop, hrow, hwent, hnext, hdone, hopen, hend, W.step, ne_eq, not_true_eq_false,
    or_self, Bool.false_eq_true, if_false, reduceCtorEq, not_false_eq_true, decide_true, if_true, ite_self]

theorem memory_pool_flash_keep {w : W} (hgo : w.halt = .go) : w.keep.stores = w.s.stores ∧ w.keep.bulk = w.s.bulk ∧
    w.keep.scache = w.s.scache ∧ w.keep.locals = w.s.locals ∧ w.keep.pool = w.s.pool ∧ w.keep.flash = w.s.flash := by
  rw [keep_of_go hgo]
  exact ⟨rfl, rfl, rfl, rfl, rfl, rfl⟩

theorem doesItsRow_of_runCmd {i : Instr} (hexec : exec i s = .next (s.runCmd c n k.opcode 2 (W.rowStep 1 f))) (hw : Working s c n k op)
    (hpos : k.pos = 0) (hlive : k.cancelled = false) : DoesItsRow i s c n k f := by
  intro hr
  obtain ⟨-, -, rfl, -⟩ := id hw
  have hnext := cmd_keep_rowDone hr k.pos
  rw [runCmd_one_row hw hpos hlive hr] at hexec
  refine ⟨_, hexec, ?_⟩
  obtain ⟨hgo, -, hnum, -⟩ := hr
  generalize f (W.mk s c k .go) = r at *
  obtain ⟨hstores, hbulk, hscache, hlocals, hpool, hflash⟩ := memory_pool_flash_keep (w := rowDone r k.pos) hgo
  have hlast : (W.mk (rowDone r k.pos).keep c (rowDone r k.pos).k .go).finish.keep.cmd c (rowDone r k.pos).k.num =
      some (W.mk (rowDone r k.pos).keep c (rowDone r k.pos).k .go).finish.k :=
    cmd_keep (w := (W.mk (rowDone r k.pos).keep c (rowDone r k.pos).k .go).finish) rfl (hnum ▸ hnext)
  obtain ⟨hstores', hbulk', hscache', hlocals', hpool', hflash'⟩ :=
    memory_pool_flash_keep (w := (W.mk (rowDone r k.pos).keep c (rowDone r k.pos).k .go).finish) rfl
  exact ⟨hnum ▸ hlast, hstores'.trans hstores, hbulk'.trans hbulk, hscache'.trans hscache, hlocals'.trans hlocals, hpool'.trans hpool,
    hflash'.trans hflash⟩

end

theorem normStats_doesItsRow {s : State} {c : Fin 256} {n : Nat} {k : Cmd} (hw : Working s c n k 0x0401) (hrows : k.u 16 4 = 1)
    (hlen : k.u 20 4 ≠ 0) (hpos : k.pos = 0) (hlive : k.cancelled = false) : DoesItsRow (.normStats c n) s c n k W.normRow := by
  obtain ⟨-, hcmd, hop, -⟩ := id hw
  have hexec := exec_normStats hcmd
  rw [if_neg hlen, hrows, ← hop] at hexec
  exact doesItsRow_of_runCmd hexec hw hpos hlive

/-! ## ACT_FUSED (R159, R160) -/

theorem exec_actFused {s : State} {c : Fin 256} {n : Nat} {k : Cmd} (hw : Working s c n k 0x0402) :
    exec (.actFused c n) s = .next ((State.steps (State.actStep c n) (2 * k.actRows + 2) s).work c n [0x0402] W.actEnd) := by
  obtain ⟨hdead, hcmd, hop, -⟩ := hw
  change execActFused c n s = _
  simp only [execActFused, hcmd, hdead, hop, Bool.false_eq_true, ne_eq, not_true_eq_false, or_self, if_false]

theorem actIssue_of_ready {s : State} {c n : Nat} {k : Cmd} (hcmd : s.cmd c n = some k) (hop : k.opcode = 0x0402) (hleft : k.actLeft = true)
    (hnext : k.issued = k.pos) (hroom : s.depthRoom c k.chanq = true) (hturn : s.carterTurn c k = true) :
    s.actIssue c n = ((W.mk s c { k with issued := k.issued + 1 } .go).begin ⟨n, k.chanq, [], k.pos % 2 ^ 20, none⟩).step := by
  simp only [State.actIssue, hcmd]
  exact if_pos ⟨hop, hleft, hnext, hroom, hturn⟩

theorem actLand_of_xfer {s : State} {c n : Nat} {k : Cmd} {x : Xfer} (hcmd : s.cmd c n = some k) (hop : k.opcode = 0x0402)
    (hx : x ∈ (s.cell c).xfers) (hnum : x.num = n) (hfin : k.finished = false) (hgo : (W.mk s c k .go).actRow.halt = .go) :
    s.actLand c n x = (((rowDone (W.mk s c k .go).actRow k.pos).endXfer x).keep, true) := by
  simp only [State.actLand, hcmd]
  generalize (W.mk s c k .go).actRow = r at hgo ⊢
  obtain ⟨rs, rc, rk, rhalt⟩ := r
  obtain rfl : rhalt = .go := hgo
  exact if_pos ⟨hop, hx, hnum, by rw [hfin]; rfl⟩

section
variable {c : Fin 256} {n : Nat} (w : W)

theorem standing_begin (x : Xfer) : standing c n (w.begin x).s = standing c n w.s :=
  (standing_setFld (by decide) ..).trans (standing_onCell _ _ fun _ => rfl)

theorem standing_endXfer (x : Xfer) : standing c n (w.endXfer x).s = standing c n w.s :=
  (standing_setFld (by decide) ..).trans (standing_onCell _ _ fun _ => rfl)

variable {w}

theorem standing_keep (hgo : w.halt = .go) : standing c n w.keep = standing c n w.s := by
  rw [keep_of_go hgo]
  exact (standing_setFld (by decide) ..).trans (standing_putCmd ..)

end

/-! ### The last row of an ACT_FUSED once it has landed -/

theorem cmd_endXfer (w : W) (x : Xfer) (n : Nat) : (w.endXfer x).s.cmd w.c n = w.s.cmd w.c n := by
  rw [State.cmd, cell_endXfer, State.cmd]

/-- A row landed: it is counted, and its transfer has ended. -/
def rowEnded (r : W) (x : Xfer) : W := (rowDone r 0).endXfer x

/-- The one row of an ACT_FUSED as it was formed, its transfer the cell's one, no row left, in a cell that can act. -/
structure LastRow (r : W) (c : Fin 256) (n : Nat) (x : Xfer) : Prop where
  went : RowWent r c n 0x0402
  alive : r.s.cellDead c = false
  xfers : (r.s.cell c).xfers = [x]
  noneLeft : r.k.actLeft = false

section
variable {r : W} {c : Fin 256} {n : Nat} {x : Xfer} (h : LastRow r c n x)
include h

theorem LastRow.cmd_rowEnded : (rowEnded r x).keep.cmd c n = some (rowEnded r x).k := by
  obtain ⟨hgo, hc, hnum, -, -, -, hcmd⟩ := h.went
  obtain ⟨y, hy⟩ := Option.isSome_iff_exists.mp hcmd
  have hended : (rowEnded r x).s.cmd r.c r.k.num = some y := (cmd_endXfer (rowDone r 0) x _).trans (by rw [← hy, ← hc, ← hnum]; rfl)
  have hkept : (rowEnded r x).keep.cmd r.c r.k.num = some (rowEnded r x).k := cmd_keep (w := rowEnded r x) hgo hended
  rwa [hc, hnum] at hkept

theorem LastRow.working : Working (rowEnded r x).keep c n (rowEnded r x).k 0x0402 := by
  obtain ⟨hgo, -, hnum, hop, hfin, -⟩ := h.went
  have hstanding : standing c n (rowEnded r x).keep = standing c n r.s :=
    (standing_keep (w := rowEnded r x) hgo).trans (standing_endXfer (rowDone r 0) x)
  have hdead := cellDead_of_standing hstanding
  exact ⟨hdead.trans h.alive, h.cmd_rowEnded, hop, hfin, hnum⟩

theorem LastRow.xfers_rowEnded : ((rowEnded r x).keep.cell c).xfers = [] := by
  obtain ⟨hgo, hc, -⟩ := h.went
  have hkept : ((rowEnded r x).keep.cell r.c).xfers = ((rowEnded r x).s.cell r.c).xfers := xfers_keep (w := rowEnded r x) hgo
  have hended : (rowEnded r x).s.cell r.c = { r.s.cell r.c with xfers := (r.s.cell r.c).xfers.erase x } := cell_endXfer (rowDone r 0) x
  rw [hended, hc, h.xfers, List.erase_cons_head] at hkept
  exact hkept

theorem LastRow.xfersOf_rowEnded : (rowEnded r x).keep.xfersOf c n = [] := by
  rw [State.xfersOf, h.xfers_rowEnded]
  rfl

/-- Then no row is left to issue or to land. -/
theorem LastRow.actStep_ended : State.actStep c n (rowEnded r x).keep = ((rowEnded r x).keep, false) := by
  have hleft : (rowEnded r x).k.actLeft = false := h.noneLeft
  have hissue : (rowEnded r x).keep.actIssue c n = ((rowEnded r x).keep, false) := by
    simp only [State.actIssue, h.cmd_rowEnded, hleft, Bool.false_eq_true, false_and, and_false, if_false]
  rw [State.actStep, h.xfersOf_rowEnded, List.map_nil, List.nil_append, firstOf_single, hissue]

/-- The command ends, and its end changes no memory. -/
theorem LastRow.ends : let t := (rowEnded r x).keep.work c n [0x0402] W.actEnd
    (∃ y, t.cmd c n = some y ∧ y.finished = true ∧ y.pos = 1) ∧ t.stores = r.s.stores ∧ t.bulk = r.s.bulk ∧ t.scache = r.s.scache ∧
      (t.cell c).xfers = [] := by
  intro t
  obtain ⟨hgo, -⟩ := h.went
  obtain ⟨-, hcmd, -, -, hnum⟩ := h.working
  have hleft : (rowEnded r x).k.actLeft = false := h.noneLeft
  have ht : t = (W.mk (rowEnded r x).keep c (rowEnded r x).k .go).finish.keep := by
    have hend : (W.mk (rowEnded r x).keep c (rowEnded r x).k .go).actEnd = (W.mk (rowEnded r x).keep c (rowEnded r x).k .go).finish := by
      simp only [W.actEnd, hleft, hnum, h.xfersOf_rowEnded, List.isEmpty_nil, Bool.not_false, Bool.and_self, if_true]
    exact (work_of_working h.working (List.mem_singleton_self _)).trans (congrArg W.keep hend)
  obtain ⟨estores, ebulk, escache, -⟩ := endXfer_leaves (rowDone r 0) x
  obtain ⟨kstores, kbulk, kscache, -⟩ := sameMemory_keep (w := rowEnded r x) hgo
  obtain ⟨fstores, fbulk, fscache, -⟩ := sameMemory_keep (w := (W.mk (rowEnded r x).keep c (rowEnded r x).k .go).finish) rfl
  have hlast : (W.mk (rowEnded r x).keep c (rowEnded r x).k .go).finish.keep.cmd c (rowEnded r x).k.num =
      some (W.mk (rowEnded r x).keep c (rowEnded r x).k .go).finish.k :=
    cmd_keep (w := (W.mk (rowEnded r x).keep c (rowEnded r x).k .go).finish) rfl (hnum ▸ hcmd)
  have hxfers := xfers_keep (w := (W.mk (rowEnded r x).keep c (rowEnded r x).k .go).finish) rfl
  rw [ht]
  exact ⟨⟨_, hnum ▸ hlast, rfl, rfl⟩, fstores.trans (kstores.trans estores), fbulk.trans (kbulk.trans ebulk),
    fscache.trans (kscache.trans escache), hxfers.trans h.xfers_rowEnded⟩

end

/-! ### An ACT_FUSED of one row -/

/-- The transfer of the first row of an ACT_FUSED. -/
def actXfer (n : Nat) (k : Cmd) : Xfer := ⟨n, k.chanq, [], 0, none⟩

/-- The state in which that row is on its way. -/
def actBegun (s : State) (c n : Nat) (k : Cmd) : State := ((W.mk s c { k with issued := 1 } .go).begin (actXfer n k)).keep

/-- The row formed, coded and written. -/
def actFormed (s : State) (c n : Nat) (k : Cmd) : W := (W.mk (actBegun s c n k) c { k with issued := 1 } .go).actRow

/-- An ACT_FUSED of one row at its start, its cell's one command, whose row goes on and touches none of the cell's transfers. -/
structure OneActRow (s : State) (c : Fin 256) (n : Nat) (k : Cmd) : Prop where
  working : Working s c n k 0x0402
  rows : k.u 16 4 = 1
  nonempty : k.u 20 4 ≠ 0
  start : k.pos = 0
  live : k.cancelled = false
  issued : k.issued = 0
  noFault : k.fault = none
  alone : (s.cell c).cmds = [k]
  noXfers : (s.cell c).xfers = []
  room : s.depthRoom c k.chanq = true
  went : RowWent (actFormed s c n k) c n 0x0402
  keepsXfers : ((actFormed s c n k).s.cell c).xfers = ((actBegun s c n k).cell c).xfers
  noneLeft : (actFormed s c n k).k.actLeft = false

section
variable {s : State} {c : Fin 256} {n : Nat} {k : Cmd} (h : OneActRow s c n k)
include h

theorem OneActRow.actRows : k.actRows = 1 := by rw [Cmd.actRows, if_neg h.nonempty, h.rows]

/-- The first step issues the row. -/
theorem OneActRow.actStep_issue : State.actStep c n s = (actBegun s c n k, true) := by
  obtain ⟨-, hcmd, hop, hfin, -⟩ := h.working
  have hnone : s.xfersOf c n = [] := by rw [State.xfersOf, h.noXfers]; rfl
  have hleft : k.actLeft = true := by simp [Cmd.actLeft, h.actRows, h.issued, h.noFault, h.live, hfin]
  have hturn : s.carterTurn c k = true := by simp [State.carterTurn, h.alone]
  have hunit : k.pos % 2 ^ 20 = 0 := by rw [h.start, Nat.zero_mod]
  have hissue := actIssue_of_ready hcmd hop hleft (h.issued.trans h.start.symm) h.room hturn
  rw [h.issued, hunit] at hissue
  rw [State.actStep, hnone, List.map_nil, List.nil_append, firstOf_single, hissue]
  rfl

theorem OneActRow.cell_actBegun : ((actBegun s c n k).cell c).cmds = [{ k with issued := 1 }] ∧
    ((actBegun s c n k).cell c).xfers = [actXfer n k] := by
  have hgo : ((W.mk s c { k with issued := 1 } .go).begin (actXfer n k)).halt = .go := rfl
  have hcell := cell_begin (W.mk s c { k with issued := 1 } .go) (actXfer n k)
  have hcmds : (((W.mk s c { k with issued := 1 } .go).begin (actXfer n k)).s.cell c).cmds = [k] := by rw [hcell, h.alone]
  have hxfers : (((W.mk s c { k with issued := 1 } .go).begin (actXfer n k)).s.cell c).xfers = [actXfer n k] := by
    rw [hcell, h.noXfers, List.nil_append]
  exact ⟨cmds_keep_single hgo hcmds rfl, (xfers_keep hgo).trans hxfers⟩

theorem OneActRow.cellDead_actBegun : (actBegun s c n k).cellDead c = false :=
  (cellDead_of_standing (n := n) ((standing_keep rfl).trans (standing_begin ..))).trans h.working.1

/-- The second step lands it. -/
theorem OneActRow.actStep_land : State.actStep c n (actBegun s c n k) = ((rowEnded (actFormed s c n k) (actXfer n k)).keep, true) := by
  obtain ⟨-, -, hop, hfin, hnum⟩ := h.working
  obtain ⟨hcmds, hxfers⟩ := h.cell_actBegun
  obtain ⟨hgo, -⟩ := h.went
  have hone : (actBegun s c n k).xfersOf c n = [actXfer n k] := by rw [State.xfersOf, hxfers]; simp [actXfer]
  have hmem : actXfer n k ∈ ((actBegun s c n k).cell c).xfers := by rw [hxfers]; exact List.mem_singleton_self _
  have hland : (actBegun s c n k).actLand c n (actXfer n k) = (((rowDone (actFormed s c n k) k.pos).endXfer (actXfer n k)).keep, true) :=
    actLand_of_xfer (cmd_of_single hcmds hnum) hop hmem rfl hfin hgo
  rw [State.actStep, hone, List.map_singleton, List.singleton_append, State.firstOf, hland, h.start]
  exact if_pos rfl

/-- Once the row is formed its cell can still act: a reset of the cell would have ended the command. -/
theorem OneActRow.lastRow : LastRow (actFormed s c n k) c n (actXfer n k) := by
  obtain ⟨-, hxfers⟩ := h.cell_actBegun
  obtain ⟨-, -, -, -, -, -, hcmd⟩ := h.went
  have hbegun : NotStranded c n (actBegun s c n k) := notStranded_of_alive h.cellDead_actBegun
  have hformed : NotStranded c n (actFormed s c n k).s := NotStranded.actRow (w := W.mk (actBegun s c n k) c { k with issued := 1 } .go) hbegun
  exact ⟨h.went, hformed.alive hcmd, h.keepsXfers.trans hxfers, h.noneLeft⟩

theorem OneActRow.exec_eq : exec (.actFused c n) s = .next ((rowEnded (actFormed s c n k) (actXfer n k)).keep.work c n [0x0402] W.actEnd) := by
  rw [exec_actFused h.working, h.actRows, State.steps, h.actStep_issue, if_pos rfl, State.steps, h.actStep_land, if_pos rfl,
    steps_of_no_progress h.lastRow.actStep_ended]

end

/-- Settles O31: the rows of NORM_STATS and ACT_FUSED are steps of their commands. That ACT_FUSED ends once its row has landed turns on its
cell being able to act then, wherever the row's destinations lie: no access strands a command in a cell that cannot act. -/
theorem outputStageDoesItsRows : Obligations.OutputStageDoesItsRows := by
  intro c n k s
  refine ⟨exec_actFused, fun hw => ?_, fun hrows hlen hpos hlive => ⟨fun hw => normStats_doesItsRow hw hrows hlen hpos hlive, ?_⟩⟩
  · obtain ⟨-, hcmd, -⟩ := hw
    exact exec_normStats hcmd
  · intro hw hissued hfault halone hnone hroom s1 r hwent hxfers hleft
    have h : OneActRow s c n k := ⟨hw, hrows, hlen, hpos, hlive, hissued, hfault, halone, hnone, hroom, hwent, hxfers, hleft⟩
    exact ⟨_, h.exec_eq, h.lastRow.ends⟩

end Sys2Proof.Proofs
end

section
/-! PROOFS. The Till (R209 to R219): emptied slots, the end of an add, and the modes of TILL_FLUSH. -/

namespace Sys2Proof.Proofs

open Sys2Proof Sys2Proof.Machine Sys2Proof.Claims

/-! ## Slots (R209, R230) -/

theorem bulk_of_onlyRegs {os : List Nat} {s t : State} (h : OnlyRegs os s t) : t.bulk = s.bulk := by rw [h.1]

section
variable (s : State) (c slot : Nat)

theorem onlyRegs_syncSlot : OnlyRegs [Fd.cellTillSlotValid.reg c slot] s (s.syncSlot c slot) := by
  simp only [State.syncSlot]
  exact onlyRegs_trans (onlyRegs_setReg _ (List.mem_singleton_self _) _) (onlyRegs_setReg _ (List.mem_singleton_self _) _)

theorem cell_emptySlot : (s.emptySlot c slot).cell c =
    { s.cell c with till := (s.cell c).till.filter (fun e => decide (e.1 / 16384 ≠ slot)) } := by
  have hcells (z : State) : (z.syncSlot c slot).cell c = z.cell c := by rw [State.cell, cells_of_onlyRegs (onlyRegs_syncSlot z c slot), State.cell]
  rw [State.emptySlot, hcells, State.cell_set_fld, State.cell_on_self]

theorem cmds_emptySlot : ((s.emptySlot c slot).cell c).cmds = (s.cell c).cmds := by rw [cell_emptySlot]

theorem tillAdds_emptySlot : ((s.emptySlot c slot).cell c).tillAdds = (s.cell c).tillAdds := by rw [cell_emptySlot]

theorem stores_emptySlot : (s.emptySlot c slot).stores = s.stores := by
  rw [State.emptySlot, stores_of_onlyRegs (onlyRegs_syncSlot ..), State.stores_setFld, State.stores_onCell]

theorem bulk_emptySlot : (s.emptySlot c slot).bulk = s.bulk := by
  rw [State.emptySlot, bulk_of_onlyRegs (onlyRegs_syncSlot ..), State.bulk_setFld, State.bulk_onCell]

/-- A field outside the bits VALID, SAT and NAR of a slot, or outside its register, stays as the slot is emptied. -/
theorem fld_emptySlot_other {g : Field} {b i : Nat} (hg : 0 < g.w)
    (h : g.reg b i ≠ Fd.cellTillSlotValid.reg c slot ∨ g.lo + g.w ≤ 16 ∨ g.lo = 17 ∧ g.w = 1 ∨ 20 ≤ g.lo) :
    (s.emptySlot c slot).fld g b i = s.fld g b i := by
  have hbit {f : Field} (hf : f = Fd.cellTillSlotValid ∨ f = Fd.cellTillSlotSat ∨ f = Fd.cellTillSlotNar) (z : State) (v : Nat) :
      (z.setFld f c slot v).fld g b i = z.fld g b i := by
    rcases h with hreg | hbits
    · refine fld_setFld_other z ?_ v
      rcases hf with rfl | rfl | rfl <;> exact hreg
    · refine fld_setFld_beside z ?_ ?_ ?_ hg v <;> rcases hf with rfl | rfl | rfl <;>
        simp only [Fd.cellTillSlotValid, Fd.cellTillSlotSat, Fd.cellTillSlotNar] <;> omega
  simp only [State.emptySlot, State.syncSlot]
  rw [hbit (.inr (.inr rfl)), hbit (.inr (.inl rfl)), hbit (.inl rfl)]
  rfl

end

/-- A slot holds no sum and no element. -/
def SlotEmpty (c slot : Nat) (s : State) : Prop :=
  s.fld Fd.cellTillSlotValid c slot = 0 ∧ ∀ e ∈ (s.cell c).till, e.1 / 16384 ≠ slot

theorem slotEmpty_emptySlot (s : State) (c slot : Nat) : SlotEmpty c slot (s.emptySlot c slot) := by
  constructor
  · simp only [State.emptySlot, State.syncSlot]
    rw [fld_setFld_beside _ (by decide) (by decide) (by decide) (by decide), fld_setFld_beside _ (by decide) (by decide) (by decide) (by decide),
      fld_setFld_self _ (by decide) (by decide) _ _ (by decide)]
  · intro e he
    rw [cell_emptySlot] at he
    simpa using (List.mem_filter.mp he).2

/-- Emptying any slot leaves an empty slot empty. -/
theorem SlotEmpty.emptySlot {s : State} {c j : Nat} (h : SlotEmpty c j s) (slot : Nat) : SlotEmpty c j (s.emptySlot c slot) := by
  obtain ⟨hvalid, hnone⟩ := h
  refine ⟨?_, fun e he => ?_⟩
  · by_cases hj : j = slot
    · rw [hj]
      exact (slotEmpty_emptySlot s c slot).1
    · rw [fld_emptySlot_other s c slot (by decide) (.inl ?_), hvalid]
      simp only [Field.reg, Fd.cellTillSlotValid]
      omega
  · rw [cell_emptySlot] at he
    exact hnone e (List.mem_filter.mp he).1

theorem slotEmpty_foldl_emptySlot {c j : Nat} {slots : List Nat} (s : State) (h : j ∈ slots ∨ SlotEmpty c j s) :
    SlotEmpty c j (slots.foldl (fun z i => z.emptySlot c i) s) := by
  induction slots generalizing s with
  | nil => simpa using h
  | cons i slots ih =>
    refine ih _ ?_
    rcases h with hmem | hempty
    · rcases List.mem_cons.mp hmem with rfl | hrest
      · exact .inr (slotEmpty_emptySlot ..)
      · exact .inl hrest
    · exact .inr (hempty.emptySlot i)

/-- Keeping what a piece of work has done leaves an empty slot empty. -/
theorem SlotEmpty.keep {w : W} {c j : Nat} (hgo : w.halt = .go) (hc : w.c = c) (h : SlotEmpty c j w.s) : SlotEmpty c j w.keep := by
  obtain ⟨hvalid, hnone⟩ := h
  subst hc
  rw [keep_of_go hgo]
  refine ⟨(fld_syncMill_other _ _ ?_).trans hvalid, ?_⟩
  · simp only [Field.reg, Fd.cellTillSlotValid, Fd.cellStateMillBusy]
    omega
  · rwa [cell_syncMill, cell_putCmd]

/-! ## The end of an add (R213, R216) -/

section
variable (s : State) (c : Nat)

theorem tillAdds_endAdds : ((s.endAdds c).cell c).tillAdds = (s.cell c).tillAdds := by
  rw [State.endAdds, cell_syncMill, State.cell_on_self]

theorem till_endAdds : ((s.endAdds c).cell c).till = (s.cell c).till := by
  rw [State.endAdds, cell_syncMill, State.cell_on_self]

theorem fld_endAdds_other {f : Field} {b i : Nat} (h : f.reg b i ≠ Fd.cellStateMillBusy.reg c 0) :
    (s.endAdds c).fld f b i = s.fld f b i := fld_syncMill_other _ c h

end

/-- The state in which the add at the head is gone and its slot let go of. -/
def addGone (s : State) (c : Nat) (a : TillAdd) : State := ((s.headAdd c (fun _ => [])).freeSlot c a.slot).emptySlot c a.slot

section
variable {s : State} {c : Nat} {a : TillAdd} {as : List TillAdd} (hadds : (s.cell c).tillAdds = a :: as)
include hadds

theorem addDone_of_added (halive : s.cellDead c = false) (hadded : a.added = true) :
    s.addDone c = ((addGone s c a).bump Fd.cellTillAddCnt c, true) := by
  simp [State.addDone, hadds, halive, hadded, addGone]

theorem cell_headAdd_gone : (s.headAdd c (fun _ => [])).cell c = { s.cell c with tillAdds := as } := by
  rw [State.headAdd, State.cell_on_self, hadds]
  rfl

/-- A slot that nothing else holds is no longer busy. -/
theorem freeSlot_gone (hheld : a.slot ∉ (s.cell c).tillHeld) (hlast : ∀ y ∈ as, y.slot ≠ a.slot) :
    (s.headAdd c (fun _ => [])).freeSlot c a.slot = (s.headAdd c (fun _ => [])).setFld Fd.cellTillSlotBusy c a.slot 0 := by
  simp only [State.freeSlot, cell_headAdd_gone hadds]
  refine if_neg ?_
  simpa [hheld] using hlast

end

section
variable {s : State} {c : Fin 256} {a : TillAdd} {as : List TillAdd} (hadds : (s.cell c).tillAdds = a :: as)
include hadds

/-- R213, R216: an add that ends. -/
theorem tillAddDone_ends (halive : s.cellDead c = false) (hadded : a.added = true) (hslot : a.slot < 8)
    (hheld : a.slot ∉ (s.cell c).tillHeld) (hlast : ∀ y ∈ as, y.slot ≠ a.slot) :
    let t := ((addGone s c a).bump Fd.cellTillAddCnt c).endAdds c
    exec (.tillAddDone c) s = .next t ∧ (t.cell c).tillAdds = as ∧ t.fld Fd.cellTillSlotBusy c a.slot = 0 ∧ SlotEmpty c a.slot t ∧
      t.fld Fd.cellTillAddCnt c = min (2 ^ Fd.cellTillAddCnt.w - 1) (s.fld Fd.cellTillAddCnt c + 1) := by
  intro t
  have hfree := freeSlot_gone hadds hheld hlast
  have hslotReg {f : Field} (hf : f.reg c a.slot = Fd.cellTillSlotValid.reg c a.slot) : t.fld f c a.slot = (addGone s c a).fld f c a.slot := by
    refine (fld_endAdds_other _ c ?_).trans (fld_setFld_other _ ?_ _) <;> rw [hf] <;>
      simp only [Field.reg, Fd.cellTillSlotValid, Fd.cellStateMillBusy, Fd.cellTillAddCnt] <;> omega
  have hempty : SlotEmpty c a.slot (addGone s c a) := slotEmpty_emptySlot ..
  obtain ⟨hvalid, hnone⟩ := hempty
  refine ⟨?_, ?_, ?_, ⟨(hslotReg rfl).trans hvalid, ?_⟩, ?_⟩
  · change Host.Outcome.next ((s.addDone c).1.endAdds c) = _
    rw [addDone_of_added hadds halive hadded]
  · rw [tillAdds_endAdds, State.bump, State.cell_set_fld, addGone, tillAdds_emptySlot, hfree, State.cell_set_fld, cell_headAdd_gone hadds]
  · rw [hslotReg (f := Fd.cellTillSlotBusy) rfl, addGone, fld_emptySlot_other _ _ _ (by decide) (.inr (.inr (.inl (by decide)))), hfree,
      fld_setFld_self _ (by decide) (by decide) _ _ (by decide)]
  · rwa [till_endAdds, State.bump, State.cell_set_fld]
  · have hother {i : Nat} : i < 8 → Fd.cellTillAddCnt.reg c 0 ≠ Fd.cellTillSlotValid.reg c i := by
      simp only [Field.reg, Fd.cellTillAddCnt, Fd.cellTillSlotValid]
      omega
    rw [fld_endAdds_other, fld_bump_self _ (by decide) (by decide), addGone, fld_emptySlot_other _ _ _ (by decide) (.inl (hother hslot)), hfree,
      fld_setFld_other (f := Fd.cellTillSlotBusy) _ (hother hslot)]
    · rfl
    · simp only [Field.reg, Fd.cellTillAddCnt, Fd.cellStateMillBusy]
      omega

end

theorem tillAddsEnd : TillAddsEnd := by
  intro c s
  refine ⟨fun a as halive hadds hadded hslot hheld hlast => ?_, rfl⟩
  obtain ⟨hexec, hleft, hbusy, ⟨hvalid, hnone⟩, hcount⟩ := tillAddDone_ends hadds halive hadded hslot hheld hlast
  exact ⟨_, hexec, hleft, hbusy, hvalid, hnone, hcount⟩

/-! ## The modes of TILL_FLUSH (R218, R219) -/

section
variable {s : State} {c n : Nat} {k : Cmd}

/-- A step of a command's work that is run once. -/
theorem runCmd_once {op : Nat} (hw : Working s c n k op) (f : W → W) : s.runCmd c n op 1 f = (f (W.mk s c k .go)).keep := by
  obtain ⟨hdead, hcmd, hop, hfin, -⟩ := hw
  simp [State.runCmd, State.steps, W.step, hdead, hcmd, hop, hfin]

section
variable (hw : Working s c n k 0x0203)
include hw

/-- Nothing to do: a reserved mode, or no tile (R144, R218). -/
theorem tillMode_nothing (h : 5 ≤ k.u 16 1 % 8 ∨ 2 ≤ k.u 16 1 % 8 ∧ k.u 20 4 = 0) (mode fuel : Nat) (f : W → W) :
    s.tillMode c n mode fuel f = (W.mk s c k .go).finish.keep := by
  have hwork := work_of_working (f := W.finish) hw (List.mem_singleton_self _)
  obtain ⟨-, hcmd, hop, -⟩ := hw
  simp only [State.tillMode, hcmd, hop, ne_eq, not_true_eq_false, decide_false, Bool.false_eq_true, if_false, if_pos h, hwork]

/-- A mode with something to do runs when its turn has come (R219). -/
theorem tillMode_turn (hturn : s.tillBefore c n = false) {mode : Nat} (hmode : k.u 16 1 % 8 = mode) (hreal : mode < 5)
    (hsome : mode < 2 ∨ k.u 20 4 ≠ 0) (fuel : Nat) (f : W → W) : s.tillMode c n mode fuel f = s.runCmd c n 0x0203 fuel f := by
  obtain ⟨-, hcmd, hop, -⟩ := hw
  have hdo : ¬(5 ≤ mode ∨ 2 ≤ mode ∧ k.u 20 4 = 0) := by omega
  simp only [State.tillMode, hcmd, hop, hmode, hturn, ne_eq, not_true_eq_false, decide_false, Bool.false_eq_true, if_false, if_neg hdo, if_true]

theorem tillCount_of_working : s.tillCount c n = k.u 20 4 := by
  obtain ⟨-, hcmd, -⟩ := hw
  simp only [State.tillCount, hcmd]

end
end

/-- What a command does for its one row depends on its work on that row alone. -/
theorem doesItsRow_congr {i : Instr} {s : State} {c n : Nat} {k : Cmd} {f g : W → W} (h : f (W.mk s c k .go) = g (W.mk s c k .go))
    (hrow : DoesItsRow i s c n k f) : DoesItsRow i s c n k g := by
  rwa [DoesItsRow, h] at hrow

/-- The work of CLEAR_SLOTS: the slots it names are emptied (R219). -/
def slotsCleared (w : W) : W :=
  ({ w with s := ((List.range 8).filter w.k.slotsNamed).foldl (fun z i => z.emptySlot w.c i) w.s }).finish

/-- The work of one tile of CLEAR_TILES (R219). -/
def tileCleared (w : W) : W :=
  if w.s.tileClaimed w.c (w.k.addr 32) (w.k.u 24 4 + w.k.pos) then { w with halt := .wait }
  else w.writeTile (w.k.addr 32) (w.k.u 24 4 + w.k.pos) (-128) (List.replicate 16384 0)

section
variable {s : State} {c : Fin 256} {n : Nat} {k : Cmd} (hw : Working s c n k 0x0203)
include hw

/-- A reserved mode ends its command and leaves memory (R144, R218). -/
theorem tillRead_reserved (h : 5 ≤ k.u 16 1 % 8) : ∃ t, exec (.tillRead c n) s = .next t ∧
    t.cmd c n = some { k with finished := true, kdone := true } ∧ t.stores = s.stores ∧ t.bulk = s.bulk := by
  have hexec : exec (.tillRead c n) s = .next (W.mk s c k .go).finish.keep := congrArg Host.Outcome.next (tillMode_nothing hw (.inl h) ..)
  obtain ⟨-, hcmd, -, -, rfl⟩ := hw
  obtain ⟨hstores, hbulk, -⟩ := sameMemory_keep (w := (W.mk s c k .go).finish) rfl
  exact ⟨_, hexec, cmd_keep (w := (W.mk s c k .go).finish) rfl hcmd, hstores, hbulk⟩

variable (hturn : s.tillBefore c n = false)
include hturn

theorem exec_tillAddSlots (hmode : k.u 16 1 % 8 = 0) :
    exec (.tillAddSlots c n) s = .next (((s.runCmd c n 0x0203 1 W.addSlots).runAdds c).endAdds c) := by
  have hrun := tillMode_turn hw hturn hmode (by decide) (.inl (by decide)) 1 W.addSlots
  change execTillAddSlots c n s = _
  rw [execTillAddSlots, hrun]

theorem exec_tillClearSlots (hmode : k.u 16 1 % 8 = 1) :
    exec (.tillClearSlots c n) s = .next (slotsCleared (W.mk s c k .go)).keep := by
  have hrun := tillMode_turn hw hturn hmode (by decide) (.inl (by decide)) 1 slotsCleared
  rw [runCmd_once hw] at hrun
  exact congrArg Host.Outcome.next hrun

/-- R219: the slots that a CLEAR_SLOTS names are empty, and it has finished. -/
theorem tillClearSlots_empties (hmode : k.u 16 1 % 8 = 1) : ∃ t, exec (.tillClearSlots c n) s = .next t ∧
    t.cmd c n = some { k with finished := true, kdone := true } ∧ (∀ j, j < 8 → k.slotsNamed j = true → SlotEmpty c j t) ∧
    t.stores = s.stores ∧ t.bulk = s.bulk := by
  have hexec := exec_tillClearSlots hw hturn hmode
  obtain ⟨-, hcmd, -, -, rfl⟩ := hw
  have hcmds : ((slotsCleared (W.mk s c k .go)).s.cell c).cmds = (s.cell c).cmds :=
    foldl_keeps (fun z => (z.cell c).cmds) (fun z i _ => cmds_emptySlot z c i) s
  have hstores' : (slotsCleared (W.mk s c k .go)).s.stores = s.stores := foldl_keeps State.stores (fun z i _ => stores_emptySlot z c i) s
  have hbulk' : (slotsCleared (W.mk s c k .go)).s.bulk = s.bulk := foldl_keeps State.bulk (fun z i _ => bulk_emptySlot z c i) s
  obtain ⟨hstores, hbulk, -⟩ := sameMemory_keep (w := slotsCleared (W.mk s c k .go)) rfl
  refine ⟨_, hexec, cmd_keep (w := slotsCleared (W.mk s c k .go)) rfl (y := k) ?_, fun j hj hnamed => SlotEmpty.keep rfl rfl ?_,
    hstores.trans hstores', hbulk.trans hbulk'⟩
  · exact (congrArg (List.find? _) hcmds).trans hcmd
  · exact slotEmpty_foldl_emptySlot s (.inl (List.mem_filter.mpr ⟨List.mem_range.mpr hj, hnamed⟩))

/-- The modes with tiles do them in order (R218, R219). -/
theorem exec_tileModes (hsome : k.u 20 4 ≠ 0) :
    (k.u 16 1 % 8 = 2 → exec (.tillClearTiles c n) s = .next (s.runCmd c n 0x0203 (k.u 20 4 + 1) (W.rowStep (k.u 20 4) tileCleared))) ∧
    (k.u 16 1 % 8 = 3 → exec (.tillRead c n) s = .next (s.runCmd c n 0x0203 (k.u 20 4 + 1) (W.rowStep (k.u 20 4) W.readOut))) ∧
    (k.u 16 1 % 8 = 4 → exec (.tillMerge c n) s = .next (s.runCmd c n 0x0203 (k.u 20 4 + 1) (W.rowStep (k.u 20 4) W.mergeTile))) := by
  have hrun {mode : Nat} (hreal : mode < 5) (f : W → W) (hmode : k.u 16 1 % 8 = mode) :
      s.tillMode c n mode (s.tillCount c n + 1) (W.rowStep (s.tillCount c n) f) =
        s.runCmd c n 0x0203 (k.u 20 4 + 1) (W.rowStep (k.u 20 4) f) := by
    rw [tillCount_of_working hw]
    exact tillMode_turn hw hturn hmode hreal (.inr hsome) ..
  exact ⟨fun h => congrArg Host.Outcome.next (hrun (by decide) tileCleared h), fun h => congrArg Host.Outcome.next (hrun (by decide) W.readOut h),
    fun h => congrArg Host.Outcome.next (hrun (by decide) W.mergeTile h)⟩

/-- Each mode does its one tile (R219); CLEAR_TILES one that no other cell has claimed (R216). -/
theorem oneTile_doesItsRow (hone : k.u 20 4 = 1) (hpos : k.pos = 0) (hlive : k.cancelled = false) :
    (k.u 16 1 % 8 = 2 → s.tileClaimed c (k.addr 32) (k.u 24 4) = false →
      DoesItsRow (.tillClearTiles c n) s c n k (fun w => w.writeTile (k.addr 32) (k.u 24 4) (-128) (List.replicate 16384 0))) ∧
    (k.u 16 1 % 8 = 3 → DoesItsRow (.tillRead c n) s c n k W.readOut) ∧
    (k.u 16 1 % 8 = 4 → DoesItsRow (.tillMerge c n) s c n k W.mergeTile) := by
  obtain ⟨hclear, hread, hmerge⟩ := exec_tileModes hw hturn (by rw [hone]; decide)
  rw [hone] at hclear hread hmerge
  have hrow {i : Instr} {f : W → W} (hexec : exec i s = .next (s.runCmd c n 0x0203 2 (W.rowStep 1 f))) : DoesItsRow i s c n k f := by
    obtain ⟨-, -, hop, -⟩ := id hw
    rw [← hop] at hexec
    exact doesItsRow_of_runCmd hexec hw hpos hlive
  refine ⟨fun hmode hfree => ?_, fun hmode => hrow (hread hmode), fun hmode => hrow (hmerge hmode)⟩
  have htile : tileCleared (W.mk s c k .go) = (W.mk s c k .go).writeTile (k.addr 32) (k.u 24 4) (-128) (List.replicate 16384 0) := by
    simp only [tileCleared, hpos, Nat.add_zero, hfree, Bool.false_eq_true, if_false]
  exact doesItsRow_congr htile (hrow (hclear hmode))

end

theorem tillModesRun : TillModesRun := by
  intro c n k s hw
  refine ⟨tillRead_reserved hw, fun hturn => ⟨exec_tillAddSlots hw hturn, fun hmode => ?_, exec_tileModes hw hturn, oneTile_doesItsRow hw hturn⟩⟩
  obtain ⟨t, hexec, hcmd, hempty, hstores, hbulk⟩ := tillClearSlots_empties hw hturn hmode
  exact ⟨t, hexec, hcmd, hempty, hstores, hbulk⟩

/-- Settles O29: the end of the Till's adds, and each mode of a TILL_FLUSH whose turn has come. -/
theorem tillCommandsDoTheirModes : Obligations.TillCommandsDoTheirModes := ⟨tillAddsEnd, tillModesRun⟩

end Sys2Proof.Proofs
end

section
/-! PROOFS. The Turner (R204, R205): a half reads the next square of its operand, and the work of its command goes on. -/

namespace Sys2Proof.Proofs

open Sys2Proof Sys2Proof.Machine Sys2Proof.Claims

/-! ## Whether a chain can have ended (R117, R127, R131, R144) -/

/-- A chain has nothing left to read: its k-steps are read, it was stopped, or there were none. -/
def nothingToRead (k : Cmd) : Bool := k.kdone || k.cancelled || k.fault.isSome || k.nothing

theorem millEnd_of_toRead {w : W} (h : nothingToRead w.k = false) : w.millEnd = w := by
  have hended : (w.k.kdone || w.k.cancelled || w.k.fault.isSome || w.k.nothing) = false := h
  simp only [W.millEnd, hended, Bool.false_and, Bool.false_eq_true, if_false]

theorem nothingToRead_count (k : Cmd) (n : Counts) : nothingToRead (k.count n) = nothingToRead k := by
  simp only [Cmd.count]
  split <;> split <;> rfl

theorem nothingToRead_panelRead (k : Cmd) (g : Geo) (ord rt : Nat) : nothingToRead (k.panelRead g ord rt) = nothingToRead k := by
  simp only [Cmd.panelRead]
  split <;> rfl

theorem nothingToRead_streamRead (k : Cmd) : nothingToRead k.streamRead = nothingToRead k := by
  simp only [Cmd.streamRead]
  split <;> rfl

/-! ## Reading an operand from the own store (R70, R207) -/

/-- Work v goes on as work w did: in the same cell, and with something left to read where w had. -/
structure GoesOn (w v : W) : Prop where
  c : v.c = w.c
  toRead : nothingToRead v.k = nothingToRead w.k

theorem GoesOn.of_state (w : W) (z : State) : GoesOn w { w with s := z } := ⟨rfl, rfl⟩

theorem GoesOn.trans {u v w : W} (h : GoesOn u v) (h' : GoesOn v w) : GoesOn u w := ⟨h'.c.trans h.c, h'.toRead.trans h.toRead⟩

theorem goesOn_peek {w : W} {off n : Nat} (hgo : (w.peek off n).2.on = true) : w.on = true ∧ GoesOn w (w.peek off n).2 := by
  cases hon : w.on with
  | false => simp [W.peek, hon] at hgo
  | true =>
    cases hbad : (w.s.storeRead w.c off n).2.1 with
    | false => simp [W.peek, hon, hbad, GoesOn.of_state]
    | true =>
      simp only [W.peek, hon, hbad, Bool.not_true, Bool.false_eq_true, if_false, if_true] at hgo
      exact Bool.noConfusion hgo

theorem goesOn_peekRuns {w : W} (rs : List (Nat × Nat)) (hgo : (w.peekRuns rs).on = true) : w.on = true ∧ GoesOn w (w.peekRuns rs) := by
  induction rs generalizing w with
  | nil => exact ⟨hgo, rfl, rfl⟩
  | cons r rs ih =>
    obtain ⟨hpeek, hrest⟩ := ih hgo
    obtain ⟨hon, hfirst⟩ := goesOn_peek hpeek
    exact ⟨hon, hfirst.trans hrest⟩

theorem goesOn_deliver {w : W} {x : Src} {plain : Option (List Byte × Nat)} {kk : Nat} {es : List Nat} {e1 e2 k1 k2 : Nat} :
    (w.deliver x plain kk es e1 e2 k1 k2).2.on = true → GoesOn w (w.deliver x plain kk es e1 e2 k1 k2).2 := by
  unfold W.deliver
  extract_lets w1 _ _ _ _ _ _ _ _ w2
  split
  next hoff => simp_all
  next hon =>
    intro _
    obtain ⟨-, hc, hread⟩ := goesOn_peekRuns (w := w) _ (by simpa using hon : w1.on = true)
    have hcounted : w2.c = w1.c ∧ w2.k = w1.k := by
      simp only [w2]
      split <;> exact ⟨rfl, rfl⟩
    obtain ⟨hc2, hk2⟩ := hcounted
    exact ⟨hc2.trans hc, (nothingToRead_count ..).trans (hk2 ▸ hread)⟩

/-! ## The halves of the Turner (R204) -/

theorem num_turnerOf (s : State) (c port num : Nat) : (s.turnerOf c port num).num = num := by
  unfold State.turnerOf
  split
  · split
    next h => exact h
    next => rfl
  · rfl

theorem turnerOf_setTurner (s : State) (c port : Nat) {x : TurnSt} {num : Nat} (h : x.num = num) :
    (s.setTurner c port (some x)).turnerOf c port num = x := by
  simp [State.turnerOf, State.setTurner, h]

theorem turnerOf_keep {w : W} (hgo : w.halt = .go) (port num : Nat) : w.keep.turnerOf w.c port num = w.s.turnerOf w.c port num := by
  rw [keep_of_go hgo, State.turnerOf, cell_syncMill, cell_putCmd, State.turnerOf]

/-- A square of an operand unit that covers its k-steps from a place of it on (R204). -/
structure NextSquare (k : Cmd) (port : Nat) (x : TurnSt) (u : Nat × (Nat × Nat) × Nat × Nat × Nat) (q : Square) : Prop where
  unit : q.unit = x.unit
  lo : q.lo = u.2.2.2.1 + x.next
  hi : q.hi = min u.2.2.2.2 (q.lo + squareSteps (if port = 0 then k.geo.fa else k.geo.fb))

/-- R204: a half that reads its operand holds one more square, of the unit and the k-steps that come next. -/
theorem readSquare_adds {port : Nat} {w : W} {u : Nat × (Nat × Nat) × Nat × Nat × Nat}
    (hunit : w.k.turnUnit w.k.geo port (w.s.turnerOf w.c port w.k.num).unit = some u) (hgo : (w.readSquare port).halt = .go) :
    GoesOn w (w.readSquare port) ∧ ∃ q, NextSquare w.k port (w.s.turnerOf w.c port w.k.num) u q ∧
      ((w.readSquare port).s.turnerOf w.c port w.k.num).bufs = (w.s.turnerOf w.c port w.k.num).bufs ++ [q] := by
  obtain ⟨ord, t, j, first, end_⟩ := u
  have hnum := num_turnerOf w.s w.c port w.k.num
  unfold W.readSquare at hgo ⊢
  simp only [hunit] at hgo ⊢
  generalize w.s.turnerOf w.c port w.k.num = x at hnum hgo ⊢
  generalize hhi : min end_ (first + x.next + squareSteps (if port = 0 then w.k.geo.fa else w.k.geo.fb)) = hi at hgo ⊢
  generalize hd : (if port = 0 then w.deliver _ _ _ _ _ _ _ _ else w.deliver _ _ _ _ _ _ _ _) = d at hgo ⊢
  have hread : d.2.on = true → GoesOn w d.2 := by
    rw [← hd]
    split <;> exact goesOn_deliver
  have hpass : nothingToRead (if port = 0 then d.2.k.panelRead w.k.geo ord t.1 else d.2.k.streamRead) = nothingToRead d.2.k := by
    split
    · exact nothingToRead_panelRead ..
    · exact nothingToRead_streamRead _
  cases hon : d.2.on with
  | false => simp_all [W.on]
  | true =>
    obtain ⟨hc, htoRead⟩ := hread hon
    simp only [Bool.not_true, Bool.false_eq_true, if_false]
    by_cases hlast : end_ ≤ hi
    · simp only [hlast, decide_true, if_true]
      exact ⟨⟨hc, hpass.trans htoRead⟩, ⟨x.unit, first + x.next, hi, d.1⟩, ⟨rfl, rfl, hhi.symm⟩,
        congrArg TurnSt.bufs (turnerOf_setTurner _ _ _ (by exact hnum))⟩
    · simp only [hlast, decide_false, Bool.false_eq_true, if_false]
      exact ⟨⟨hc, htoRead⟩, ⟨x.unit, first + x.next, hi, d.1⟩, ⟨rfl, rfl, hhi.symm⟩,
        congrArg TurnSt.bufs (turnerOf_setTurner _ _ _ (by exact hnum))⟩

theorem squareReady_toRead {s : State} {c port : Nat} {k : Cmd} (h : s.squareReady c port k = true) (hopen : k.kdone = false) :
    nothingToRead k = false ∧ ∃ u, k.turnUnit k.geo port (s.turnerOf c port k.num).unit = some u := by
  cases hu : k.turnUnit k.geo port (s.turnerOf c port k.num).unit with
  | none => simp [State.squareReady, hu] at h
  | some u =>
    simp only [State.squareReady, Bool.and_eq_true, Bool.not_eq_true'] at h
    obtain ⟨⟨⟨⟨⟨⟨-, -⟩, hsome⟩, hfault⟩, hlive⟩, -⟩, -⟩ := h
    exact ⟨by simp_all [nothingToRead], u, rfl⟩

theorem exec_turnerSquare {c : Fin 256} {port : Fin 2} {k : Cmd} {s : State} {op : Nat} (hw : Working s c k.num k op)
    (hmill : op = 0x0201 ∨ op = 0x0202) (hcmds : (s.cell c).cmds = [k]) (hready : s.squareReady c port k = true) :
    exec (.turnerSquare c port) s = .next (s.millStep c k.num (W.readSquare port)).1 := by
  have htry := millTry_of_ready hw hmill (fun z y => z.squareReady c port y) (W.readSquare port) hready
  change Host.Outcome.next (s.anyMill c (fun z y => z.squareReady c port y) (W.readSquare port)) = _
  rw [anyMill_single hcmds, htry]

/-- Settles O28: the square read stays in its half, since a command whose half is ready has something left to read and does not end. -/
theorem turnersSquareTheirUnit : Obligations.TurnersSquareTheirUnit := by
  intro c port k s op hw hmill hcmds hready hopen x g
  have hexec := exec_turnerSquare hw hmill hcmds hready
  refine ⟨hexec, fun hgo => ⟨_, hexec, ?_⟩⟩
  obtain ⟨htoRead, u, hunit⟩ := squareReady_toRead hready hopen
  obtain ⟨⟨hc, hstill⟩, q, ⟨hq, hlo, hhi⟩, hbufs⟩ := readSquare_adds (w := W.mk s c k .go) hunit hgo
  rw [millStep_of_go hw hgo, millEnd_of_toRead (hstill.trans htoRead)]
  have hkept := turnerOf_keep hgo port k.num
  rw [hc] at hkept
  refine ⟨u, q, hunit, ?_, hq, hlo, ?_⟩
  · exact (congrArg TurnSt.bufs hkept).trans hbufs
  · rw [hhi]
    simp only [g, Fin.ext_iff, Fin.val_zero]

end Sys2Proof.Proofs
end

section
/-! PROOFS. The Cooper: swaps of a table slot port by port (R253 to R255), and the commands TABLE_BUILD, TABLE_SWAP and COMPRESS (R240 to R246). -/

namespace Sys2Proof.Proofs

open Sys2Proof Sys2Proof.Machine Sys2Proof.Claims

/-- A command with nothing left to do has finished; no memory changes. -/
theorem finish_keep_of_cmd {s : State} {c n : Nat} {k : Cmd} (hcmd : s.cmd c n = some k) (hnum : k.num = n) :
    (W.mk s c k .go).finish.keep.cmd c n = some { k with finished := true, kdone := true } ∧
      (W.mk s c k .go).finish.keep.stores = s.stores ∧ (W.mk s c k .go).finish.keep.bulk = s.bulk := by
  subst hnum
  obtain ⟨hstores, hbulk, -⟩ := sameMemory_keep (w := (W.mk s c k .go).finish) rfl
  exact ⟨cmd_keep (w := (W.mk s c k .go).finish) rfl hcmd, hstores, hbulk⟩

/-- What a piece of work leaves of its command is what is kept of it. -/
theorem cmd_keep_of_rowWent {r : W} {c n op : Nat} (hr : RowWent r c n op) : r.keep.cmd c n = some r.k := by
  obtain ⟨hgo, rfl, rfl, -, -, -, hcmd⟩ := hr
  obtain ⟨y, hy⟩ := Option.isSome_iff_exists.mp hcmd
  exact cmd_keep hgo hy

/-! ## Swaps (R253 to R255) -/

/-- The ports of a swap that stay on the old bank once a port has switched. -/
def portsLeft (x : Swap) (port : Nat) : List Nat := x.ports.filter (fun p => decide (p ≠ port))

/-- A port reads the bank that was not active, and a swap's place in the cell's list is taken by what is left of it. -/
def portSwitched (s : State) (c : Nat) (x : Swap) (port : Nat) : State :=
  s.onCell c (fun y => { y with
    portBank := Tab.set (fun _ => 0) y.portBank (3 * x.slot + port) (1 - s.fld Fd.cellTableSlotActive c x.slot)
    swaps := if portsLeft x port = [] then [] else [{ x with ports := portsLeft x port }] })

section
variable {s : State} {c : Nat} {x : Swap} {port : Nat}

theorem cmds_portSwitched : ((portSwitched s c x port).cell c).cmds = (s.cell c).cmds := by
  rw [portSwitched, State.cell_on_self]

theorem portBank_portSwitched : Tab.get (fun _ => 0) ((portSwitched s c x port).cell c).portBank (3 * x.slot + port) =
    1 - s.fld Fd.cellTableSlotActive c x.slot := by
  rw [portSwitched, State.cell_on_self, Tab.get_set_self]

theorem swaps_portSwitched : ((portSwitched s c x port).cell c).swaps =
    if portsLeft x port = [] then [] else [{ x with ports := portsLeft x port }] := by
  rw [portSwitched, State.cell_on_self]

variable (hswaps : (s.cell c).swaps = [x])
include hswaps

/-- The port of the one requested swap switches where no table loading holds the slot; the last one completes the swap (R253, R255). -/
theorem applySwap_single (hport : port ∈ x.ports) (hloading : s.fld Fd.cellTableSlotLoading c x.slot = 0) :
    s.applySwap c x.slot port = if portsLeft x port = [] then
      ((portSwitched s c x port).setFld Fd.cellTableSlotActive c x.slot (1 - s.fld Fd.cellTableSlotActive c x.slot)).syncSwap c x.slot
      else portSwitched s c x port := by
  simp only [State.applySwap, portSwitched, State.onCell, hswaps, List.find?_cons_of_pos, decide_true, State.flag, hloading,
    List.contains_eq_mem, hport, Bool.not_true, Bool.or_false, zero_ne_one, decide_false, Bool.false_eq_true, if_false,
    List.erase_cons_head, List.map_cons, List.map_nil, if_true]
  rfl

end

/-- ACTIVE and PENDING of a slot as its last port has swapped (R255). -/
theorem active_pending_of_noSwaps {z : State} {c slot new : Nat} (hnone : (z.cell c).swaps = []) (hnew : new < 2) :
    ((z.setFld Fd.cellTableSlotActive c slot new).syncSwap c slot).fld Fd.cellTableSlotActive c slot = new ∧
      ((z.setFld Fd.cellTableSlotActive c slot new).syncSwap c slot).fld Fd.cellTableSlotPending c slot = 0 := by
  have hpending : (z.setFld Fd.cellTableSlotActive c slot new).syncSwap c slot =
      (z.setFld Fd.cellTableSlotActive c slot new).setFld Fd.cellTableSlotPending c slot 0 := by
    simp [State.syncSwap, hnone, b2n]
  rw [hpending]
  constructor
  · rw [fld_setFld_beside _ (by decide) (by decide) (by decide) (by decide), fld_setFld_self _ (by decide) (by decide) _ _ hnew]
  · exact fld_setFld_self _ (by decide) (by decide) _ _ (by decide)

/-- TABLE_SWAP has nothing left to do once no swap is requested (R253). -/
theorem exec_tableSwap_noSwaps {s : State} {c : Fin 256} {n : Nat} {k : Cmd} (hw : Working s c n k 0x0502) (hnone : (s.cell c).swaps = []) :
    exec (.tableSwap c n) s = .next (W.mk s c k .go).finish.keep := by
  refine congrArg Host.Outcome.next ((work_of_working hw (List.mem_singleton_self _)).trans (congrArg W.keep ?_))
  dsimp only
  rw [List.foldl_fixed' (fun _ => by rw [hnone]; rfl)]
  simp [hnone]

theorem tableSwap_finishes {s : State} {c : Fin 256} {n : Nat} {k : Cmd} (hw : Working s c n k 0x0502) (hnone : (s.cell c).swaps = []) :
    ∃ t, exec (.tableSwap c n) s = .next t ∧ t.cmd c n = some { k with finished := true, kdone := true } ∧ t.stores = s.stores := by
  have hexec := exec_tableSwap_noSwaps hw hnone
  obtain ⟨-, hcmd, -, -, hnum⟩ := hw
  obtain ⟨hdone, hstores, -⟩ := finish_keep_of_cmd hcmd hnum
  exact ⟨_, hexec, hdone, hstores⟩

theorem exec_tableSwapApply {s : State} {c : Fin 256} (halive : s.cellDead c = false) (slot : Fin 16) (port : Fin 3) :
    exec (.tableSwapApply c slot port) s = .next (s.applySwap c slot port) :=
  congrArg Host.Outcome.next (if_neg (by simp [halive]))

theorem tableSwapsApplyPortByPort : TableSwapsApplyPortByPort := by
  intro c n slot port x s halive hswaps hslot hport hloading left
  refine ⟨_, exec_tableSwapApply halive slot port, ?_⟩
  rw [← hslot] at hloading ⊢
  rw [applySwap_single hswaps hport hloading]
  have hleft := swaps_portSwitched (s := s) (c := c) (x := x) (port := port)
  by_cases hlast : portsLeft x port = []
  · rw [if_pos hlast] at hleft ⊢
    obtain ⟨hactive, hpending⟩ := active_pending_of_noSwaps hleft (show 1 - s.fld Fd.cellTableSlotActive c x.slot < 2 by omega)
    exact ⟨cmds_portSwitched, rfl, portBank_portSwitched, fun h => absurd hlast h, fun _ => ⟨hleft, hactive, hpending⟩,
      fun _ => tableSwap_finishes⟩
  · rw [if_neg hlast] at hleft ⊢
    exact ⟨cmds_portSwitched, rfl, portBank_portSwitched, fun _ => ⟨hleft, rfl⟩, fun h => absurd h hlast, fun _ => tableSwap_finishes⟩

/-! ## TABLE_BUILD (R240 to R242) -/

/-- A table form goes on where no swap is requested in its cell (R242). -/
theorem tableForm_of_noSwaps {w : W} (hnone : (w.s.cell w.c).swaps = []) (f : W → List Nat × Nat × W) :
    w.tableForm f = if ((f w).2.2.putTable (f w).1 (f w).2.1).halt = .wait then w.back ((f w).2.2.putTable (f w).1 (f w).2.1)
      else ((f w).2.2.putTable (f w).1 (f w).2.1).finish := by
  simp only [W.tableForm, hnone, List.any_nil, Bool.false_and, Bool.false_eq_true, if_false]

section
variable {s : State} {c : Fin 256} {n : Nat} {k : Cmd} (hw : Working s c n k 0x0501)
include hw

theorem exec_tableBuild (hnone : (s.cell c).swaps = []) (hform : k.u 16 1 % 4 = 0) :
    let w := W.mk s c k .go
    let r := w.read (k.addr 24) (k.u 20 4)
    let z := (r.2.moved (if r.2.on then k.u 20 4 else 0)).putTable (buildLens (histogram r.1)) (k.u 18 1)
    exec (.tableBuild c n) s = .next (if z.halt = .wait then w.back z else z.finish).keep := by
  refine congrArg Host.Outcome.next ((work_of_working hw (List.mem_singleton_self _)).trans (congrArg W.keep ?_))
  have hbuild : ¬2 ≤ k.u 16 1 % 4 ∧ k.u 16 1 % 4 ≠ 1 := by omega
  simp only [hbuild, if_false]
  exact tableForm_of_noSwaps (w := W.mk s c k .go) hnone _

theorem exec_tableLoad (hnone : (s.cell c).swaps = []) (hform : k.u 16 1 % 4 = 1) :
    let w := W.mk s c k .go
    let r := w.read (k.addr 24) 264
    let z := (r.2.moved (if r.2.on then 264 else 0)).putTable ((r.1.take 256).map BitVec.toNat) (fieldB r.1 256 1)
    exec (.tableLoad c n) s = .next (if z.halt = .wait then w.back z else z.finish).keep := by
  refine congrArg Host.Outcome.next ((work_of_working hw (List.mem_singleton_self _)).trans (congrArg W.keep ?_))
  simp only [hform, ne_eq, not_true_eq_false, if_false]
  exact tableForm_of_noSwaps (w := W.mk s c k .go) hnone _

/-- R240: a reserved form ends at once. -/
theorem exec_tableBuild_reserved (hform : 2 ≤ k.u 16 1 % 4) : exec (.tableBuild c n) s = .next (W.mk s c k .go).finish.keep :=
  congrArg Host.Outcome.next ((work_of_working hw (List.mem_singleton_self _)).trans (congrArg W.keep (if_pos hform)))

end

/-! ## COMPRESS (R245, R246) -/

/-- One step of a COMPRESS at work in a cell, if it is still at work. -/
def unitStep (c n : Nat) (f : W → W) (z : State) : State × Bool :=
  match z.cmd c n with
  | some y => if y.finished ∨ y.opcode ≠ 0x0503 then (z, false) else ((W.mk z c y .go).compressStep f).step
  | none => (z, false)

theorem unitStep_of_cmd {s : State} {c n : Nat} {k : Cmd} (hcmd : s.cmd c n = some k) (hop : k.opcode = 0x0503) (hfin : k.finished = false)
    (f : W → W) : unitStep c n f s = ((W.mk s c k .go).compressStep f).step := by
  simp only [unitStep, hcmd, hop, hfin, Bool.false_eq_true, ne_eq, not_true_eq_false, or_self, if_false]

/-- A COMPRESS in the direction of the command runs its units, ascending. -/
theorem compressRun_of_working {s : State} {c n : Nat} {k : Cmd} (hw : Working s c n k 0x0503) {dir : Nat} (hdir : k.u 24 1 % 2 = dir) (f : W → W) :
    s.compressRun c n dir f = State.steps (unitStep c n f) (k.u 16 4 + 1) s := by
  obtain ⟨hdead, hcmd, -⟩ := hw
  simp only [State.compressRun, hcmd, hdir, hdead, ne_eq, not_true_eq_false, Bool.false_eq_true, or_self, if_false]
  rfl

/-- A unit that is left is coded or decoded (R246). -/
theorem compressStep_of_left {w : W} {f : W → W} (hbytes : w.k.unitBytes ≠ 0) (hleft : w.k.pos < w.k.u 16 4) (hlive : w.k.cancelled = false)
    (hgo : (f w).halt = .go) : w.compressStep f = f w := by
  simp [W.compressStep, hbytes, Nat.not_le.mpr hleft, hlive, hgo]

/-- A COMPRESS without a unit left ends. -/
theorem compressStep_of_done {w : W} (f : W → W) (hdone : w.k.u 16 4 ≤ w.k.pos) : w.compressStep f = w.finish :=
  if_pos (.inr (.inl hdone))

/-- A COMPRESS at work whose one unit is still to be done. -/
structure OneUnit (s : State) (c n : Nat) (k : Cmd) : Prop where
  working : Working s c n k 0x0503
  one : k.u 16 4 = 1
  pos : k.pos = 0
  bytes : k.unitBytes ≠ 0
  live : k.cancelled = false

section
variable {s : State} {c : Fin 256} {n : Nat} {k : Cmd} {f : W → W} (h : OneUnit s c n k) (hr : RowWent (f (W.mk s c k .go)) c n 0x0503)
  (hdone : (f (W.mk s c k .go)).k.u 16 4 ≤ (f (W.mk s c k .go)).k.pos)
include h hr hdone

/-- A COMPRESS of one unit does it in one step and ends in the next. -/
theorem OneUnit.steps_eq : State.steps (unitStep c n f) (k.u 16 4 + 1) s =
    (W.mk (f (W.mk s c k .go)).keep c (f (W.mk s c k .go)).k .go).finish.keep := by
  have hnext := cmd_keep_of_rowWent hr
  obtain ⟨⟨-, hcmd, hkop, hfin, -⟩, hone, hpos, hbytes, hlive⟩ := h
  obtain ⟨hgo, -, -, hop, hopen, -⟩ := hr
  have hfirst : unitStep c n f s = ((f (W.mk s c k .go)).keep, true) := by
    rw [unitStep_of_cmd hcmd hkop hfin, compressStep_of_left (by exact hbytes) (by simp [hone, hpos]) (by exact hlive) hgo]
    simp [W.step, hgo]
  have hlast := unitStep_of_cmd hnext hop hopen f
  rw [compressStep_of_done f (by exact hdone)] at hlast
  rw [hone]
  simp only [State.steps, hfirst, hlast, W.step, if_true, ite_self]

/-- A COMPRESS of one unit does it, with all of the unit's effect on memory, and has finished (R246). -/
theorem OneUnit.finishes {i : Instr} (hexec : exec i s = .next (State.steps (unitStep c n f) (k.u 16 4 + 1) s)) :
    ∃ t, exec i s = .next t ∧ t.cmd c n = some { (f (W.mk s c k .go)).k with finished := true, kdone := true } ∧
      t.stores = (f (W.mk s c k .go)).s.stores ∧ t.bulk = (f (W.mk s c k .go)).s.bulk := by
  have hnext := cmd_keep_of_rowWent hr
  rw [h.steps_eq hr hdone] at hexec
  obtain ⟨hgo, -, hnum, -⟩ := hr
  obtain ⟨hkept, hkeptBulk, -⟩ := sameMemory_keep hgo
  obtain ⟨hended, hstores, hbulk⟩ := finish_keep_of_cmd hnext hnum
  exact ⟨_, hexec, hended, hstores.trans hkept, hbulk.trans hkeptBulk⟩

end

section
variable {s : State} {c : Fin 256} {n : Nat} {k : Cmd} (hw : Working s c n k 0x0503)
include hw

theorem exec_compressUnits (hdir : k.u 24 1 % 2 = 0) :
    exec (.compressUnits c n) s = .next (State.steps (unitStep c n W.compressUnit) (k.u 16 4 + 1) s) :=
  congrArg Host.Outcome.next (compressRun_of_working hw hdir _)

theorem exec_expandUnits (hdir : k.u 24 1 % 2 = 1) :
    exec (.expandUnits c n) s = .next (State.steps (unitStep c n W.expandNext) (k.u 16 4 + 1) s) :=
  congrArg Host.Outcome.next (compressRun_of_working hw hdir _)

end

theorem coderCommandsDoTheirForms : CoderCommandsDoTheirForms := by
  intro c n k s
  refine ⟨fun hw hnone => ⟨exec_tableBuild hw hnone, exec_tableLoad hw hnone, fun hform => ?_⟩,
    fun hw => ⟨exec_compressUnits hw, exec_expandUnits hw⟩, fun hw hone hpos hbytes hlive => ⟨fun hdir hr hrpos _ hrone => ?_,
      fun hdir hr hrpos _ hrone => ?_⟩⟩
  · have hexec := exec_tableBuild_reserved hw hform
    obtain ⟨-, hcmd, -, -, hnum⟩ := hw
    exact ⟨_, hexec, (finish_keep_of_cmd hcmd hnum).1⟩
  · exact OneUnit.finishes ⟨hw, hone, hpos, hbytes, hlive⟩ hr (by omega) (exec_compressUnits hw hdir)
  · exact OneUnit.finishes ⟨hw, hone, hpos, hbytes, hlive⟩ hr (by omega) (exec_expandUnits hw hdir)

/-- Settles O59: the swap of a slot at each port and at the last, and the commands of the coder. -/
theorem tablesSwapAndCodersRun : Obligations.TablesSwapAndCodersRun := ⟨tableSwapsApplyPortByPort, coderCommandsDoTheirForms⟩

end Sys2Proof.Proofs
end

section
/-! PROOFS. Memory-side operations: a write to MS_GO of a stack in SERVICE mode, one that starts an operation, and an operation's end
(R276 to R278). -/

namespace Sys2Proof.Proofs

open Sys2Proof Sys2Proof.Machine Sys2Proof.Claims

/-! ## A write to MS_GO (R276) -/

/-- Where a register of a stack stands (R10). -/
theorem blockOf_stack (m : Fin 12) {p : Nat} (hp : p < 0x10000) : blockOf (Blk.stack.base m + p) = some (.stack, m.val, p) := by
  have hm := m.isLt
  have hcell : ¬Blk.cell.holds (Blk.stack.base m + p) = true := by simp [Blk.holds, Blk.base, Blk.count, Blk.size]; omega
  have hstack : Blk.stack.holds (Blk.stack.base m + p) = true := by simp [Blk.holds, Blk.base, Blk.count, Blk.size]; omega
  rw [blockOf, Blk.all, List.find?_cons_of_neg (by exact hcell), List.find?_cons_of_pos (by exact hstack)]
  simp [Blk.base, Blk.size]
  omega

theorem blockOf_msGo (m : Fin 12) : blockOf (Fd.stackMsGoKind.reg m 0) = some (.stack, m.val, 0x618) := blockOf_stack m (by decide)

theorem fieldsAt_msGo (m : Fin 12) : fieldsAt (Fd.stackMsGoKind.reg m 0) = [(Fd.stackMsGoKind, 0), (Fd.stackMsGoImm, 0)] := by
  rw [fieldsAt, blockOf_msGo]; rfl

/-- The fields of MS_GO keep no written value: its register stays. -/
theorem storeReg_msGo (s : State) (who : Who) (m : Fin 12) (w : RegWrite) :
    s.storeReg who (Fd.stackMsGoKind.reg m 0) w = s.setReg (Fd.stackMsGoKind.reg m 0) (s.reg (Fd.stackMsGoKind.reg m 0)) := by
  have hfield : ∀ f : Field, f.acs = .wo → ∀ v, w.field f v = (v, 0) := fun f hf v => by simp [RegWrite.field, hf]
  simp [State.storeReg, fieldsAt_msGo, blockOf_msGo, hfield Fd.stackMsGoKind rfl, hfield Fd.stackMsGoImm rfl]

/-- KIND and IMM of a whole write to MS_GO. -/
theorem wo_msGo : ∀ kind < 8, ∀ imm locked : Bool,
    let w : RegWrite := ⟨2 ^ 64 - 1, Nat.land (kind + 256 * b2n imm) (2 ^ 64 - 1), 0, locked⟩
    w.wo Fd.stackMsGoKind = kind ∧ decide (w.wo Fd.stackMsGoImm = 1) = imm := by
  decide

/-- A permitted write to MS_GO does what its KIND and IMM say, and stores nothing. -/
theorem msGoWrite_of_mayWrite {s : State} {who : Who} {m : Fin 12} (hmay : MayWrite s who (Fd.stackMsGoKind.reg m 0)) {kind : Nat} (hkind : kind < 8)
    (imm : Bool) : s.msGoWrite who m kind imm =
      (s.setReg (Fd.stackMsGoKind.reg m 0) (s.reg (Fd.stackMsGoKind.reg m 0))).msGo who m kind imm := by
  obtain ⟨hperm, hreset⟩ := hmay
  obtain ⟨hwkind, hwimm⟩ := wo_msGo kind hkind imm (s.flag Fd.resetLockBootLock)
  have halign : Fd.stackMsGoKind.reg m 0 % 8 = 0 := by simp [Field.reg, Fd.stackMsGoKind, Blk.base]; omega
  have hfit : (kind + 256 * b2n imm) % 2 ^ 64 = kind + 256 * b2n imm := by cases imm <;> simp [b2n] <;> omega
  simp only [State.msGoWrite, State.writeWhole, State.ctlWrite, halign, show Fd.stackMsGoKind.reg m 0 / 8 * 8 = Fd.stackMsGoKind.reg m 0 by omega,
    Nat.mul_zero, Nat.pow_zero, Nat.mul_one, Nat.reduceMul, hfit, State.ctlWriteMask, hreset, hperm, storeReg_msGo, blockOf_msGo, fieldsAt_msGo,
    List.head?_cons, ne_eq, not_true_eq_false, if_false, Bool.false_eq_true]
  rw [State.writeEffect, if_neg (by decide), if_neg (by decide), if_neg (by decide), if_pos rfl, hwkind, hwimm]

theorem onlyRegs_setReg_own (os : List Nat) (s : State) (o : Nat) : OnlyRegs os s (s.setReg o (s.reg o)) := by
  refine ⟨rfl, fun p _ => ?_⟩
  by_cases h : p = o
  · rw [h, State.reg_set_self]
  · exact State.reg_set_other s _ h

theorem fld_setReg_own (s : State) (o : Nat) (f : Field) (b i : Nat) : (s.setReg o (s.reg o)).fld f b i = s.fld f b i :=
  fld_congr ((onlyRegs_setReg_own [] s o).2 _ List.not_mem_nil)

/-- R278: in SERVICE mode MS_GO is refused. -/
theorem msGo_service {s : State} {m : Nat} (hmode : s.fld Fd.stackMode m = 0) (who : Who) (kind : Nat) (imm : Bool) :
    let t := s.msGo who m kind imm
    OnlyRegs [Fd.stackMsStatusFault.reg m 0, Fd.stackMsRefusedCnt.reg m 0] s t ∧ t.fld Fd.stackMsStatusFault m = 0x2006 ∧
      t.fld Fd.stackMsStatusDone m = 1 ∧ t.fld Fd.stackMsRefusedCnt m = min (2 ^ 32 - 1) (s.fld Fd.stackMsRefusedCnt m + 1) := by
  have hcnt : Fd.stackMsRefusedCnt.reg m 0 ≠ Fd.stackMsStatusFault.reg m 0 := by simp [Field.reg, Fd.stackMsRefusedCnt, Fd.stackMsStatusFault]
  have hgo : s.msGo who m kind imm =
      ((s.setFld Fd.stackMsStatusFault m 0 0x2006).setFld Fd.stackMsStatusDone m 0 1).bump Fd.stackMsRefusedCnt m := by
    rw [State.msGo, if_pos hmode]; rfl
  rw [hgo]
  refine ⟨onlyRegs_trans (onlyRegs_setReg s (by simp) _) (onlyRegs_trans (onlyRegs_setReg _ (by simp [Field.reg, Fd.stackMsStatusDone,
    Fd.stackMsStatusFault]) _) (onlyRegs_bump _ (by simp) 1)), ?_, ?_, ?_⟩
  · rw [State.bump, fld_setFld_other _ hcnt.symm, fld_setFld_beside _ (by decide) (by decide) (by decide) (by decide),
      fld_setFld_self _ (by decide) (by decide) _ _ (by decide)]
  · rw [State.bump, fld_setFld_other (g := Fd.stackMsStatusDone) _ hcnt.symm, fld_setFld_self _ (by decide) (by decide) _ _ (by decide)]
  · rw [fld_bump_self _ (by decide) (by decide), fld_setFld_other (f := Fd.stackMsStatusDone) _ hcnt, fld_setFld_other _ hcnt]; rfl

theorem fld_setStk (s : State) (k : StackSt) (f : Field) (b i : Nat) : ({ s with stk := k } : State).fld f b i = s.fld f b i := rfl

/-- R277: outside SERVICE mode, with no operation running, MS_GO runs one of the five over its elements. -/
theorem msGo_run {s : State} {m kind : Nat} (hmode : s.fld Fd.stackMode m ≠ 0) (hidle : s.fld Fd.stackMsStatusBusy m = 0)
    (hcount : s.fld Fd.stackMsCount m ≠ 0) (hkind : kind < 5) (who : Who) (imm : Bool) :
    let t := s.msGo who m kind imm
    let v := if kind = 1 then s.fld Fd.stackMsSrc m else s.fld Fd.stackMsSrc m % 2 ^ 32
    let r := s.msRun ⟨who, none, none, none, none⟩ m kind (if imm then some v else none) (s.fld Fd.stackMsDst m) (s.fld Fd.stackMsSrc m)
      (s.fld Fd.stackMsCount m) 0
    t.fld Fd.stackMsStatusBusy m = 1 ∧ t.bulk = r.2.bulk ∧ t.stk.ms = r.2.stk.ms ++ [⟨m, r.1⟩] := by
  intro t v r
  have hbusy : ¬s.flag Fd.stackMsStatusBusy m = true := by simp [State.flag, hidle]
  have hgo : t = { r.2.setFld Fd.stackMsStatusBusy m 0 1 with stk := { r.2.stk with ms := r.2.stk.ms ++ [⟨m, r.1⟩] } } := by
    simp only [t, State.msGo, if_neg hmode, if_neg hbusy]
    exact if_neg (by omega)
  refine ⟨?_, by rw [hgo, State.bulk_setFld], by rw [hgo]⟩
  rw [hgo, fld_setStk (r.2.setFld Fd.stackMsStatusBusy m 0 1), fld_setFld_self _ (by decide) (by decide) _ _ (by decide)]

/-! ## The end of an operation (R277) -/

/-- MEMSIDE_DONE writes the outcome of its stack's operation. -/
theorem msEnd_of_find {s : State} {m : Nat} {op : MsOp} (hop : s.stk.ms.find? (fun o => decide (o.stack = m)) = some op) :
    (s.msEnd m).fld Fd.stackMsStatusDone m = 1 ∧ (s.msEnd m).fld Fd.stackMsStatusBusy m = 0 ∧
      (s.msEnd m).fld Fd.stackMsStatusFault m = op.fault.toNat ∧ (s.msEnd m).bulk = s.bulk ∧
      (s.msEnd m).stk.ms = s.stk.ms.filter (fun o => decide (o.stack ≠ m)) := by
  rw [State.msEnd, hop]
  refine ⟨?_, ?_, ?_, by rw [State.bulk_setFld, State.bulk_setFld, State.bulk_setFld],
    by rw [State.stk_setFld, State.stk_setFld, State.stk_setFld]⟩
  · rw [fld_setFld_self _ (by decide) (by decide) _ _ (by decide)]
  · rw [fld_setFld_beside _ (by decide) (by decide) (by decide) (by decide), fld_setFld_self _ (by decide) (by decide) _ _ (by decide)]
  · rw [fld_setFld_beside _ (by decide) (by decide) (by decide) (by decide), fld_setFld_beside _ (by decide) (by decide) (by decide) (by decide),
      fld_setFld_self _ (by decide) (by decide) _ _ (by exact op.fault.isLt)]

/-! ## The obligation -/

/-- The five commands write their KIND to MS_GO. -/
theorem exec_msGoWrite (who : Who) (m : Fin 12) (imm : Bool) (s : State) :
    ∀ p ∈ [(Instr.msAddInt32 who m imm, 0), (Instr.msAddInt64 who m imm, 1), (Instr.msAddFp32 who m imm, 2), (Instr.msAddL16 who m imm, 3),
        (Instr.msFill who m imm, 4)], p.2 < 5 ∧ exec p.1 s = .next (s.msGoWrite who m p.2 imm) := by
  simp only [List.forall_mem_cons, List.not_mem_nil, false_imp_iff, implies_true, and_true]
  exact ⟨⟨by decide, rfl⟩, ⟨by decide, rfl⟩, ⟨by decide, rfl⟩, ⟨by decide, rfl⟩, by decide, rfl⟩

/-- Settles O22: MS_GO by the stack's mode, and the end of an operation. -/
theorem memorySideOperationsRunOrAreRefused : Obligations.MemorySideOperationsRunOrAreRefused := by
  intro who m imm s hmay
  have hsame := fld_setReg_own s (Fd.stackMsGoKind.reg m 0)
  refine ⟨fun p hp => ?_, fun op hop => ?_⟩
  · obtain ⟨hkind, hexec⟩ := exec_msGoWrite who m imm s p hp
    rw [msGoWrite_of_mayWrite hmay (by omega)] at hexec
    refine ⟨fun hmode => ⟨_, hexec, ?_⟩, fun hmode hidle hcount => ⟨_, hexec, ?_⟩⟩
    · obtain ⟨hregs, hfault, hdone, hcnt⟩ := msGo_service ((hsame ..).trans hmode) who p.2 imm
      exact ⟨onlyRegs_trans (onlyRegs_setReg_own _ s _) hregs, hfault, hdone, by rw [hcnt, hsame]⟩
    · have hrun := msGo_run (ne_of_eq_of_ne (hsame ..) hmode) ((hsame ..).trans hidle) (ne_of_eq_of_ne (hsame ..) hcount) hkind who imm
      simpa only [hsame] using hrun
  · obtain ⟨hdone, hbusy, hfault, hbulk, hms⟩ := msEnd_of_find hop
    exact ⟨_, rfl, hdone, hbusy, hfault, hbulk, by rw [hms]; simp⟩

end Sys2Proof.Proofs
end

section
/-! PROOFS. FRAME_RELEASE while hosts' operations wait: they are tried again (R411) also where the window of the frame is not drained
(R291), so the state does not stay as it is. -/

namespace Sys2Proof.Proofs

open Sys2Proof Sys2Proof.Machine Sys2Proof.Claims

/-! ## A frame whose window a host's operation holds -/

/-- A frame of tenant 0, stamped with its epoch 0. -/
def stampedFrame : Stamped := ⟨8, 0, 0, true⟩

/-- A host's WRITE to region 0 of tenant 0, by the rkey of the region's GEN 0, that took epoch 0 and waits as PSN 5 of queue pair 9. -/
def waitingWrite : HostWait := ⟨0, 9, 5, 0, .write 0 0 [1]⟩

/-- Queue pair 9 of tenant 0 on port 3, open, which expects PSN 5. -/
def waitingQp : Qp :=
  ⟨9, 0, 3, false, 1, 0, 0, 4096, Keys.none, Keys.none, SeqWin.init, 1, false, 5, [], [], [], 0, [], 400000000, none, none⟩

/-- The frame awaits its release, the WRITE holds the frame's epoch, and REGION has been written since the WRITE came (GEN is 1). -/
def windowHeld : State :=
  { State.reset.setFld Fd.ethRegionGen 0 0 1 with
    pool := { State.reset.pool with stamped := [stampedFrame] }
    eth := { State.reset.eth with qps := [waitingQp], waiting := [waitingWrite] } }

/-- The WRITE's epoch keeps the frame from being released. -/
theorem frameRelease_windowHeld : windowHeld.drained stampedFrame.t stampedFrame.epoch 64 = false ∧ windowHeld.frameRelease 0 = windowHeld := by
  decide +kernel

/-- The WRITE is tried again all the same; its rkey is stale by now, so it is refused (R405, R410) and waits no longer. -/
theorem waiting_hostResume_windowHeld : windowHeld.hostResume.eth.waiting = [] := by
  decide +kernel

theorem not_stampedFramesAreReleased : ¬ StampedFramesAreReleased := by
  intro hreleased
  obtain ⟨hdrained, hkept⟩ := frameRelease_windowHeld
  obtain ⟨hsame, -⟩ := hreleased 0 stampedFrame windowHeld rfl
  have hexec : exec (.frameRelease 0) windowHeld = .next windowHeld.hostResume :=
    congrArg (fun z : State => Host.Outcome.next z.hostResume) hkept
  have hstate : windowHeld.hostResume = windowHeld := Host.Outcome.next.inj (hexec.symm.trans (hsame hdrained))
  have hnone : windowHeld.eth.waiting = [] := (congrArg (·.eth.waiting) hstate).symm.trans waiting_hostResume_windowHeld
  exact List.cons_ne_nil waitingWrite [] hnone

/-- Refutes O32: at FRAME_RELEASE a frame whose window is not drained stays, but a host's operation that waits is tried again (R411), and here
it is refused: the state does not stay as it is. -/
theorem not_thePoolKeepsItsFrames : ¬ Obligations.ThePoolKeepsItsFrames := by
  rintro ⟨hreleased, -⟩
  exact not_stampedFramesAreReleased hreleased

end Sys2Proof.Proofs
end

section
/-! PROOFS. FLASH_WRITE_DONE while a host's operation waits for the page: a write that fails leaves the page in its frame (R288), and the
host's WRITE is performed on it at once (R411), so the memory holds more than the entry that was put back. -/

namespace Sys2Proof.Proofs

open Sys2Proof Sys2Proof.Machine Sys2Proof.Claims

/-! ## An eviction that fails under a host's WRITE -/

/-- The pool evicts page 3 of tenant 0 from frame 8 to logical page 9. -/
def evictionWrite : FlashOp := ⟨true, 4, none, 0, 3, 9, 8, 0, none⟩

/-- Tenant 0 has a page table of 16 entries, and its region 0 is the one page 3 of the pool, which hosts may write. -/
def regionOnPage : State :=
  ((((State.reset.setFld Fd.poolPtEntries 0 0 16).setFld Fd.ethRegionKind 0 0 1).setFld Fd.ethRegionBase 0 0 3).setFld
    Fd.ethRegionLength 0 0 1).setFld Fd.ethRegionPerm 0 0 2

/-- Page 3 is being written to flash (RES = 2), and a host's WRITE of one byte to it waits as PSN 5 of queue pair 9. -/
def evicting : State :=
  { regionOnPage.setPte 0 3 { Pte.invalid with valid := true, ref := 1, res := 2, frame := 9 } with
    pool := { State.reset.pool with frames := [(8, ⟨0, false, false, 3⟩)] }
    flash := { State.reset.flash with ops := [evictionWrite] }
    eth := { State.reset.eth with qps := [waitingQp], waiting := [waitingWrite] } }

/-- Putting the entry back leaves the first byte of frame 8; the host's WRITE, tried again in the same step, changes it. -/
theorem firstByte_evicting : Mem.get (evicting.undoFlash evictionWrite false).bulk (8 * 65536) = 0 ∧
    Mem.get (evicting.flashWriteDone 0 false).hostResume.bulk (8 * 65536) = 1 := by
  decide +kernel

theorem not_flashWritesEnd : ¬ FlashWritesEnd := by
  intro hends
  obtain ⟨hundone, hwritten⟩ := firstByte_evicting
  obtain ⟨⟨t, hexec, -, -, -, hbulk⟩, -⟩ := hends 0 evictionWrite evicting rfl rfl rfl rfl
  have hstate : (evicting.flashWriteDone 0 false).hostResume = t := Host.Outcome.next.inj hexec
  rw [hstate, hbulk, hundone] at hwritten
  exact absurd hwritten (by decide)

/-- Refutes O33: a host's WRITE that waits for a page goes on in the step in which the page's flash write fails (R411), so that step does
more to the memory than to put the page's entry back. -/
theorem not_theFlashEndsItsOperations : ¬ Obligations.TheFlashEndsItsOperations := by
  rintro ⟨-, hwrites, -⟩
  exact not_flashWritesEnd hwrites

end Sys2Proof.Proofs
end

section
/-! PROOFS. COPY_BACK of a shadow whose page's entry lies beyond the stacks. The state does not exclude such a page, and the model then finds
registers of a stack that the module does not have among those of the pool (R10): a pin that the write of the entry marks lost (R264) is a
bit of EPOCH, and the shadow's frame is stamped with the epoch after it. -/

namespace Sys2Proof.Proofs

open Sys2Proof Sys2Proof.Machine Sys2Proof.Claims

/-! ## What the copy-back stamps (R291, R368) -/

theorem pool_advanceEpoch (s : State) (t : Fin 16) : (s.advanceEpoch t).1.pool = s.pool := by
  rw [State.advanceEpoch]
  split <;> rfl

theorem stamped_stampFrame (s : State) (t : Fin 16) (f : Nat) (keep : Bool) :
    (s.stampFrame t f keep).pool.stamped = s.pool.stamped ++ [⟨f, t, s.epoch t, keep⟩] := by
  rw [State.stampFrame, pool_advanceEpoch, State.pool_setFld]

theorem pool_closeSlot (s : State) (t : Fin 16) (j : Nat) : (s.closeSlot t j).pool = s.pool := by
  rw [State.closeSlot]
  split
  · rw [State.pool_setFld, State.setTxnState, State.pool_setFld]
  · rfl

/-- A shadow's frame is stamped with the epoch of the state in which it goes. -/
theorem stamped_dropShadow (s : State) (x : Shadow) (keep : Bool) :
    (s.dropShadow x keep).pool.stamped = s.pool.stamped ++ [⟨x.shadow, x.t, s.epoch x.t, keep⟩] := by
  rw [State.dropShadow, pool_closeSlot, State.pool_setFld, State.addPinned, State.pool_setFld, stamped_stampFrame]
  rfl

/-- A partial write of a burst leaves the registers that the read of its read-modify-write left (R269). -/
theorem regs_bulkPut_part {s : State} {a : Nat} {bs : List Byte} (hret : s.retired a = false)
    (hcow : ((s.refFrame (a / 65536)).frame (a / 65536)).cow = false) (hpart : bs.length ≠ 64) :
    (s.bulkPut a bs).st.regs = (((s.refFrame (a / 65536)).bump Fd.stackRmwCnt (stackOf a)).burstRead a).2.2.regs := by
  simp only [State.bulkPut, hret, hcow, hpart, Bool.false_eq_true, if_false]
  split <;> rename_i hread <;> rw [hread] <;> rfl

theorem length_encode (p : Pte) : p.encode.length = 16 := by simp [Pte.encode, leBytes]

/-! ## Errors that the inner code leaves (R260) -/

/-- Two wrong bits, in two symbols of CB pin 16. -/
def pinErrs : List (Nat × Byte) := [(64, 1), (65, 1)]

theorem cbHalf_pinErrs : cbHalf pinErrs = 257 := by decide +kernel

/-- The word of CB bits of two bursts that both have those errors. -/
def sharedWord : Nat := 257 + 2 ^ 64 * 257

/-- Whatever the die's code makes of the word, it changes one bit at most: one burst's half stays. -/
theorem innerFix_sharedWord : (innerFix sharedWord).1 % 2 ^ 64 = 257 ∨ (innerFix sharedWord).1 / 2 ^ 64 = 257 := by
  have hflip : ∀ v < 128, Nat.xor sharedWord (2 ^ v) % 2 ^ 64 = 257 ∨ Nat.xor sharedWord (2 ^ v) / 2 ^ 64 = 257 := by decide +kernel
  have hsame : sharedWord % 2 ^ 64 = 257 := by decide +kernel
  have hpop : popcount128 sharedWord = 4 := by decide +kernel
  rw [innerFix, if_neg (by decide +kernel), if_neg (by omega)]
  dsimp only
  split
  · exact .inl hsame
  · split
    · exact .inl hsame
    · rw [if_neg (by simp [hpop])]
      exact hflip _ (by omega)

/-- In one of two such bursts the inner code leaves the errors as they are. -/
theorem innerDecode_pinErrs : ∃ odd, innerDecode odd pinErrs pinErrs = (pinErrs, 0) := by
  have hwords : (List.range 4).map (fun g => innerFix (innerWord pinErrs g)) = List.replicate 4 (0, false) := by
    have hzero : (List.range 4).map (innerWord pinErrs) = List.replicate 4 0 := by decide +kernel
    exact List.map_map.symm.trans (congrArg (List.map innerFix) hzero)
  have hdata : ((List.range 64).map (fun i => (i, BitVec.ofNat 8
      (((List.replicate 4 (0, false)).getD (i % 4) (0, false)).1 / 2 ^ (8 * (i / 4)))))).filter (fun p => decide (p.2 ≠ (0 : Byte))) = [] := by
    rw [List.filter_eq_nil_iff]
    decide +kernel
  have hcheck : ((List.range 8).map (fun i => (64 + i, BitVec.ofNat 8 (257 / 2 ^ (8 * i))))).filter (fun p => decide (p.2 ≠ (0 : Byte))) =
      pinErrs := by
    decide +kernel
  have hdecode (odd : Bool) (hhalf : (if odd then (innerFix sharedWord).1 / 2 ^ 64 else (innerFix sharedWord).1 % 2 ^ 64) = 257) :
      innerDecode odd pinErrs pinErrs = (pinErrs, 0) := by
    rw [sharedWord] at hhalf
    simp only [innerDecode, ite_self, hwords, cbHalf_pinErrs, hhalf, List.filter_append, hdata, hcheck]
    rfl
  rcases innerFix_sharedWord with hhalf | hhalf
  · exact ⟨false, hdecode false hhalf⟩
  · exact ⟨true, hdecode true hhalf⟩

set_option maxRecDepth 2000 in
theorem rsDecode_pinErrs : rsDecode [] pinErrs = some pinErrs := by decide +kernel

/-! ## A page whose entry lies beyond the stacks -/

/-- A bulk address in stack 1,280, of which the module has none: the channel 32 of its burst has the place of EPOCH[0] in control space. One
of the two bursts that share a word of CB bits. -/
def farEntry (odd : Bool) : Nat := 1280 * 2 ^ 36 + 2 * 2 ^ 16 + 1024 * b2n odd

/-- A shadow of tenant 0, flipped at epoch 1, of the page whose entry would lie there. -/
def farShadow (odd : Bool) : Shadow := ⟨0, 0, farEntry odd / 16, 8, 9, some 1⟩

/-- The shadow is the pool's only one, and both bursts have the errors. -/
def farPage (odd : Bool) : State :=
  { State.reset with
    pool := { State.reset.pool with shadows := [farShadow odd] }
    stk := { State.reset.stk with bursts := [(farEntry false / 64, pinErrs), (farEntry true / 64, pinErrs)] } }

/-- A frame none of whose bursts is marked is copied as it stands. -/
theorem copyFrame_of_unmarked {s : State} {src : Nat} (hreset : s.inReset .stack (stackOf (src * 65536)) = false)
    (hret : s.retired (src * 65536) = false) (hmarked : s.markedBursts src = []) (dst : Nat) : s.copyFrame src dst =
      ⟨none, none, [], ({ s.refFrame src with
        bulk := (s.refFrame src).bulk.copyFrom (s.refFrame src).bulk (src * 65536) (dst * 65536) 65536 }.clearBursts dst).refFrame dst⟩ := by
  simp only [State.copyFrame, State.frameRead, hreset, hret, hmarked, State.readBursts, Bool.false_eq_true, if_false, Option.isSome_none]
  rfl

theorem markedBursts_farPage (odd : Bool) : (farPage odd).markedBursts 9 = [] := by
  have hlost : (List.range 16).filter (fun c =>
      decide ((farPage odd).lostPins (stackOf (9 * 65536)) (16 * regionOf (9 * 65536) + c) ≠ [])) = [] := by
    revert odd
    decide +kernel
  have hclean (a : Nat) (ha : a < 2 ^ 40) : (farPage odd).burstErr a = [] := by
    have hfar : ∀ odd, 2 ^ 40 ≤ farEntry odd / 64 := by decide +kernel
    have hfalse := hfar false
    have htrue := hfar true
    simp only [State.burstErr, farPage, Tab.get]
    rw [if_neg (by omega), if_neg (by omega)]
  simp only [State.markedBursts, hlost]
  split
  · rfl
  · rw [List.filter_eq_nil_iff]
    intro b hb
    have hlt : 9 * 65536 + 64 * b < 2 ^ 40 := by rw [List.mem_range] at hb; omega
    simp [hclean _ hlt, hclean _ (Nat.xor_lt_two_pow hlt (by norm_num : 1024 < 2 ^ 40))]

/-- The state of the copy-back when the shadow has been copied. -/
def farCopied (odd : Bool) : State := ({ (farPage odd).refFrame 9 with bulk := [] }.clearBursts 8).refFrame 8

theorem copyFrame_farPage (odd : Bool) : (farPage odd).copyFrame 9 8 = ⟨none, none, [], farCopied odd⟩ := by
  have hplain : ∀ odd, (farPage odd).inReset .stack (stackOf (9 * 65536)) = false ∧ (farPage odd).retired (9 * 65536) = false ∧
      ((farPage odd).refFrame 9).bulk = [] := by
    decide +kernel
  obtain ⟨hreset, hret, hbulk⟩ := hplain odd
  rw [copyFrame_of_unmarked hreset hret (markedBursts_farPage odd), hbulk]
  rfl

/-- The state in which the burst of the entry is read. -/
def farRead (odd : Bool) : State := ((farCopied odd).refFrame (farEntry odd / 65536)).bump Fd.stackRmwCnt (stackOf (farEntry odd))

theorem burstFix_farRead {odd : Bool} (hinner : innerDecode odd pinErrs pinErrs = (pinErrs, 0)) :
    (farRead odd).burstFix (farEntry odd) = (pinErrs, 0, some pinErrs) := by
  have hplace : ∀ odd, oddBurst (farEntry odd) = odd ∧ (farRead odd).burstErr (farEntry odd) = pinErrs ∧
      (farRead odd).burstErr (Nat.xor (farEntry odd) 1024) = pinErrs ∧
      (farRead odd).lostPins (stackOf (farEntry odd)) (channelOf (farEntry odd)) = [] := by
    decide +kernel
  obtain ⟨hodd, herr, hother, hlost⟩ := hplace odd
  simp only [State.burstFix, hodd, herr, hother, hlost, hinner, rsDecode_pinErrs]
  rfl

/-- Pin 16 is marked lost, which the model notes in EPOCH[0]. -/
theorem epoch_burstRead_farRead {odd : Bool} (hinner : innerDecode odd pinErrs pinErrs = (pinErrs, 0)) :
    ((farRead odd).burstRead (farEntry odd)).2.2.epoch 0 = 65536 := by
  have hlost := (by decide +kernel : ∀ odd, (farRead odd).lostPins (stackOf (farEntry odd)) (channelOf (farEntry odd)) = []) odd
  have hpins : (List.range 18).filter (fun p =>
      decide (2 ≤ (pinErrs.filter (fun p => decide (p.2 ≠ 0))).countP (fun q => q.1 / 4 = p))) = [16] := by decide +kernel
  have hsome : pinErrs.filter (fun p => decide (p.2 ≠ 0)) ≠ [] := by decide +kernel
  simp only [State.burstRead, burstFix_farRead hinner, hlost, hpins, hsome, if_true, ne_eq, not_false_eq_true, and_self]
  clear hlost hinner
  revert odd
  decide +kernel

theorem epoch_setPte_farCopied {odd : Bool} (hinner : innerDecode odd pinErrs pinErrs = (pinErrs, 0)) (p : Pte) :
    ((farCopied odd).setPte 0 (farEntry odd / 16) p).epoch 0 = 65536 := by
  have hplace : ∀ odd, (farCopied odd).pteAddr 0 (farEntry odd / 16) = farEntry odd ∧ (farCopied odd).retired (farEntry odd) = false ∧
      (((farCopied odd).refFrame (farEntry odd / 65536)).frame (farEntry odd / 65536)).cow = false := by
    decide +kernel
  obtain ⟨haddr, hret, hcow⟩ := hplace odd
  rw [← epoch_burstRead_farRead hinner]
  refine fld_congr ?_
  rw [State.setPte, haddr, State.reg, regs_bulkPut_part hret hcow (by rw [length_encode]; decide)]
  rfl

/-- A shadow whose window is drained and that can be read is copied back. -/
theorem exec_copyBack_through {i : Nat} {s : State} {x : Shadow} {e : Nat} {g : FrameGot} (hx : s.pool.shadows[i]? = some x)
    (hflip : x.flip = some e) (hthrough : s.drained x.t ((e + 2 ^ 32 - 1) % 2 ^ 32) 64 = true)
    (hg : s.copyFrame x.shadow x.frame = g) (hfault : g.fault = none) :
    exec (.copyBack i) s = .next ((g.st.setPte x.t.val x.tpn { g.st.pte x.t.val x.tpn with shadow := false }).dropShadow x true) := by
  subst hg
  show execCopyBack i s = _
  simp only [execCopyBack, hx, hflip, hthrough, hfault, Bool.not_true, Bool.false_eq_true, if_false, Option.isSome_none]

theorem not_shadowsAreCopiedBack : ¬ ShadowsAreCopiedBack := by
  intro hcopied
  obtain ⟨odd, hinner⟩ := innerDecode_pinErrs
  have hbefore : ∀ odd, (farPage odd).drained (farShadow odd).t ((1 + 2 ^ 32 - 1) % 2 ^ 32) 64 = true ∧
      (farPage odd).epoch (farShadow odd).t = 0 := by
    decide +kernel
  obtain ⟨hthrough, hepoch⟩ := hbefore odd
  have hcopy : (farPage odd).copyFrame (farShadow odd).shadow (farShadow odd).frame = ⟨none, none, [], farCopied odd⟩ :=
    copyFrame_farPage odd
  obtain ⟨-, hback⟩ := hcopied 0 (farShadow odd) 1 (farPage odd) rfl rfl
  obtain ⟨u, hexec, -, hstamped, -⟩ := hback hthrough (by rw [hcopy])
  rw [exec_copyBack_through rfl rfl hthrough hcopy rfl] at hexec
  rw [← Host.Outcome.next.inj hexec, stamped_dropShadow, hepoch] at hstamped
  have hlast := (List.append_inj' hstamped rfl).2
  simp only [List.cons.injEq, Stamped.mk.injEq, and_true, true_and] at hlast
  exact absurd ((epoch_setPte_farCopied hinner _).symm.trans hlast) (by decide)

/-- Refutes O37: a page whose entry lies beyond the stacks lets the write of its entry, at the end of the copy-back, mark a pin lost in a
register that the model finds in EPOCH; the shadow's frame is then stamped with the epoch so changed, not with that before the step. -/
theorem not_transactionsOpenCommitAndAbort : ¬ Obligations.TransactionsOpenCommitAndAbort := by
  rintro ⟨-, -, hcopied⟩
  exact not_shadowsAreCopiedBack hcopied

end Sys2Proof.Proofs
end

section
/-! PROOFS. The page commands (R284 to R288): the operations on pages and frames leave the cells as they are, a command of one page does that page in
one step and has finished in the next, and what each form of PAGE_MAP, PAGE_FREE, PAGE_COW and TIER_MOVE does to its page. -/

namespace Sys2Proof.Proofs

open Sys2Proof Sys2Proof.Machine Sys2Proof.Claims

/-! ## Reads leave the cells, the bulk bytes and the flash (R260 to R269, R281) -/

/-- What no read of bulk memory changes: the cells, the bytes, the flash. -/
def unread (s : State) : Tab CellSt × Mem × FlashSt := (s.cells, s.bulk, s.flash)

section
variable (s : State)

theorem unread_ite {p : Prop} [Decidable p] {x y : State} (hx : unread x = unread s) (hy : unread y = unread s) :
    unread (if p then x else y) = unread s := by
  split
  · exact hx
  · exact hy

theorem unread_setFld (f : Field) (b i v : Nat) : unread (s.setFld f b i v) = unread s := by
  rw [unread, State.cells_setFld, State.bulk_setFld, State.flash_setFld, unread]

theorem unread_bump (f : Field) (b i m : Nat) : unread (s.bump f b i m) = unread s := unread_setFld ..

theorem unread_setBit (f : Field) (b i m : Nat) (v : Bool) : unread (s.setBit f b i m v) = unread s := unread_setFld ..

theorem unread_refFrame (f : Nat) : unread (s.refFrame f) = unread s := unread_ite s rfl rfl

theorem unread_syncPool : unread s.syncPool = unread s := by
  simp only [State.syncPool, unread_setFld]

theorem unread_markLost (m d p : Nat) : unread (s.markLost m d p) = unread s := by
  simp only [State.markLost]
  split <;> split <;> simp only [unread_syncPool, unread_setBit]

theorem unread_suspectPin (m d p : Nat) : unread (s.suspectPin m d p).1 = unread s := by
  simp only [State.suspectPin]
  split
  · exact unread_markLost _ m d p
  · rfl

theorem unread_burstRead (a : Nat) : unread (s.burstRead a).2.2 = unread s := by
  have hcounted (x : State) (p : Prop) [Decidable p] (f : Field) (b i m : Nat) : unread (if p then x else x.bump f b i m) = unread x :=
    unread_ite x rfl (unread_bump ..)
  have hpins (m d : Nat) (l : List Nat) (q : State × Bool) :
      unread (l.foldl (fun (x : State × Bool) p => ((x.1.suspectPin m d p).1, x.2 || (x.1.suspectPin m d p).2)) q).1 = unread q.1 :=
    foldl_keeps (fun q : State × Bool => unread q.1) (f := fun x p => ((x.1.suspectPin m d p).1, x.2 || (x.1.suspectPin m d p).2))
      (fun x p _ => unread_suspectPin x.1 m d p) q
  simp only [State.burstRead]
  split
  · simp only [unread_bump, unread_setFld, hcounted]
  · split <;> simp only [hpins, unread_bump, hcounted]

theorem unread_bulkGet (a m : Nat) : unread (s.bulkGet a m).st = unread s := by
  have hread := (unread_burstRead (s.refFrame (a / 65536)) a).trans (unread_refFrame s _)
  simp only [State.bulkGet]
  split
  · exact (unread_bump ..).trans (unread_refFrame s _)
  · split <;> rename_i hgot <;> rw [hgot] at hread <;> exact hread

theorem unread_readPte (t tpn : Nat) : unread (s.readPte t tpn).st = unread s := by
  simp only [State.readPte]
  split
  · exact unread_bump ..
  · exact unread_bulkGet ..

end

/-! ## Pages leave the cells (R282 to R291) -/

section
variable (s : State)

theorem cells_ite {p : Prop} [Decidable p] {x y : State} (hx : x.cells = s.cells) (hy : y.cells = s.cells) :
    (if p then x else y).cells = s.cells := by
  split
  · exact hx
  · exact hy

theorem cells_refFrame (f : Nat) : (s.refFrame f).cells = s.cells := congrArg Prod.fst (unread_refFrame s f)

theorem cells_burstRead (a : Nat) : (s.burstRead a).2.2.cells = s.cells := congrArg Prod.fst (unread_burstRead s a)

theorem cells_readPte (t tpn : Nat) : (s.readPte t tpn).st.cells = s.cells := congrArg Prod.fst (unread_readPte s t tpn)

theorem cells_bulkPut (a : Nat) (bs : List Byte) : (s.bulkPut a bs).st.cells = s.cells := by
  have hcow (x : State) (p : Prop) [Decidable p] : (if p then x.bump Fd.poolCowWriteCnt else x).cells = x.cells :=
    cells_ite x (State.cells_bump ..) rfl
  simp only [State.bulkPut]
  split
  · exact (State.cells_bump ..).trans (cells_refFrame ..)
  · split
    · exact (hcow ..).trans (cells_refFrame ..)
    · split <;> rename_i hgot <;> replace hgot := congrArg (fun r => r.2.2.cells) hgot <;>
        simp only [cells_burstRead, State.cells_bump, hcow, cells_refFrame] at hgot <;> exact hgot.symm

theorem cells_setPte (t tpn : Nat) (p : Pte) : (s.setPte t tpn p).cells = s.cells := cells_bulkPut ..

theorem cells_takeFrame (t : Fin 16) (tpn f : Nat) (zero : Bool) : (s.takeFrame t tpn f zero).1.cells = s.cells := by
  rw [State.takeFrame, State.cells_setFrame]
  exact cells_ite s (cells_refFrame ..) rfl

theorem cells_addPinned (t : Fin 16) (d : Int) : (s.addPinned t d).cells = s.cells := State.cells_setFld ..

theorem cells_syncPool : s.syncPool.cells = s.cells := congrArg Prod.fst (unread_syncPool s)

theorem cells_freeFlash (lpn : Nat) : (s.freeFlash lpn).cells = s.cells := by
  rw [State.freeFlash, State.cells_setFld]

theorem cells_unpinPage (t : Fin 16) (tpn : Nat) : (s.unpinPage t tpn).cells = s.cells := by
  have hpin (p : Pte) : ((s.setPte t.val tpn p).addPinned t (-1)).cells = s.cells := (cells_addPinned ..).trans (cells_setPte ..)
  simp only [State.unpinPage]
  exact cells_ite s rfl (cells_ite s ((cells_syncPool _).trans (hpin _)) (hpin _))

theorem cells_advanceEpoch (t : Fin 16) : (s.advanceEpoch t).1.cells = s.cells := by
  rw [State.advanceEpoch]
  split
  · rfl
  · exact State.cells_setFld ..

theorem cells_stampFrame (t : Fin 16) (f : Nat) (keep : Bool) : (s.stampFrame t f keep).cells = s.cells := by
  rw [State.stampFrame, cells_advanceEpoch, State.cells_setFld]

theorem cells_closeSlot (t : Fin 16) (j : Nat) : (s.closeSlot t j).cells = s.cells := by
  rw [State.closeSlot]
  split
  · rw [State.cells_setFld, State.setTxnState, State.cells_setFld]
  · rfl

theorem cells_dropShadow (x : Shadow) (keep : Bool) : (s.dropShadow x keep).cells = s.cells := by
  rw [State.dropShadow, cells_closeSlot, State.cells_setFld, cells_addPinned, cells_stampFrame]

theorem cells_dropPage (t : Fin 16) (tpn : Nat) (keep : Bool) : (s.dropPage t tpn keep).cells = s.cells := by
  have hpin (x : State) (p : Prop) [Decidable p] : (if p then x.addPinned t (-1) else x).cells = x.cells := cells_ite x (cells_addPinned ..) rfl
  have hframe (x : State) (p : Prop) [Decidable p] (a b : Nat) : (if p then x.freeFlash a else x.stampFrame t b keep).cells = x.cells :=
    cells_ite x (cells_freeFlash ..) (cells_stampFrame ..)
  have hshadows (l : List Shadow) (x : State) : (l.foldl (fun z y => z.dropShadow y keep) x).cells = x.cells := by
    induction l generalizing x with
    | nil => rfl
    | cons y l ih => rw [List.foldl_cons, ih, cells_dropShadow]
  have hsync (x : State) (p : Prop) [Decidable p] : (if p then x.syncPool else x).cells = x.cells := cells_ite x (cells_syncPool x) rfl
  exact (hsync ..).trans ((hshadows ..).trans ((hframe ..).trans ((hpin ..).trans (cells_setPte ..))))

/-- A frame's copy-on-write bit follows its page. -/
theorem cells_setPte_setFrame (p : Prop) [Decidable p] (t tpn f : Nat) (q : Pte) (x : FrameInfo) :
    (if p then (s.setPte t tpn q).setFrame f x else s.setPte t tpn q).cells = s.cells :=
  cells_ite s (cells_setPte ..) (cells_setPte ..)

theorem cells_unref (t : Fin 16) (tpn : Nat) : (s.unref t tpn).cells = s.cells := by
  simp only [State.unref]
  exact cells_ite s (cells_dropPage ..) (cells_setPte_setFrame ..)

theorem cells_addRef (t : Fin 16) (tpn : Nat) : (s.addRef t tpn).cells = s.cells := by
  simp only [State.addRef]
  exact cells_ite s (State.cells_bump ..) (cells_setPte_setFrame ..)

theorem cells_startDemote (purpose : Nat) (cmd : Option (Nat × Nat)) (t : Fin 16) (tpn : Nat) :
    (s.startDemote purpose cmd t tpn).cells = s.cells := cells_setPte ..

end

/-! ## What a command leaves -/

theorem leavesAs_trans {t z s : State} {c n : Nat} {x y : Cmd} (h : LeavesAs t z c n y) (h' : LeavesAs z s c n x) : LeavesAs t s c n y := by
  obtain ⟨hcmd, hst, hbulk, hsc, hloc, hstk, hpool, hfl, hout, hreg⟩ := h
  obtain ⟨-, hst', hbulk', hsc', hloc', hstk', hpool', hfl', hout', hreg'⟩ := h'
  exact ⟨hcmd, hst.trans hst', hbulk.trans hbulk', hsc.trans hsc', hloc.trans hloc', hstk.trans hstk', hpool.trans hpool', hfl.trans hfl',
    hout.trans hout', fun o ho => (hreg o ho).trans (hreg' o ho)⟩

/-- Work that does not wait is kept: its command, and of the state all but MILL_BUSY. -/
theorem leavesAs_keep {w : W} {y : Cmd} (hhalt : w.halt ≠ .wait) (hcmd : w.s.cmd w.c w.k.num = some y) :
    LeavesAs w.keep w.s w.c w.k.num w.k := by
  have hkeep : w.keep = (w.s.putCmd w.c w.k).syncMill w.c := by
    rw [W.keep]
    split
    next hwait => exact absurd hwait hhalt
    next => rfl
  have hreg (o : Nat) (ho : o ≠ Fd.cellStateMillBusy.reg w.c 0) : w.keep.reg o = w.s.reg o := by
    rw [hkeep]
    exact State.reg_set_other (w.s.putCmd w.c w.k) _ ho
  have hcmd' : w.keep.cmd w.c w.k.num = some w.k := by
    rw [hkeep]
    exact cmd_putCmd_self hcmd
  refine ⟨hcmd', ?_, ?_, ?_, ?_, ?_, ?_, ?_, ?_, hreg⟩ <;> rw [hkeep, State.syncMill]
  · rw [State.stores_setFld, State.stores_putCmd]
  · rw [State.bulk_setFld, State.bulk_putCmd]
  · rw [State.scache_setFld, State.scache_putCmd]
  · rw [State.locals_setFld, State.locals_putCmd]
  · rw [State.stk_setFld, State.stk_putCmd]
  · rw [State.pool_setFld, State.pool_putCmd]
  · rw [State.flash_setFld, State.flash_putCmd]
  · rw [State.out_setFld, State.out_putCmd]

theorem cmd_of_cells {s z : State} {c n op : Nat} {k : Cmd} (hw : Working s c n k op) (h : z.cells = s.cells) : z.cmd c n = some k := by
  obtain ⟨-, hcmd, -⟩ := hw
  rw [← hcmd, State.cmd, State.cmd, State.cell, State.cell, h]

/-! ## Commands that end in two steps -/

section
variable {s z : State} {c n op : Nat} {k y : Cmd} {f : W → W} {h : Halt} (hw : Working s c n k op)
include hw

theorem working_num : k.num = n := hw.2.2.2.2

/-- Work that ends at once. -/
theorem runCmd_ends (hf : f (W.mk s c k .go) = W.mk z c y h) (hgone : h ≠ .wait) (hnum : y.num = n) (hfin : y.finished = true)
    (hz : (z.cmd c n).isSome = true) : LeavesAs (s.runCmd c n op 2 f) z c n y := by
  obtain ⟨x, hx⟩ := Option.isSome_iff_exists.mp hz
  obtain ⟨hdead, hcmd, hopc, hopen, -⟩ := hw
  subst hnum
  have hkept := leavesAs_keep (w := W.mk z c y h) hgone hx
  have hnext : (W.mk z c y h).keep.cmd c y.num = some y := hkept.1
  simpa only [State.runCmd, hdead, State.steps, hcmd, hopen, hopc, hf, W.step, hgone, hnext, hfin, ne_eq, not_true_eq_false, or_self,
    Bool.false_eq_true, if_false, not_false_eq_true, decide_true, if_true, true_or] using hkept

/-- Work that goes on after its first step and ends in the second. -/
theorem runCmd_ends_next (hf : f (W.mk s c k .go) = W.mk z c y .go) (hnum : y.num = n) (hopen : y.finished = false) (hop : y.opcode = op)
    (hz : (z.cmd c n).isSome = true) (hnext : ∀ u, f (W.mk u c y .go) = (W.mk u c y .go).finish) :
    LeavesAs (s.runCmd c n op 2 f) z c n { y with finished := true, kdone := true } := by
  obtain ⟨x, hx⟩ := Option.isSome_iff_exists.mp hz
  obtain ⟨hdead, hcmd, hopc, hopen', -⟩ := hw
  subst hnum
  have hkept := leavesAs_keep (w := W.mk z c y .go) nofun hx
  have hthere : (W.mk z c y .go).keep.cmd c y.num = some y := hkept.1
  have hend := leavesAs_keep (w := (W.mk (W.mk z c y .go).keep c y .go).finish) nofun hthere
  have hrun : s.runCmd c y.num op 2 f = (W.mk (W.mk z c y .go).keep c y .go).finish.keep := by
    simp only [State.runCmd, hdead, State.steps, hcmd, hopen', hopc, hf, W.step, hthere, hopen, hop, hnext, ne_eq, not_true_eq_false, or_self,
      Bool.false_eq_true, if_false, reduceCtorEq, not_false_eq_true, decide_true, if_true, ite_self]
  rw [hrun]
  exact leavesAs_trans hend hkept

end

/-! ## Commands of one page -/

/-- The state in which a command's transfer is begun differs from the one before in its cell's transfers and in the count of its Carter queue. -/
theorem leavesAs_begun {u z : State} {c n : Nat} {k y : Cmd} {x : Xfer}
    (h : LeavesAs u (begun (z.onCell c (fun y => { y with xfers := y.xfers ++ [x] })) c k) c n y) : LeavesAs u (begun z c k) c n y := h

theorem cmd_begun_xfers (z : State) (c n : Nat) (k : Cmd) (x : Xfer) :
    (begun (z.onCell c (fun y => { y with xfers := y.xfers ++ [x] })) c k).cmd c n = z.cmd c n := by
  rw [State.cmd, begun, State.cell_set_fld, State.cell_on_self, State.cmd]

/-- Work that does a command's pages in turn with g. -/
def pagesDone (g : W → Nat → W) (w : W) : W := w.rowStep (w.k.u 20 4) (fun z => g z (z.k.u 16 4 + z.k.pos))

/-- The checks that every page operation makes (R285 to R289): where they pass, the operation finds the page's entry p in the state z after the
read. -/
theorem onPage_through {s z : State} {c tpn : Nat} {k : Cmd} {t : Fin 16} {p : Pte} (htenant : k.tenant = some t)
    (htable : s.inTable t.val tpn = true) (hbusy : s.pageBusy c k.num t tpn = false) (hfault : (s.readPte t.val tpn).fault = none)
    (hwarn : (s.readPte t.val tpn).warn = none) (hwait : (s.readPte t.val tpn).wait = false) (hz : (s.readPte t.val tpn).st = z)
    (hp : z.pte t.val tpn = p) (f : W → Fin 16 → Pte → W) : (W.mk s c k .go).onPage tpn f = f (W.mk z c k .go) t p := by
  subst hz hp
  have htook : (W.mk s c k .go).took (s.readPte t.val tpn) = W.mk (s.readPte t.val tpn).st c k .go := by
    simp only [W.took, hfault, hwarn, hwait, Bool.false_eq_true, if_false]
  simp only [W.onPage, htenant, htable, hbusy, htook, W.on, Bool.not_true, Bool.false_eq_true, if_false, decide_true, if_true]

section
variable {s : State} {c : Fin 256} {n op tpn : Nat} {k : Cmd} {t : Fin 16} (h : OnePage s c n k op t tpn)
include h

theorem cmd_of_onePage {z : State} (hz : z.cells = s.cells) : (z.cmd c n).isSome = true := by
  obtain ⟨hw, -⟩ := h
  rw [cmd_of_cells hw hz, Option.isSome_some]

theorem onPage_of_onePage {z : State} (hz : (s.readPte t.val tpn).st = z) {p : Pte} (hp : z.pte t.val tpn = p) (f : W → Fin 16 → Pte → W) :
    (W.mk s c k .go).onPage tpn f = f (W.mk z c k .go) t p := by
  obtain ⟨hw, htenant, -, -, -, -, htable, hbusy, hfault, hwarn, hwait⟩ := h
  have hnum := working_num hw
  subst hnum
  exact onPage_through htenant htable hbusy hfault hwarn hwait hz hp f

section
variable {f : W → W} {g : W → Nat → W} (hf : ∀ u y, y.desc = k.desc → f (W.mk u c y .go) = pagesDone g (W.mk u c y .go))
include hf

/-- A page that is done. -/
theorem page_goes {z : State} {b : Nat} (hg : g (W.mk s c k .go) tpn = W.mk z c { k with bytes := b } .go)
    (hfound : (z.cmd c n).isSome = true) : LeavesAs (s.runCmd c n op 2 f) z c n { Claims.rowDone k with bytes := b } := by
  obtain ⟨hw, -, hrows, htpn, hpos, hlive, -⟩ := h
  obtain ⟨-, -, hop, hopen, hnum⟩ := id hw
  refine runCmd_ends_next (y := { k with bytes := b, pos := 1 }) hw ?_ hnum hopen hop hfound fun u => ?_
  · rw [hf _ _ rfl]
    simp only [pagesDone, W.rowStep, hrows, hpos, hlive, htpn, Nat.add_zero, hg]
    rfl
  · exact (hf u { k with bytes := b, pos := 1 } rfl).trans (if_pos (.inl hrows.le))

/-- A page that a code ends the work on. -/
theorem page_fails {z : State} {code : Code} (hg : g (W.mk s c k .go) tpn = (W.mk z c k .go).fail code)
    (hfound : (z.cmd c n).isSome = true) : LeavesAs (s.runCmd c n op 2 f) z c n (endedBy k code) := by
  obtain ⟨hw, -, hrows, htpn, hpos, hlive, -⟩ := h
  have hnum := working_num hw
  have hreport : (k.report code).num = k.num := by
    rw [Cmd.report]
    split <;> rfl
  refine runCmd_ends (y := endedBy k code) (h := .fault) hw ?_ nofun (hreport.trans hnum) rfl hfound
  rw [hf _ _ rfl]
  simp only [pagesDone, W.rowStep, hrows, hpos, hlive, htpn, Nat.add_zero, hg]
  rfl

end

/-- The pages of a command whose OP is one of ops. -/
theorem runPages_of_onePage {ops : List Nat} (hops : k.u 24 1 % 4 ∈ ops) (g : W → Nat → W) :
    s.runPages c n op ops g = s.runCmd c n op 2 (fun w => if w.k.u 24 1 % 4 = 3 then w.finish else pagesDone g w) := by
  obtain ⟨⟨-, hcmd, -⟩, -, hrows, -⟩ := h
  simp only [State.runPages, hcmd, List.contains_iff_mem.mpr hops, hrows, if_true]
  rfl

/-- OP 3 does nothing. -/
theorem runPages_nothing {ops : List Nat} (hops : 3 ∈ ops) (g : W → Nat → W) (h3 : k.u 24 1 % 4 = 3) :
    LeavesAs (s.runPages c n op ops g) s c n { k with finished := true, kdone := true } := by
  rw [runPages_of_onePage h (h3 ▸ hops)]
  have hfound := cmd_of_onePage h rfl
  obtain ⟨hw, -⟩ := h
  have hnum := working_num hw
  exact runCmd_ends hw (h := .go) (if_pos h3) nofun hnum rfl hfound

section
variable {ops : List Nat} {o : Nat} (ho : k.u 24 1 % 4 = o) (hops : o ∈ ops) (h3 : o ≠ 3) {g : W → Nat → W} {z : State}
  (hfound : (z.cmd c n).isSome = true)
include ho hops h3 hfound

theorem runPages_goes {b : Nat} (hg : g (W.mk s c k .go) tpn = W.mk z c { k with bytes := b } .go) :
    LeavesAs (s.runPages c n op ops g) z c n { Claims.rowDone k with bytes := b } := by
  subst ho
  rw [runPages_of_onePage h hops]
  refine page_goes h (fun u y hy => if_neg ?_) hg hfound
  rwa [Cmd.u, hy]

/-- A page whose flash operation begins a transfer of the command's Carter queue (R133). -/
theorem runPages_begins {ps : List (Nat × List Byte)} (hg : g (W.mk s c k .go) tpn = (W.mk z c k .go).beginFlash ps) :
    LeavesAs (s.runPages c n op ops g) (begun z c k) c n (Claims.rowDone k) := by
  refine leavesAs_begun (runPages_goes h ho hops h3 (b := k.bytes) ?_ hg)
  rwa [cmd_begun_xfers]

theorem runPages_fails {code : Code} (hg : g (W.mk s c k .go) tpn = (W.mk z c k .go).fail code) :
    LeavesAs (s.runPages c n op ops g) z c n (endedBy k code) := by
  subst ho
  rw [runPages_of_onePage h hops]
  refine page_fails h (fun u y hy => if_neg ?_) hg hfound
  rwa [Cmd.u, hy]

end

end

/-! ## Allocation (R285) -/

/-- Where no allocation waits, one takes the frame that R285 chooses. -/
theorem alloc_of_free {s : State} {f : Nat} {hint : Option (Nat × Nat)} {c : Option Nat} (hwaiters : s.pool.waiters = [])
    (hframe : s.chooseFrame hint c = some f) (t : Fin 16) (tpn : Nat) (cmd : Option (Nat × Nat)) :
    s.alloc t tpn cmd hint c = (.got f, s.setFld Fd.poolFree 0 0 (s.fld Fd.poolFree - 1)) := by
  have hnone : s.leaveWait t tpn = s := by
    rw [State.leaveWait, hwaiters]
    show { s with pool := { s.pool with waiters := [] } } = s
    rw [← hwaiters]
  have hahead : s.allocAhead t tpn = 0 := by
    rw [State.allocAhead, hwaiters]
    rfl
  simp only [State.alloc, hframe, hahead, hnone, true_or, decide_true]

theorem alloc_work {s : State} {f c : Nat} {k : Cmd} {hint : Option (Nat × Nat)} (hwaiters : s.pool.waiters = [])
    (hframe : s.chooseFrame hint (some c) = some f) (t : Fin 16) (tpn : Nat) :
    (W.mk s c k .go).alloc t tpn hint = (f, W.mk (s.setFld Fd.poolFree 0 0 (s.fld Fd.poolFree - 1)) c k .go) := by
  simp only [W.alloc, W.on, alloc_of_free hwaiters hframe, decide_true, Bool.not_true, Bool.false_eq_true, if_false]

/-! ## PAGE_MAP (R284, R285) -/

section
variable {s z : State} {c : Fin 256} {n tpn : Nat} {k : Cmd} {t : Fin 16} {p : Pte}

/-- Without PIN and ENTRY nothing more is done once a page is mapped. -/
theorem mapResult_pinNamed (hpin : k.bit 25 0 = false) (hentry : k.bit 25 2 = true) (b v : Nat) :
    ((W.mk z c { k with bytes := b } .go).pinNamed t tpn).mapResult v = W.mk z c { k with bytes := b } .go := by
  have hnone : (W.mk z c { k with bytes := b } .go).pinNamed t tpn = W.mk z c { k with bytes := b } .go :=
    if_neg (ne_true_of_eq_false hpin)
  rw [hnone]
  exact if_pos hentry

variable (h : OnePage s c n k 0x0801 t tpn) (hz : (s.readPte t.val tpn).st = z) (hp : z.pte t.val tpn = p)
include h hz hp

theorem mapAlloc_resident (hpin : k.bit 25 0 = false) (hentry : k.bit 25 2 = true) (hvalid : p.valid = true) (hres : p.res = 0) :
    (W.mk s c k .go).mapAlloc tpn = W.mk z c k .go := by
  have hin : z.faultIn (some (c.val, k.num)) (some c.val) k.hint t tpn = (.ok, z) := if_pos (hp ▸ hres)
  simp only [W.mapAlloc, onPage_of_onePage h hz hp, W.pinRefused, hpin, Bool.false_and, Bool.false_eq_true, if_false, hvalid, if_true, hin, W.page,
    W.on, decide_true, Bool.not_true]
  exact mapResult_pinNamed hpin hentry k.bytes _

theorem mapAlloc_fresh (hpin : k.bit 25 0 = false) (hentry : k.bit 25 2 = true) (hinvalid : p.valid = false) (hwaiters : z.pool.waiters = [])
    {f : Nat} (hframe : z.chooseFrame k.hint (some c.val) = some f) : ∃ b, (W.mk s c k .go).mapAlloc tpn =
      W.mk (((z.setFld Fd.poolFree 0 0 (z.fld Fd.poolFree - 1)).takeFrame t tpn f (k.bit 25 1)).1.setPte t.val tpn (freshPte t f)) c
        { k with bytes := b } .go := by
  simp only [W.mapAlloc, onPage_of_onePage h hz hp, W.pinRefused, hpin, Bool.false_and, Bool.false_eq_true, if_false, hinvalid,
    alloc_work hwaiters hframe, W.on, decide_true, Bool.not_true]
  split
  · exact ⟨_, mapResult_pinNamed hpin hentry _ _⟩
  · exact ⟨_, mapResult_pinNamed hpin hentry k.bytes _⟩

theorem mapRef_valid (hpin : k.bit 25 0 = false) (hentry : k.bit 25 2 = true) (hvalid : p.valid = true) (hplain : p.shadow = false) :
    (W.mk s c k .go).mapRef tpn = W.mk (z.addRef t tpn) c k .go := by
  simp only [W.mapRef, onPage_of_onePage h hz hp, W.pinRefused, hpin, Bool.false_and, Bool.false_eq_true, if_false, hvalid, hplain, hentry, if_true,
    W.on, decide_true, Bool.not_true, Bool.or_self]
  exact mapResult_pinNamed hpin hentry k.bytes _

theorem mapRef_owner (hbad : p.valid = false ∨ p.shadow = true) : (W.mk s c k .go).mapRef tpn = (W.mk z c k .go).fail cPageOwner := by
  rw [W.mapRef, onPage_of_onePage h hz hp, if_pos (by simpa using hbad)]

theorem mapUnpin_eq (hentry : k.bit 25 2 = true) :
    (W.mk s c k .go).mapUnpin tpn = W.mk (if p.valid then z.unpinPage t tpn else z) c k .go := by
  rw [W.mapUnpin, onPage_of_onePage h hz hp]
  exact if_pos hentry

end

theorem pageMapActsOnItsPage : PageMapActsOnItsPage := by
  intro c n k t tpn s h hpin hentry
  have hread := cells_readPte s t.val tpn
  have hfound := cmd_of_onePage h hread
  refine ⟨fun ho hvalid hres => ⟨_, rfl, ?_⟩, fun ho hinvalid hwaiters f hframe => ?_,
    fun ho => ⟨_, { k with finished := true, kdone := true }, rfl, ?_, rfl, rfl⟩,
    fun ho hvalid hplain => ⟨_, rfl, ?_⟩, fun ho hbad => ⟨_, rfl, ?_⟩, fun ho => ⟨_, rfl, ?_⟩⟩
  · exact runPages_goes h ho (by decide) (by decide) hfound (mapAlloc_resident h rfl rfl hpin hentry hvalid hres)
  · obtain ⟨b, hb⟩ := mapAlloc_fresh h rfl rfl hpin hentry hinvalid hwaiters hframe
    refine ⟨_, b, rfl, runPages_goes h ho (by decide) (by decide) (cmd_of_onePage h ?_) hb⟩
    rw [cells_setPte, cells_takeFrame, State.cells_setFld, hread]
  · exact runPages_nothing h (by decide) _ ho
  · exact runPages_goes h ho (by decide) (by decide) (cmd_of_onePage h ((cells_addRef ..).trans hread))
      (mapRef_valid h rfl rfl hpin hentry hvalid hplain)
  · exact runPages_fails h ho (by decide) (by decide) hfound (mapRef_owner h rfl rfl hbad)
  · exact runPages_goes h ho (by decide) (by decide) (cmd_of_onePage h (cells_ite _ ((cells_unpinPage ..).trans hread) hread))
      (mapUnpin_eq h rfl rfl hentry)

/-! ## PAGE_FREE (R286) -/

theorem exec_pageFree {s : State} {c : Fin 256} {n tpn : Nat} {k : Cmd} {t : Fin 16} (h : OnePage s c n k 0x0803 t tpn) :
    exec (.pageFree c n) s = .next (s.runCmd c n 0x0803 2 (pagesDone W.freePage)) := by
  obtain ⟨⟨-, hcmd, -⟩, -, hrows, -⟩ := h
  change execPageFree c n s = _
  simp only [execPageFree, hcmd, hrows]
  rfl

theorem freePage_eq {s z : State} {c : Fin 256} {n tpn : Nat} {k : Cmd} {t : Fin 16} {p : Pte} (h : OnePage s c n k 0x0803 t tpn)
    (hz : (s.readPte t.val tpn).st = z) (hp : z.pte t.val tpn = p) :
    (W.mk s c k .go).freePage tpn = W.mk (if p.valid then z.unref t tpn else z.bump Fd.poolFreeNopCnt) c k .go := by
  rw [W.freePage, onPage_of_onePage h hz hp]

/-! ## TIER_MOVE (R288) -/

section
variable {s z : State} {c : Fin 256} {n op tpn : Nat} {k : Cmd} {t : Fin 16} {p : Pte} (h : OnePage s c n k op t tpn)
  (hz : (s.readPte t.val tpn).st = z) (hp : z.pte t.val tpn = p) (hvalid : p.valid = true)
include h hz hp hvalid

theorem promotePage_resident (hres : p.res = 0) : (W.mk s c k .go).promotePage tpn = W.mk z c k .go := by
  simp only [W.promotePage, onPage_of_onePage h hz hp, hvalid, hres, Bool.not_true, Bool.false_eq_true, if_false, if_true]

theorem demotePage_elsewhere (hres : p.res ≠ 0) : (W.mk s c k .go).demotePage tpn = W.mk (z.bump Fd.poolDemoteSkipCnt) c k .go := by
  simp only [W.demotePage, onPage_of_onePage h hz hp, hvalid, hres, Bool.not_true, Bool.false_eq_true, if_false, ne_eq, not_false_eq_true,
    decide_true, Bool.true_or, if_true]

section
variable (hflash : z.inReset .flash 0 = false) (hroom : z.depthRoom c k.chanq = true)
include hflash hroom

theorem promotePage_flash (hres : p.res = 1) (hkept : p.lost = false) (hwaiters : z.pool.waiters = []) {f : Nat}
    (hframe : z.chooseFrame none (some c.val) = some f) : (W.mk s c k .go).promotePage tpn =
      (W.mk (flashAsked (((z.setFld Fd.poolFree 0 0 (z.fld Fd.poolFree - 1)).setFrame f ⟨t.val, p.cow, (z.frame f).refd, tpn⟩).setPte t.val tpn
        { p with res := 2, frame := f * 65536 }) ⟨false, 0, some (c.val, k.num), t, tpn, p.frame, f, 0, none⟩) c k .go).beginFlash [] := by
  simp only [W.promotePage, onPage_of_onePage h hz hp, hvalid, hres, hkept, W.flashed, hflash, W.roomed, hroom, alloc_work hwaiters hframe, W.on,
    Bool.not_true, Bool.false_eq_true, if_false, if_true, decide_true, one_ne_zero]
  rfl

theorem demotePage_resident (hres : p.res = 0) (hpin : p.pin = false) (hplain : p.shadow = false) (hstays : p.evac = false)
    (hfree : z.flashRoom = true) :
    (W.mk s c k .go).demotePage tpn = (W.mk (z.startDemote 3 (some (c.val, k.num)) t tpn) c k .go).beginFlash [] := by
  simp only [W.demotePage, onPage_of_onePage h hz hp, hvalid, hres, hpin, hplain, hstays, hfree, W.flashed, hflash, W.roomed, hroom, Bool.not_true,
    Bool.false_eq_true, if_false, if_true, ne_eq, not_true_eq_false, decide_false, Bool.or_self]

theorem tierPage_flash (hres : p.res ≠ 0) (hkept : p.lost = false) : (W.mk s c k .go).tierPage tpn =
    (W.mk (flashAsked z ⟨false, 2, some (c.val, k.num), t, tpn, p.frame, 0, 0, none⟩) c k .go).beginFlash [(ownPlace (k.tierDst k.pos), [])] := by
  simp only [W.tierPage, onPage_of_onePage h hz hp, hvalid, hres, hkept, W.flashed, hflash, W.roomed, hroom, Bool.not_true, Bool.false_eq_true,
    if_false, if_true]
  rfl

end
end

/-! ## PAGE_COW (R287) -/

section
variable {s z : State} {c : Fin 256} {n : Nat} {k : Cmd} {t : Fin 16} {p : Pte} {f : Nat}

/-- The state in which a PAGE_COW has its frame and has asked for the copy from flash. -/
def copyAsked (z : State) (c : Fin 256) (k : Cmd) (t : Fin 16) (p : Pte) (f : Nat) : State :=
  flashAsked ((z.setFld Fd.poolFree 0 0 (z.fld Fd.poolFree - 1)).setFrame f ⟨t.val, false, (z.frame f).refd, k.u 20 4⟩)
    ⟨false, 1, some (c.val, k.num), t, k.u 16 4, p.frame, f, 0, none⟩

theorem cells_copyAsked : (copyAsked z c k t p f).cells = z.cells := by
  rw [copyAsked, flashAsked, State.cells_setFrame, State.cells_setFld]

theorem bulk_copyAsked : (copyAsked z c k t p f).bulk = z.bulk := by
  rw [copyAsked, flashAsked, State.bulk_setFrame, State.bulk_setFld]

theorem ops_copyAsked : (copyAsked z c k t p f).flash.ops =
    z.flash.ops ++ [⟨false, 1, some (c.val, k.num), t, k.u 16 4, p.frame, f, 0, none⟩] := by
  rw [copyAsked, flashAsked, State.flash_setFrame, State.flash_setFld]

theorem frame_of_copyAsked {u : State} (h : u.pool = (copyAsked z c k t p f).pool) : u.frame f = ⟨t.val, false, (z.frame f).refd, k.u 20 4⟩ := by
  rw [State.frame, h]
  exact State.frame_set_self ..

theorem cowBegin_flash (hpin : k.bit 24 0 = false) (htable : z.inTable t.val (k.u 20 4) = true)
    (hbusy : z.pageBusy c k.num t (k.u 20 4) = false) (hvalid : p.valid = true) (hres : p.res = 1) (hkept : p.lost = false)
    (hdst : (z.pte t.val (k.u 20 4)).valid = false) (hflash : z.inReset .flash 0 = false) (hwaiters : z.pool.waiters = [])
    (hframe : z.chooseFrame none (some c.val) = some f) : (W.mk z c k .go).cowBegin t p =
      W.mk (copyAsked z c k t p f) c { k with issued := 1, words := [(f : Int)] } .go := by
  simp only [W.cowBegin, htable, hbusy, hvalid, hdst, W.pinRefused, hpin, hres, hkept, hflash, alloc_work hwaiters hframe, W.on, Bool.not_true,
    Bool.false_and, Bool.false_eq_true, Bool.or_self, if_false, decide_true, one_ne_zero]
  rfl

/-- A PAGE_COW of a page in flash asks for the copy and goes on. -/
theorem cow_asks (hissued : k.issued = 0) (hpage : (W.mk s c k .go).onPage (k.u 16 4) W.cowBegin = (W.mk z c k .go).cowBegin t p)
    (hbegin : (W.mk z c k .go).cowBegin t p = W.mk (copyAsked z c k t p f) c { k with issued := 1, words := [(f : Int)] } .go) :
    (W.mk s c k .go).cow = W.mk (copyAsked z c k t p f) c { k with issued := 1, words := [(f : Int)] } .go := by
  simp only [W.cow, hissued, if_true, hpage, hbegin, one_ne_zero, if_false]

/-- What the work of a PAGE_COW gives is kept. -/
theorem pageCow_leaves {y : Cmd} (hw : Working s c n k 0x0802) (hcow : (W.mk s c k .go).cow = W.mk z c y .go) (hnum : y.num = n)
    (hz : z.cells = s.cells) : ∃ u, exec (.pageCow c n) s = .next u ∧ LeavesAs u z c n y := by
  have hcmd := cmd_of_cells hw hz
  refine ⟨_, congrArg Host.Outcome.next (work_of_working hw (List.mem_singleton_self _)), ?_⟩
  subst hnum
  rw [hcow]
  exact leavesAs_keep (w := W.mk z c y .go) nofun hcmd

/-- A PAGE_COW whose copy has come maps it and takes one reference of its source. -/
theorem cow_copied (hpin : k.bit 24 0 = false) (hentry : k.bit 24 1 = true) (htenant : k.tenant = some t) (hissued : k.issued = 1)
    (hcome : k.outcome = some [true]) (hwords : k.words = [(f : Int)]) : (W.mk s c k .go).cow =
      W.mk ((s.setPte t.val (k.u 20 4) (freshPte t f)).unref t (k.u 16 4)) c
        { k with bytes := satTo (2 ^ 48 - 1) (k.bytes + 65536), finished := true, kdone := true } .go := by
  have hend : (W.mk s c k .go).cowEnd t f = W.mk ((s.setPte t.val (k.u 20 4) (freshPte t f)).unref t (k.u 16 4)) c
      { k with bytes := satTo (2 ^ 48 - 1) (k.bytes + 65536) } .go := by
    simp only [W.cowEnd, hpin, Bool.false_eq_true, if_false]
    rw [if_pos hentry]
    rfl
  simp only [W.cow, hissued, htenant, hcome, hpin, hwords, one_ne_zero, Bool.false_eq_true, if_false, List.getD_cons_zero, Int.toNat_natCast, hend,
    reduceCtorEq, W.finish]

end

theorem pageFreeCowAndTierMoveActOnTheirPage : PageFreeCowAndTierMoveActOnTheirPage := by
  intro c n k t tpn s
  have hread := cells_readPte s t.val tpn
  refine ⟨fun h => ?free, fun hw htenant hsrc hpin => ?cow, fun h hvalid => ?tier⟩
  case free =>
    exact ⟨_, exec_pageFree h, page_goes h (fun _ _ _ => rfl) (freePage_eq h rfl rfl)
      (cmd_of_onePage h (cells_ite _ ((cells_unref ..).trans hread) ((State.cells_bump ..).trans hread)))⟩
  case cow =>
    have hnum := working_num hw
    subst hnum hsrc
    constructor
    · intro hissued htable hbusy hfault hwarn hwait hdtable hdbusy hvalid hres hkept hdst hflash hwaiters f hframe
      have hcow := cow_asks hissued (onPage_through htenant htable hbusy hfault hwarn hwait rfl rfl _)
        (cowBegin_flash hpin hdtable hdbusy hvalid hres hkept hdst hflash hwaiters hframe)
      have hunread := unread_readPte s t.val (k.u 16 4)
      have hbulk : (s.readPte t.val (k.u 16 4)).st.bulk = s.bulk := congrArg (·.2.1) hunread
      have hflash : (s.readPte t.val (k.u 16 4)).st.flash = s.flash := congrArg (·.2.2) hunread
      obtain ⟨u, hu, hcmd, -, hubulk, -, -, -, hupool, huflash, -⟩ := pageCow_leaves hw hcow rfl (cells_copyAsked.trans (cells_readPte ..))
      refine ⟨u, hu, ?_, hcmd, frame_of_copyAsked hupool, ?_⟩
      · rw [hubulk, bulk_copyAsked, hbulk]
      · rw [huflash, ops_copyAsked, hflash]
    · intro f hissued hcome hwords hentry
      exact pageCow_leaves hw (cow_copied hpin hentry htenant hissued hcome hwords) rfl ((cells_unref ..).trans (cells_setPte ..))
  case tier =>
    have hfound := cmd_of_onePage h hread
    have hnum := working_num h.1
    subst hnum
    refine ⟨fun ho hres => ⟨_, rfl, ?_⟩, fun ho hres hkept hflash hroom hwaiters f hframe => ⟨_, rfl, ?_⟩, fun ho hres => ⟨_, rfl, ?_⟩,
      fun ho hres hpin hplain hstays hfree hflash hroom => ⟨_, rfl, ?_⟩, fun ho hres hkept hflash hroom => ⟨_, rfl, ?_⟩⟩
    · exact runPages_goes h ho (by decide) (by decide) hfound (promotePage_resident h rfl rfl hvalid hres)
    · refine runPages_begins h ho (by decide) (by decide) (cmd_of_onePage h ?_)
        (promotePage_flash h rfl rfl hvalid hflash hroom hres hkept hwaiters hframe)
      exact (cells_setPte ..).trans hread
    · exact runPages_goes (ops := [1]) h ho (by decide) (by decide)
        (cmd_of_onePage h ((State.cells_bump ..).trans hread)) (demotePage_elsewhere h rfl rfl hvalid hres)
    · exact runPages_begins (ops := [1]) h ho (by decide) (by decide) (cmd_of_onePage h ((cells_startDemote ..).trans hread))
        (demotePage_resident h rfl rfl hvalid hflash hroom hres hpin hplain hstays hfree)
    · exact runPages_begins (ops := [2]) h ho (by decide) (by decide) hfound (tierPage_flash h rfl rfl hvalid hflash hroom hres hkept)

/-- Settles O52: every page command does its one page, and the commands' work is kept with it. -/
theorem pageCommandsActOnTheirPage : Obligations.PageCommandsActOnTheirPage := by
  unfold Obligations.PageCommandsActOnTheirPage
  exact ⟨pageMapActsOnItsPage, pageFreeCowAndTierMoveActOnTheirPage⟩

end Sys2Proof.Proofs
end

section
/-! PROOFS. What the Scecy ports keep while flits are sent, replayed and counted (R309 to R314): the state of receiving, and every register but
the counts of a port's traffic. -/

namespace Sys2Proof.Proofs

open Sys2Proof Sys2Proof.Machine Sys2Proof.Claims

/-! ## Credits that are owed (R314) -/

/-- Of the state only the ports and the record of what was sent have changed, and of the ports only the credits that they owe. -/
structure OnlyOwes (s t : State) : Prop where
  frame : t = { s with fab := { s.fab with ports := t.fab.ports }, out := t.out }
  ports : ∀ q, t.port q = { s.port q with owed := (t.port q).owed }

section
variable {s t u : State}

theorem OnlyOwes.refl (s : State) : OnlyOwes s s := ⟨rfl, fun _ => rfl⟩

theorem OnlyOwes.trans (h : OnlyOwes s t) (h' : OnlyOwes t u) : OnlyOwes s u :=
  ⟨by rw [h'.frame, h.frame], fun q => by rw [h'.ports q, h.ports q]⟩

theorem OnlyOwes.transit (h : OnlyOwes s t) : t.fab.transit = s.fab.transit := by rw [h.frame]
theorem OnlyOwes.nextId (h : OnlyOwes s t) : t.fab.nextId = s.fab.nextId := by rw [h.frame]
theorem OnlyOwes.arrived (h : OnlyOwes s t) : t.fab.arrived = s.fab.arrived := by rw [h.frame]
theorem OnlyOwes.outstanding (h : OnlyOwes s t) : t.fab.outstanding = s.fab.outstanding := by rw [h.frame]
theorem OnlyOwes.weav (h : OnlyOwes s t) : t.weav = s.weav := by rw [h.frame]
theorem OnlyOwes.reg (h : OnlyOwes s t) (o : Nat) : t.reg o = s.reg o := by rw [h.frame]; rfl

theorem OnlyOwes.fld (h : OnlyOwes s t) (f : Field) (b i : Nat) : t.fld f b i = s.fld f b i := fld_congr (h.reg _)

theorem OnlyOwes.ite {p : Prop} [Decidable p] (ht : OnlyOwes s t) (hu : OnlyOwes s u) : OnlyOwes s (if p then t else u) := by
  split <;> assumption

theorem OnlyOwes.foldl {α : Type} {f : State → α → State} (h : ∀ z a, OnlyOwes z (f z a)) (l : List α) (s : State) : OnlyOwes s (l.foldl f s) := by
  induction l generalizing s with
  | nil => exact .refl s
  | cons a l ih => exact (h s a).trans (ih _)

end

theorem port_setPort (s : State) (p q : Nat) (x : PortSt) : (s.setPort p x).port q = if q = p then x else s.port q := by
  split
  case isTrue h => rw [h, State.port_set_self]
  case isFalse h => exact State.port_set_other s x h

theorem port_bump (s : State) (f : Field) (b i n q : Nat) : (s.bump f b i n).port q = s.port q := by rw [State.port, State.fab_bump]; rfl

theorem onlyOwes_setPort (s : State) (p : Nat) (o : Tab Nat) : OnlyOwes s (s.setPort p { s.port p with owed := o }) := by
  refine ⟨rfl, fun q => ?_⟩
  rw [port_setPort]
  split
  case isTrue h => rw [h]
  case isFalse => rfl

theorem onlyOwes_send (s : State) (o : Out) : OnlyOwes s (s.send o) := ⟨rfl, fun _ => rfl⟩

theorem onlyOwes_owe (s : State) (port : Option Nat) (pool n : Nat) : OnlyOwes s (s.owe port pool n) := by
  unfold State.owe
  split
  · exact .ite (onlyOwes_setPort ..) (.refl s)
  · exact .refl s

/-- An idle flit returns credits, and is not counted (R310, R328). -/
theorem onlyOwes_sendIdle (s : State) (p vc : Nat) : OnlyOwes s (s.sendIdle p vc) :=
  .ite ((onlyOwes_setPort s p _).trans (onlyOwes_send ..)) (.refl s)

theorem onlyOwes_sendOwed (s : State) (p : Nat) : OnlyOwes s (s.sendOwed p) := .ite (onlyOwes_sendIdle s p 0) (.refl s)

/-- A port on which nothing waits has only credits to send. -/
theorem pumpPool_of_idle {s : State} {p : Nat} (h : (s.port p).waiting = []) (pool fuel : Nat) : s.pumpPool p pool fuel = s := by
  cases fuel <;> simp [State.pumpPool, PortSt.placedAt, h, Tab.get]

theorem pump_of_idle {s : State} {p : Nat} (h : (s.port p).waiting = []) :
    s.pump p = if s.healthy p then (List.range 24).foldl (fun z q => z.sendOwed q) s else s := by
  have hpools : ∀ l : List Nat, l.foldl (fun z k => z.pumpPool p k 512) s = s := by
    intro l
    induction l with
    | nil => rfl
    | cons k l ih => rw [List.foldl_cons, pumpPool_of_idle h, ih]
  rw [State.pump, hpools]

theorem onlyOwes_pump_of_idle {s : State} {p : Nat} (h : (s.port p).waiting = []) : OnlyOwes s (s.pump p) := by
  rw [pump_of_idle h]
  exact .ite (.foldl onlyOwes_sendOwed _ _) (.refl s)

/-! ## Sending and counting (R309, R312) -/

/-- The registers that count what passes a port besides what it accepts and what it discards: codewords, flits sent and flits replayed. -/
def trafficCounts : List Field := [Fd.scecyFecCeCnt, Fd.scecyFecUeCnt, Fd.scecyReplayCnt, Fd.scecyTxFlits]

/-- The SEQ accepted last on each channel of each port stays, a retrain runs or does not as before, and every register but the counts of the
ports' traffic reads as before. -/
structure KeepsReceiving (s t : State) : Prop where
  regs : ∀ o, (∀ f ∈ trafficCounts, ∀ q, o ≠ f.reg q 0) → t.reg o = s.reg o
  lastSeq : ∀ q, (t.port q).lastSeq = (s.port q).lastSeq
  retraining : ∀ q, (t.port q).retraining = (s.port q).retraining

section
variable {s t u : State}

theorem KeepsReceiving.refl (s : State) : KeepsReceiving s s := ⟨fun _ _ => rfl, fun _ => rfl, fun _ => rfl⟩

theorem KeepsReceiving.trans (h : KeepsReceiving s t) (h' : KeepsReceiving t u) : KeepsReceiving s u :=
  ⟨fun o ho => (h'.regs o ho).trans (h.regs o ho), fun q => (h'.lastSeq q).trans (h.lastSeq q),
    fun q => (h'.retraining q).trans (h.retraining q)⟩

theorem KeepsReceiving.ite {p : Prop} [Decidable p] (ht : KeepsReceiving s t) (hu : KeepsReceiving s u) :
    KeepsReceiving s (if p then t else u) := by
  split <;> assumption

theorem KeepsReceiving.foldl {α : Type} {f : State → α → State} (h : ∀ z a, KeepsReceiving z (f z a)) (l : List α) (s : State) :
    KeepsReceiving s (l.foldl f s) := by
  induction l generalizing s with
  | nil => exact .refl s
  | cons a l ih => exact (h s a).trans (ih _)

theorem KeepsReceiving.of_same (hregs : t.regs = s.regs) (hports : t.fab.ports = s.fab.ports) : KeepsReceiving s t := by
  have hport (q : Nat) : t.port q = s.port q := by rw [State.port, State.port, hports]
  exact ⟨fun o _ => by rw [State.reg, State.reg, hregs], fun q => by rw [hport], fun q => by rw [hport]⟩

theorem OnlyOwes.keepsReceiving (h : OnlyOwes s t) : KeepsReceiving s t :=
  ⟨fun o _ => h.reg o, fun q => by rw [h.ports q], fun q => by rw [h.ports q]⟩

/-- Which fields keep their value: those whose registers do not lie where one of the counts does. -/
theorem KeepsReceiving.fld (h : KeepsReceiving s t) {f : Field} {b i : Nat} (hf : f.reg b i % 0x10000 ∉ trafficCounts.map (fun g => g.base)) :
    t.fld f b i = s.fld f b i := by
  refine fld_congr (h.regs _ fun g hg q heq => hf (List.mem_map.mpr ⟨g, hg, ?_⟩))
  have hbase : ∀ g ∈ trafficCounts, ∀ q, g.reg q 0 % 0x10000 = g.base := by
    simp only [trafficCounts, List.forall_mem_cons, List.not_mem_nil, false_imp_iff, implies_true, and_true, Field.reg, Fd.scecyFecCeCnt,
      Fd.scecyFecUeCnt, Fd.scecyReplayCnt, Fd.scecyTxFlits, Blk.base]
    refine ⟨fun q => ?_, fun q => ?_, fun q => ?_, fun q => ?_⟩ <;> omega
  rw [heq, hbase g hg q]

end

theorem keepsReceiving_setPort (s : State) (p : Nat) {x : PortSt} (hseq : x.lastSeq = (s.port p).lastSeq)
    (hretraining : x.retraining = (s.port p).retraining) : KeepsReceiving s (s.setPort p x) := by
  refine ⟨fun _ _ => rfl, fun q => ?_, fun q => ?_⟩
  all_goals
    rw [port_setPort]
    split
    case isTrue h => rw [h]; assumption
    case isFalse => rfl

theorem keepsReceiving_bump (s : State) {f : Field} (hf : f ∈ trafficCounts) (p n : Nat) : KeepsReceiving s (s.bump f p 0 n) :=
  ⟨fun _ ho => State.reg_set_other _ _ (ho f hf p), fun _ => by rw [port_bump], fun _ => by rw [port_bump]⟩

theorem keepsReceiving_emitFlit (s : State) (p vc : Nat) (f : Flit) : KeepsReceiving s (s.emitFlit p vc f) := by
  refine KeepsReceiving.trans (.ite ?_ (KeepsReceiving.trans ?_ (keepsReceiving_bump _ (f := Fd.scecyTxFlits) (by decide) p 1)))
    (onlyOwes_send ..).keepsReceiving
  all_goals exact keepsReceiving_setPort s p rfl rfl

theorem keepsReceiving_owe (s : State) (port : Option Nat) (pool n : Nat) : KeepsReceiving s (s.owe port pool n) :=
  (onlyOwes_owe ..).keepsReceiving

/-- Flits that leave a pool of a port. -/
theorem keepsReceiving_pumpPool (s : State) (p pool fuel : Nat) : KeepsReceiving s (s.pumpPool p pool fuel) := by
  induction fuel generalizing s with
  | zero => exact .refl s
  | succ fuel ih =>
    rw [State.pumpPool]
    split
    next => exact .refl s
    next id rest _ =>
      split
      next =>
        refine KeepsReceiving.trans ?_ (ih _)
        exact keepsReceiving_setPort s p rfl rfl
      next t _ =>
        split
        next => exact .refl s
        next b bs _ =>
          refine .ite (.refl s) ?_
          refine KeepsReceiving.trans (KeepsReceiving.trans ?_ (keepsReceiving_owe ..)) (ih _)
          refine KeepsReceiving.trans ?_ (keepsReceiving_emitFlit ..)
          by_cases hends : 3 ≤ b.1
          · simp only [hends, decide_true, if_true]
            exact KeepsReceiving.trans (t := s.dropPacket id) (.of_same rfl rfl) (keepsReceiving_setPort _ p rfl rfl)
          · simp only [hends, decide_false, Bool.false_eq_true, if_false]
            exact KeepsReceiving.trans (t := s.putPacket { t with bodies := bs, moved := true }) (.of_same rfl rfl)
              (keepsReceiving_setPort _ p rfl rfl)

theorem keepsReceiving_pump (s : State) (p : Nat) : KeepsReceiving s (s.pump p) :=
  .ite ((KeepsReceiving.foldl (fun z k => keepsReceiving_pumpPool z p k 512) _ s).trans
    (.foldl (fun z q => (onlyOwes_sendOwed z q).keepsReceiving) _ _)) (.refl s)

theorem keepsReceiving_replayFrom (s : State) (p vc skip : Nat) : KeepsReceiving s (s.replayFrom p vc skip) := by
  refine KeepsReceiving.trans (KeepsReceiving.trans ?_ (keepsReceiving_bump _ (f := Fd.scecyReplayCnt) (by decide) p _))
    (.foldl (fun z f => keepsReceiving_emitFlit z p vc f) _ _)
  exact keepsReceiving_setPort s p rfl rfl

theorem keepsReceiving_countFec (s : State) (p corrected uncorrectable : Nat) : KeepsReceiving s (s.countFec p corrected uncorrectable) := by
  have hcounts := (keepsReceiving_bump s (f := Fd.scecyFecCeCnt) (by decide) p corrected).trans
    (keepsReceiving_bump _ (f := Fd.scecyFecUeCnt) (by decide) p uncorrectable)
  exact .ite hcounts (hcounts.trans (keepsReceiving_setPort _ p rfl rfl))

end Sys2Proof.Proofs
end

section
/-! PROOFS. Packets in a module's router, remote accesses, their responses and CONTROL packets (R315 to R322, R333, R382, R429). -/

namespace Sys2Proof.Proofs

open Sys2Proof Sys2Proof.Machine Sys2Proof.Claims

/-! ## A packet without a port (R315, R317, R320) -/

/-- A packet in the router that is not placed, not for this module so far, and not dropped. -/
structure Unplaced (s : State) (i : Nat) (x : Transit) : Prop where
  at_ : s.fab.transit[i]? = some x
  out : x.out = none
  here : x.here = false
  drop : x.drop = false

theorem dropPacket_owe (s : State) (port : Option Nat) (pool n id : Nat) :
    (s.owe port pool n).dropPacket id = (s.dropPacket id).owe port pool n := by
  unfold State.owe
  split
  · split <;> rfl
  · rfl

/-- The credits that go back to the port that a packet came from, if it came from one. -/
theorem onlyOwes_sendOwedTo (s : State) (port : Option Nat) : OnlyOwes s (port.elim s (fun q => s.sendOwed q)) := by
  cases port with
  | none => exact .refl s
  | some q => exact onlyOwes_sendOwed s q

/-- Dropping a packet that is whole takes it out of the router and returns the credits of its buffers. -/
theorem onlyOwes_dropTransit (s : State) {t : Transit} (hwhole : t.whole = true) : OnlyOwes (s.dropPacket t.id) (s.dropTransit t) := by
  have howe : OnlyOwes (s.dropPacket t.id) ((s.owe t.port t.pool t.bodies.length).dropPacket t.id) := by
    rw [dropPacket_owe]; exact onlyOwes_owe ..
  rw [State.dropTransit, if_pos hwhole]
  split
  · exact howe.trans (onlyOwes_sendOwed ..)
  · exact howe

section
variable {s : State} {i : Nat} {x : Transit} (h : Unplaced s i x)
include h

theorem routePacket_eq (expired : Bool) : s.routePacket i expired =
    if 8 ≤ x.pkt.op then (s.dropTransit x).bump Fd.fabAgeDropCnt
    else if x.pkt.dst = s.moduleId then
      let u := { x with here := true, got := x.bodies.map Prod.snd, bodies := [] }
      let s1 := s.owe x.port x.pool x.bodies.length
      let s2 := if x.whole then s1.deliver u else s1.putPacket u
      x.port.elim s2 (fun q => s2.sendOwed q)
    else if x.port.isSome && decide (255 ≤ x.pkt.hops) then (s.dropTransit x).bump Fd.fabAgeDropCnt
    else
      let e := x.entry.getD (s.routeEntry x.pkt.dst)
      x.via.elim ((s.putPacket { x with entry := some e }).routeBy { x with entry := some e } e.toNat expired)
        (fun q => if s.healthy q then s.putOn x q x.vc 0 else s.noRoute x) := by
  simp only [State.routePacket, h.at_, h.out, h.here, h.drop, Option.isSome_none, Bool.or_self, Bool.false_eq_true, if_false]
  cases x.via <;> cases x.port <;> rfl

/-- R315: a packet of a reserved OP is dropped and counts in AGE_DROP_CNT. -/
theorem routePacket_reserved (hwhole : x.whole = true) (hop : 8 ≤ x.pkt.op) (expired : Bool) :
    let t := s.routePacket i expired
    t.fab.transit = s.fab.transit.filter (fun y => decide (y.id ≠ x.id)) ∧ t.fab.arrived = s.fab.arrived ∧
      t.fld Fd.fabAgeDropCnt = min (2 ^ Fd.fabAgeDropCnt.w - 1) (s.fld Fd.fabAgeDropCnt + 1) := by
  intro t
  have ht : t = (s.dropTransit x).bump Fd.fabAgeDropCnt := (routePacket_eq h expired).trans (if_pos hop)
  have hdrop := onlyOwes_dropTransit s hwhole
  rw [ht, fld_bump_self _ (by decide) (by decide), hdrop.fld]
  exact ⟨hdrop.transit, hdrop.arrived, rfl⟩

/-- R317: a read, a write or a response for this module arrives. -/
theorem routePacket_arrives (hwhole : x.whole = true) (hop : x.pkt.op < 8) (hkind : (Packet.ofBytes (x.bodies.map Prod.snd).flatten).op < 4)
    (hdst : x.pkt.dst = s.moduleId) (expired : Bool) :
    let t := s.routePacket i expired
    t.fab.transit = s.fab.transit.filter (fun y => decide (y.id ≠ x.id)) ∧
      t.fab.arrived = s.fab.arrived ++ [Packet.ofBytes (x.bodies.map Prod.snd).flatten] := by
  intro t
  have howe := onlyOwes_owe s x.port x.pool x.bodies.length
  let z := (s.owe x.port x.pool x.bodies.length).dropPacket x.id
  let q := Packet.ofBytes (x.bodies.map Prod.snd).flatten
  have ht : OnlyOwes { z with fab := { z.fab with arrived := z.fab.arrived ++ [q] } } t := by
    show OnlyOwes _ (s.routePacket i expired)
    rw [routePacket_eq h, if_neg (by omega), if_pos hdst]
    simp only [hwhole, if_true, State.deliver, if_pos hkind]
    exact onlyOwes_sendOwedTo _ x.port
  exact ⟨ht.transit.trans (congrArg (List.filter _) howe.transit), ht.arrived.trans (congrArg (· ++ [q]) howe.arrived)⟩

/-- R317, R319: a packet for another module moves on by its entry, which it reads once. -/
theorem routePacket_entry (hop : x.pkt.op < 8) (hdst : x.pkt.dst ≠ s.moduleId) (hhops : x.pkt.hops < 255) (hvia : x.via = none) (expired : Bool) :
    let e := x.entry.getD (s.routeEntry x.pkt.dst)
    s.routePacket i expired = (s.putPacket { x with entry := some e }).routeBy { x with entry := some e } e.toNat expired := by
  have hage : ¬ (x.port.isSome && decide (255 ≤ x.pkt.hops)) = true := by simp; omega
  rw [routePacket_eq h, if_neg (by omega), if_neg hdst, if_neg hage, hvia]
  rfl

end

/-- R320: the failure of a packet that no access and no `Inst` waits for ends nothing. -/
theorem unreachable_of_none {s : State} (hacc : s.fab.outstanding = []) (hinsts : s.weav.insts = []) (t : Transit) : s.unreachable t = s := by
  unfold State.unreachable
  split
  · simp [State.byTag, hacc]
  · split
    · simp [State.instAt, hinsts]
    · rfl

/-- R320: a packet that has no usable port is dropped and counts in NOROUTE_CNT. -/
theorem noRoute_drops {s : State} {t : Transit} (hwhole : t.whole = true) (hacc : s.fab.outstanding = []) (hinsts : s.weav.insts = []) :
    (s.noRoute t).fab.transit = s.fab.transit.filter (fun y => decide (y.id ≠ t.id)) ∧
      (s.noRoute t).fld Fd.fabNorouteCnt = min (2 ^ Fd.fabNorouteCnt.w - 1) (s.fld Fd.fabNorouteCnt + 1) := by
  have hdrop := onlyOwes_dropTransit s hwhole
  have heq : s.noRoute t = (s.dropTransit t).bump Fd.fabNorouteCnt := by
    have hnone := unreachable_of_none (s := (s.dropTransit t).bump Fd.fabNorouteCnt) (hdrop.outstanding.trans hacc)
      ((congrArg WeavSt.insts hdrop.weav).trans hinsts) t
    simp only [State.noRoute, hnone, ite_self]
  rw [heq, fld_bump_self _ (by decide) (by decide), hdrop.fld]
  exact ⟨hdrop.transit, rfl⟩

/-- Noting the entry of a packet leaves the others in the router. -/
theorem filter_putPacket (s : State) (t : Transit) :
    (s.putPacket t).fab.transit.filter (fun y => decide (y.id ≠ t.id)) = s.fab.transit.filter (fun y => decide (y.id ≠ t.id)) := by
  show (s.fab.transit.map _).filter _ = _
  induction s.fab.transit with
  | nil => rfl
  | cons y ys ih =>
    rw [List.map_cons, List.filter_cons, List.filter_cons, ih]
    by_cases hy : y.id = t.id <;> simp [hy]

theorem packetsArriveOrAreDropped : PacketsArriveOrAreDropped := by
  intro i x s hat hwhole hout hhere hdrop hvia others q
  have h : Unplaced s i x := ⟨hat, hout, hhere, hdrop⟩
  refine ⟨fun hop => ?_, fun hop hkind hdst => ?_, fun hop hdst hhops hacc hinsts hinvalid => ?_⟩
  · obtain ⟨ht, -, hcnt⟩ := routePacket_reserved h hwhole hop true
    exact ⟨⟨_, rfl, routePacket_reserved h hwhole hop false⟩, _, rfl, ht, hcnt⟩
  · exact ⟨⟨_, rfl, routePacket_arrives h hwhole hop hkind hdst false⟩, _, rfl, routePacket_arrives h hwhole hop hkind hdst true⟩
  · have hroute (expired : Bool) : (s.routePacket i expired).fab.transit = others ∧
        (s.routePacket i expired).fld Fd.fabNorouteCnt = min (2 ^ Fd.fabNorouteCnt.w - 1) (s.fld Fd.fabNorouteCnt + 1) := by
      have hbit : ¬ (x.entry.getD (s.routeEntry x.pkt.dst)).toNat.testBit 63 = true := by
        rw [BitVec.testBit_toNat, hinvalid]; decide
      rw [routePacket_entry h hop hdst hhops hvia, State.routeBy, if_pos (by simpa using hbit)]
      obtain ⟨htransit, hcnt⟩ := noRoute_drops
        (s := s.putPacket { x with entry := some (x.entry.getD (s.routeEntry x.pkt.dst)) })
        (t := { x with entry := some (x.entry.getD (s.routeEntry x.pkt.dst)) })
        hwhole hacc hinsts
      exact ⟨htransit.trans (filter_putPacket ..), hcnt⟩
    exact ⟨⟨_, rfl, hroute false⟩, _, rfl, hroute true⟩

/-! ## The adaptive channels and the escape channel (R318) -/

section
variable {z : State} {x : Transit} {e : Nat} (hvalid : e.testBit 63 = true) (hvc : x.vc = 0 ∨ x.vc = 2) (hesc : x.esc = false)
include hvalid hvc hesc

theorem routeBy_adaptive (expired : Bool) : let ports := z.healthyOf ((List.range 24).filter (fun p => e.testBit p))
    z.routeBy x e expired = (z.mostCredits (2 * x.vc) ports).elim
      (if expired || ports.isEmpty then (z.putPacket { x with esc := true }).routeOrdered { x with esc := true } e 3 false else z)
      (fun p => z.putOn x p x.vc 0) := by
  intro ports
  have hordered : ¬(x.vc = 1 ∨ x.vc = 3) := by omega
  unfold State.routeBy
  rw [hvalid, if_neg (by decide), if_neg hordered, hesc]
  change _ = (z.mostCredits (2 * x.vc) (z.healthyOf ((List.range 24).filter (fun p => e.testBit p)))).elim _ _
  dsimp only
  cases z.mostCredits (2 * x.vc) (z.healthyOf ((List.range 24).filter (fun p => e.testBit p))) <;> rfl

end

theorem packetsTakeAPortOrEscape : PacketsTakeAPortOrEscape := by
  intro i x e s hat hop hdst hhops hout hhere hdrop hvia hesc hentry hvalid hvc z ports
  have hbit : e.toNat.testBit 63 = true := by rw [BitVec.testBit_toNat, hvalid]
  have hread : ({ x with entry := some e } : Transit) = x := hentry ▸ rfl
  have hroute (expired : Bool) : s.routePacket i expired = z.routeBy x e.toNat expired := by
    rw [routePacket_entry ⟨hat, hout, hhere, hdrop⟩ hop hdst hhops hvia, hentry, Option.getD_some, hread]
  simp only [routeBy_adaptive hbit hvc hesc] at hroute
  refine ⟨fun p hmost => ?_, fun hnone hsome => ⟨?_, ?_⟩⟩
  · exact congrArg Host.Outcome.next ((hroute false).trans (by rw [hmost]; rfl))
  · exact congrArg Host.Outcome.next ((hroute false).trans (by rw [hnone]; exact if_neg (by simpa using hsome)))
  · exact congrArg Host.Outcome.next ((hroute true).trans (by rw [hnone]; rfl))

/-! ## Remote accesses (R316, R322) -/

theorem takeArrived_eq {s : State} {i : Nat} {p : Packet} (hat : s.fab.arrived[i]? = some p) {op : Nat} (hop : p.op = op)
    (f : State → Packet → State) : s.takeArrived i op f = f { s with fab := { s.fab with arrived := s.fab.arrived.eraseIdx i } } p := by
  simp only [State.takeArrived, hat, hop, ne_eq, not_true_eq_false, if_false]

/-- A read that comes to its end delivers to the transfer that waits for it (R144, R316). -/
theorem endRemote_fetch {s : State} {a : RemAcc} {c n u q : Nat} (hkind : a.kind = .fetch c n u q)
    (hwaits : ∃ y ∈ (s.cell c).xfers, y.num = n ∧ y.unit = u) (bs : Option (List Byte)) (len : Nat) (fault : Option Code) :
    s.endRemote a bs len fault =
      ({ s with fab := { s.fab with outstanding := s.fab.outstanding.erase a } }).onXfer c n u (fun x => x.answered q (bs.getD []) fault) := by
  have hany : (s.cell c).xfers.any (fun x => decide (x.num = n) && decide (x.unit = u)) = true := by
    obtain ⟨y, hy, hnum, hunit⟩ := hwaits
    exact List.any_eq_true.mpr ⟨y, hy, by simp [hnum, hunit]⟩
  simp only [State.endRemote, hkind]
  exact if_pos hany

theorem xfers_onXfer (s : State) (c n u : Nat) (f : Xfer → Xfer) :
    ((s.onXfer c n u f).cell c).xfers = (s.cell c).xfers.map (fun y => if y.num = n ∧ y.unit = u then f y else y) := by
  rw [State.onXfer, State.cell_on_self]

theorem cmd_onXfer (s : State) (c n u : Nat) (f : Xfer → Xfer) : (s.onXfer c n u f).cmd c n = s.cmd c n := by
  rw [State.cmd, State.onXfer, State.cell_on_self]; rfl

theorem num_report (k : Cmd) (f : Code) : (k.report f).num = k.num := by unfold Cmd.report; split <;> rfl

/-- A write that comes to its end leaves its command, and a refusal is reported to it (R144, R316). -/
theorem endRemote_store {s : State} {a : RemAcc} {c n u q : Nat} (hkind : a.kind = .store c n u q) (bs : Option (List Byte)) (len : Nat)
    (fault : Option Code) : let t := s.endRemote a bs len fault
    t.fab.outstanding = s.fab.outstanding.erase a ∧ (∀ k, fault = none → s.cmd c n = some k → t.cmd c n = some k) ∧
      ∀ k f, fault = some f → s.cmd c n = some k → t.cmd c n = some (k.report f) := by
  intro t
  cases fault with
  | none =>
    have ht : t = { s with fab := { s.fab with outstanding := s.fab.outstanding.erase a } } := by
      show s.endRemote a bs len none = _
      simp only [State.endRemote, hkind]
    rw [ht]
    exact ⟨rfl, fun k _ hk => hk, fun k f hf => by cases hf⟩
  | some f =>
    let z := ({ s with fab := { s.fab with outstanding := s.fab.outstanding.erase a } } : State).onXfer c n u
      (fun x => x.setPiece q ((x.pieces.getD q (0, [])).2.take len))
    have ht : t = match z.cmd c n with
        | some k => z.putCmd c (k.report f)
        | none => z := by
      show s.endRemote a bs len (some f) = _
      simp only [State.endRemote, hkind]
      rfl
    have hcmd : z.cmd c n = s.cmd c n := cmd_onXfer ..
    rw [ht, hcmd]
    refine ⟨by split <;> rfl, fun k hf => (by cases hf), fun k g hg hk => ?_⟩
    obtain rfl := Option.some.inj hg
    have hnum : (k.report f).num = n := (num_report k f).trans (by simpa using List.find?_some hk)
    rw [hk]
    subst hnum
    exact cmd_putCmd_self (hcmd.trans hk)

theorem serve_of_done (s : State) {g : Got} (hwait : g.wait = false) (p : Packet) (op : Nat) (data : List Byte) :
    s.serve g p op data = g.st.answer p op g.bytes.length data g.fault := by
  rw [State.serve, hwait, if_neg (by decide)]

section
variable {s : State} {i : Nat} {p : Packet} (hat : s.fab.arrived[i]? = some p)
include hat

/-- The state once a packet that was delivered here is taken. -/
def withoutArrived (s : State) (i : Nat) : State := { s with fab := { s.fab with arrived := s.fab.arrived.eraseIdx i } }

theorem readResp_eq (hop : p.op = 2) : exec (.readResp i) s = .next ((s.byTag p.tag).elim (withoutArrived s i) (fun a => match a.kind with
    | .fetch _ _ _ _ => (withoutArrived s i).endRemote a (some p.data) p.len p.fault
    | .store _ _ _ _ => withoutArrived s i)) := by
  refine congrArg Host.Outcome.next ((takeArrived_eq hat hop _).trans ?_)
  show (match s.byTag p.tag with
    | some a => _
    | none => _) = _
  cases s.byTag p.tag <;> rfl

theorem writeAck_eq (hop : p.op = 3) : exec (.writeAck i) s = .next ((s.byTag p.tag).elim (withoutArrived s i) (fun a => match a.kind with
    | .store _ _ _ _ => (withoutArrived s i).endRemote a none p.len p.fault
    | .fetch _ _ _ _ => withoutArrived s i)) := by
  refine congrArg Host.Outcome.next ((takeArrived_eq hat hop _).trans ?_)
  show (match s.byTag p.tag with
    | some a => _
    | none => _) = _
  cases s.byTag p.tag <;> rfl

end

theorem requestsAreServedAndAnswered : RequestsAreServedAndAnswered := by
  intro i p s hat z
  refine ⟨fun hop => ?_, fun hop => ?_, fun hop => ⟨fun hnone => ?_, fun a c n u q hsome hkind hwaits => ?_⟩,
    fun hop => ⟨fun hnone => ?_, fun a c n u q hsome hkind => ?_⟩⟩
  · intro g r hwait
    have hread : exec (.readReq i) s = .next (s.serve g p 2 g.bytes) := congrArg Host.Outcome.next (takeArrived_eq hat hop _)
    rw [serve_of_done s hwait] at hread
    exact ⟨_, _, hread, rfl, rfl, rfl, rfl, rfl, rfl, rfl, rfl, rfl⟩
  · intro g r hwait
    have hwrite : exec (.write i) s = .next (s.serve g p 3 []) := congrArg Host.Outcome.next (takeArrived_eq hat hop _)
    rw [serve_of_done s hwait] at hwrite
    exact ⟨_, _, hwrite, rfl, rfl, rfl, rfl, rfl, rfl, rfl, rfl, rfl⟩
  · exact readResp_eq hat hop |>.trans (by rw [hnone]; rfl)
  · refine ⟨_, readResp_eq hat hop, ?_⟩
    rw [hsome]
    show _ ∧ _
    simp only [Option.elim_some, hkind]
    rw [endRemote_fetch (s := withoutArrived s i) hkind hwaits]
    exact ⟨rfl, xfers_onXfer ..⟩
  · exact writeAck_eq hat hop |>.trans (by rw [hnone]; rfl)
  · refine ⟨_, writeAck_eq hat hop, ?_⟩
    rw [hsome]
    simp only [Option.elim_some, hkind]
    exact endRemote_store (s := z) hkind none p.len p.fault

theorem accessesTimeOut : AccessesTimeOut := by
  intro tag s
  refine ⟨fun hnone => ?_, fun a c n u q hsome hkind hwaits => ?_⟩
  · show execRespTimeout tag s = _
    rw [execRespTimeout, hnone]
  · have hexec : exec (.respTimeout tag) s = .next ((s.endRemote a none 0 (some cLinkDown)).bump Fd.fabTimeoutCnt) := by
      show execRespTimeout tag s = _
      rw [execRespTimeout, hsome]
    refine ⟨_, hexec, ?_⟩
    rw [fld_bump_self _ (by decide) (by decide), endRemote_fetch hkind hwaits]
    exact ⟨rfl, rfl, xfers_onXfer ..⟩

/-! ## `Inst`s that end (R333) -/

/-- The state once an `Inst`, the only one, has left its channel. -/
def channelLeft (s : State) (x : Inst) : State :=
  let z : State := { s with weav := { s.weav with insts := [] } }
  let idx := 16 * x.t.val + x.ch.val
  z.setFld Fd.weaverChanInflight 0 idx (z.fld Fd.weaverChanInflight 0 idx - 1)

/-- What the end of its `Inst` leaves of a command. -/
def endedBy (k : Cmd) (code : Option Code) (cancel : Bool) : Cmd :=
  { k with finished := true, fault := k.fault <|> code, cancelled := k.cancelled || cancel }

theorem same_self (x : Inst) : x.same x = true := by simp [Inst.same]

theorem cmd_congr {s t : State} (h : t.cells = s.cells) (c n : Nat) : t.cmd c n = s.cmd c n := by
  rw [State.cmd, State.cmd, State.cell, State.cell, h]

theorem cells_channelLeft (s : State) (x : Inst) : (channelLeft s x).cells = s.cells := State.cells_setFld ..

theorem reg_channelLeft (s : State) (x : Inst) {o : Nat} (ho : o ≠ Fd.weaverChanInflight.reg 0 (16 * x.t.val + x.ch.val)) :
    (channelLeft s x).reg o = s.reg o := by
  rw [channelLeft, State.setFld, State.reg_set_other _ _ ho]; rfl

/-- The end of the only `Inst`, of a command that is no voting commit. -/
theorem endInsts_single {s : State} {x : Inst} {k : Cmd} (hinsts : s.weav.insts = [x]) (hcmd : s.cmd x.cell x.cmd = some k)
    (hop : k.opcode ≠ 0x0702) (code : Option Code) (cancel : Bool) :
    s.endInsts (fun y => y.same x) code cancel = (channelLeft s x).putCmd x.cell (endedBy k code cancel) := by
  have hdoubt (z : State) : z.doubt k = z := by
    unfold State.doubt
    split
    · exact if_neg (fun h => hop h.1)
    · rfl
  have hcmd' : (channelLeft s x).cmd x.cell x.cmd = some k := (cmd_congr (cells_channelLeft s x) ..).trans hcmd
  unfold channelLeft at hcmd' ⊢
  simp only [State.endInsts, hinsts, List.filter_cons, same_self, if_true, List.filter_nil, Bool.not_true, Bool.false_eq_true, if_false,
    List.foldl_cons, List.foldl_nil, hcmd', hdoubt, hop, false_and, endedBy]

theorem cmd_channelLeft_putCmd {s : State} {x : Inst} {k y : Cmd} (hcmd : s.cmd x.cell x.cmd = some k) (hnum : y.num = x.cmd) :
    ((channelLeft s x).putCmd x.cell y).cmd x.cell x.cmd = some y := by
  rw [← hnum] at hcmd ⊢
  exact cmd_putCmd_self ((cmd_congr (cells_channelLeft s x) ..).trans hcmd)

/-! ## CONTROL packets (R333, R382, R429) -/

theorem instOf_single {s : State} {x : Inst} (hinsts : s.weav.insts = [x]) : s.instOf x.t x.ch x.num = some x := by
  simp [State.instOf, hinsts]

theorem controlPacketsAct : ControlPacketsAct := by
  intro src t feed op st seq s
  refine ⟨rfl, rfl, fun ch num code x k hinsts ht hch hnum _ hcmd hop => ?_⟩
  subst ht hch hnum
  have hexec : exec (.control src (.abort x.t x.ch x.num code false)) s =
      .next (((channelLeft s x).putCmd x.cell (endedBy k (some code) false)).bump Fd.weaverAbortCnt) := by
    show Host.Outcome.next (s.abortHere x.t x.ch x.num code false) = _
    rw [State.abortHere, instOf_single hinsts, ← endInsts_single hinsts hcmd hop]
    simp only [Bool.false_and, Bool.false_eq_true, if_false]
  have hk : k.num = x.cmd := by simpa using List.find?_some hcmd
  have hcnt : Fd.weaverAbortCnt.reg 0 0 ≠ Fd.weaverChanInflight.reg 0 (16 * x.t.val + x.ch.val) := by
    simp [Field.reg, Fd.weaverAbortCnt, Fd.weaverChanInflight]; omega
  refine ⟨_, hexec, rfl, ?_, ?_⟩
  · rw [State.bump, cmd_congr (State.cells_setFld ..), cmd_channelLeft_putCmd (y := endedBy k (some code) false) hcmd hk, endedBy, Bool.or_false]
  · have hfld : ((channelLeft s x).putCmd x.cell (endedBy k (some code) false)).fld Fd.weaverAbortCnt = s.fld Fd.weaverAbortCnt :=
      fld_congr (reg_channelLeft s x hcnt)
    rw [fld_bump_self _ (by decide) (by decide), hfld]

/-- Settles O35: the router's branches, the two ends of a remote access, and the CONTROL packets that act. -/
theorem packetsAreRoutedServedAndAnswered : Obligations.PacketsAreRoutedServedAndAnswered := by
  unfold Obligations.PacketsAreRoutedServedAndAnswered
  exact ⟨packetsArriveOrAreDropped, packetsTakeAPortOrEscape, requestsAreServedAndAnswered, accessesTimeOut, controlPacketsAct⟩

end Sys2Proof.Proofs
end

section
/-! PROOFS. Flits that a port takes, discards and sends again (R309 to R312). -/

namespace Sys2Proof.Proofs

open Sys2Proof Sys2Proof.Machine Sys2Proof.Claims

/-! ## Acknowledgements and returned credits (R312, R314) -/

/-- An acknowledgement changes the replay buffer of a port, returned credits its credits. -/
theorem acked_frame (x : PortSt) (vc ack : Nat) : x.acked vc ack = { x with replay := (x.acked vc ack).replay } := by
  simp only [PortSt.acked]; split <;> rfl

/-- The state in which a flit meets its channel: codewords counted, its acknowledgement and its credits taken, what they allow sent. -/
def beforeFlit (s : State) (p : Nat) (bs : List Byte) (corrected words : Nat) : State :=
  let h := fieldB bs 0 6
  ((s.countFec p corrected words).onPort p (fun x => (x.acked (bitsOf h 27 26) (bitsOf h 23 12)).credit
    (poolOf (bitsOf h 32 31) (bitsOf h 41 41)) (bitsOf h 40 33))).pump p

section
variable {s : State} {p : Nat} {bs : List Byte} {corrected words : Nat}

/-- Counting codewords only counts, and may call for a retrain of the port. -/
theorem countFec_eq : ∃ z : State, z.fab = s.fab ∧ (s.countFec p corrected words = z ∨
    ∃ y, y.waiting = (s.port p).waiting ∧ s.countFec p corrected words = z.setPort p y) := by
  have hfab : ((s.bump Fd.scecyFecCeCnt p 0 corrected).bump Fd.scecyFecUeCnt p 0 words).fab = s.fab := by rw [State.fab_bump, State.fab_bump]
  refine ⟨_, hfab, ?_⟩
  rw [State.countFec]
  split
  · exact .inl rfl
  · exact .inr ⟨_, by rw [port_bump, port_bump], rfl⟩

theorem transit_countFec : (s.countFec p corrected words).fab.transit = s.fab.transit := by
  obtain ⟨z, hz, h | ⟨y, -, h⟩⟩ := countFec_eq (s := s) (p := p) (corrected := corrected) (words := words) <;> rw [h, ← hz]
  rfl

theorem nextId_countFec : (s.countFec p corrected words).fab.nextId = s.fab.nextId := by
  obtain ⟨z, hz, h | ⟨y, -, h⟩⟩ := countFec_eq (s := s) (p := p) (corrected := corrected) (words := words) <;> rw [h, ← hz]
  rfl

theorem waiting_countFec : ((s.countFec p corrected words).port p).waiting = (s.port p).waiting := by
  obtain ⟨z, hz, h | ⟨y, hy, h⟩⟩ := countFec_eq (s := s) (p := p) (corrected := corrected) (words := words)
  · rw [h, State.port, hz]; rfl
  · rw [h, State.port_set_self, hy]

theorem keepsReceiving_onPort {f : PortSt → PortSt} (hseq : ∀ x, (f x).lastSeq = x.lastSeq) (hretraining : ∀ x, (f x).retraining = x.retraining) :
    KeepsReceiving s (s.onPort p f) := keepsReceiving_setPort s p (hseq _) (hretraining _)

theorem keepsReceiving_beforeFlit : KeepsReceiving s (beforeFlit s p bs corrected words) := by
  refine (keepsReceiving_countFec s p corrected words).trans (.trans (keepsReceiving_onPort (fun x => ?_) (fun x => ?_)) (keepsReceiving_pump ..))
  all_goals rw [acked_frame]; rfl

theorem transit_beforeFlit (hidle : (s.port p).waiting = []) : (beforeFlit s p bs corrected words).fab.transit = s.fab.transit ∧
    (beforeFlit s p bs corrected words).fab.nextId = s.fab.nextId := by
  have hpump : OnlyOwes _ (beforeFlit s p bs corrected words) := onlyOwes_pump_of_idle (by
    rw [State.onPort, State.port_set_self, acked_frame]
    exact waiting_countFec.trans hidle)
  exact ⟨hpump.transit.trans transit_countFec, hpump.nextId.trans nextId_countFec⟩

/-! ## What becomes of a flit that arrives (R309 to R311) -/

/-- A flit that the port can use: in corrected codewords, whole, with its CRC and an assigned kind. -/
def Usable (bs : List Byte) (b : FecLoss) : Prop :=
  b.here = false ∧ bs.length = 256 ∧ crc16 (sliceB bs 0 254) = ofBe (sliceB bs 254 2) ∧ bitsOf (fieldB bs 0 6) 30 28 < 6

theorem discards_iff (bs : List Byte) (b : FecLoss) : (b.here || !(decide (bs.length = 256) &&
    decide (crc16 (sliceB bs 0 254) = ofBe (sliceB bs 254 2))) || decide (6 ≤ bitsOf (fieldB bs 0 6) 30 28)) = true ↔ ¬ Usable bs b := by
  simp only [Usable, Bool.or_eq_true, Bool.not_eq_true', Bool.and_eq_false_iff, decide_eq_false_iff_not, decide_eq_true_eq, not_and_or,
    Nat.not_lt, Bool.not_eq_false, or_assoc]

theorem takeFlit_unusable {b : FecLoss} (h : ¬ Usable bs b) :
    s.takeFlit p bs corrected b = (s.countFec p corrected b.words).bump Fd.scecyCrcErrCnt p :=
  if_pos ((discards_iff bs b).mpr h)

theorem takeFlit_next {b : FecLoss} (h : Usable bs b) (hlow : 1 ≤ bitsOf (fieldB bs 0 6) 30 28) (hhigh : bitsOf (fieldB bs 0 6) 30 28 ≤ 4) :
    let f := fieldB bs 0 6
    let vc := bitsOf f 25 24
    bitsOf f 11 0 = ((s.port p).lastAt vc + 1) % 4096 → s.takeFlit p bs corrected b = (beforeFlit s p bs corrected b.words).acceptFlit p vc
      (if vc = 1 ∨ vc = 3 then bitsOf f 41 41 else 0) (bitsOf f 11 0) (bitsOf f 30 28) (sliceB bs 6 248) := by
  intro f vc hseq
  have hlast : ((beforeFlit s p bs corrected b.words).port p).lastAt vc = (s.port p).lastAt vc := by
    rw [PortSt.lastAt, PortSt.lastAt, keepsReceiving_beforeFlit.lastSeq]
  rw [← hlast] at hseq
  rw [State.takeFlit]
  exact (if_neg (by rw [discards_iff, not_not]; exact h)).trans ((if_neg (by omega)).trans ((if_neg (by omega)).trans (if_pos hseq)))

end

/-! ## A flit that is accepted (R312, R315) -/

section
variable (s : State) (p vc dcls seq kind : Nat) (body : List Byte)

theorem keepsReceiving_putPacket (t : Transit) : KeepsReceiving s (s.putPacket t) := .of_same rfl rfl

theorem keepsReceiving_dropPacket (id : Nat) : KeepsReceiving s (s.dropPacket id) := .of_same rfl rfl

theorem keepsReceiving_deliver (t : Transit) : KeepsReceiving s (s.deliver t) :=
  .ite ((keepsReceiving_dropPacket s t.id).trans (.of_same rfl rfl)) (keepsReceiving_dropPacket s t.id)

theorem keepsReceiving_joinFlit (t : Transit) : KeepsReceiving s (s.joinFlit t kind body) := by
  have howe := keepsReceiving_owe s t.port t.pool 1
  refine .ite (.ite (howe.trans (keepsReceiving_deliver ..)) (howe.trans (keepsReceiving_putPacket ..)))
    (.ite (.ite (howe.trans (keepsReceiving_dropPacket ..)) howe) ?_)
  cases t.out with
  | none => exact keepsReceiving_putPacket ..
  | some o => exact (keepsReceiving_putPacket ..).trans (keepsReceiving_pump ..)

theorem keepsReceiving_firstFlit : KeepsReceiving s (s.firstFlit p vc dcls kind body) := by
  simp only [State.firstFlit]
  split
  next t _ => exact ((keepsReceiving_owe ..).trans (keepsReceiving_dropPacket _ t.id)).trans (.of_same rfl rfl)
  · exact .of_same rfl rfl

/-- The state once a flit has been accepted on its channel and before its packet takes it up. -/
def afterSeq (s : State) (p vc seq : Nat) : State :=
  (s.setPort p { s.port p with
    lastSeq := Tab.set (fun _ => 4095) (s.port p).lastSeq vc seq
    nakAt := Tab.set (fun _ => 0) (s.port p).nakAt vc 0 }).bump Fd.scecyRxFlits p

theorem port_afterSeq : (afterSeq s p vc seq).port p = { s.port p with
    lastSeq := Tab.set (fun _ => 4095) (s.port p).lastSeq vc seq
    nakAt := Tab.set (fun _ => 0) (s.port p).nakAt vc 0 } := by
  rw [afterSeq, port_bump, State.port_set_self]

theorem transit_afterSeq : (afterSeq s p vc seq).fab.transit = s.fab.transit := by rw [afterSeq, State.fab_bump]; rfl

theorem nextId_afterSeq : (afterSeq s p vc seq).fab.nextId = s.fab.nextId := by rw [afterSeq, State.fab_bump]; rfl

theorem arriving_afterSeq (pool : Nat) : (afterSeq s p vc seq).arriving p pool = s.arriving p pool := by
  rw [State.arriving, State.arriving, transit_afterSeq]

theorem keepsReceiving_acceptFlit : KeepsReceiving (afterSeq s p vc seq) (s.acceptFlit p vc dcls seq kind body) := by
  refine KeepsReceiving.trans ?_ (onlyOwes_sendIdle ..).keepsReceiving
  refine .ite (keepsReceiving_firstFlit ..) ?_
  split
  · exact keepsReceiving_joinFlit ..
  · exact keepsReceiving_owe ..

theorem lastAt_acceptFlit : ((s.acceptFlit p vc dcls seq kind body).port p).lastAt vc = seq := by
  rw [PortSt.lastAt, (keepsReceiving_acceptFlit ..).lastSeq, port_afterSeq]
  exact Tab.get_set_self ..

theorem rx_reg_mod (p : Nat) : Fd.scecyRxFlits.reg p 0 % 0x10000 = 0x40 := by simp only [Field.reg, Fd.scecyRxFlits, Blk.base]; omega

theorem rxFlits_acceptFlit : (s.acceptFlit p vc dcls seq kind body).fld Fd.scecyRxFlits p =
    min (2 ^ Fd.scecyRxFlits.w - 1) (s.fld Fd.scecyRxFlits p + 1) := by
  rw [(keepsReceiving_acceptFlit ..).fld (by rw [rx_reg_mod]; decide), afterSeq, fld_bump_self _ (by decide) (by decide)]
  rfl

theorem transit_firstFlit (hnone : s.arriving p (poolOf vc dcls) = none) :
    ∃ y, (s.firstFlit p vc dcls kind body).fab.transit = s.fab.transit ++ [y] ∧ y.id = s.fab.nextId ∧ y.port = some p ∧ y.vc = vc ∧
      y.bodies = [(kind, body)] ∧ y.whole = decide (kind = 4) ∧ y.entry = none := by
  simp only [State.firstFlit, hnone]
  exact ⟨_, rfl, rfl, rfl, rfl, rfl, rfl, rfl⟩

theorem transit_joinFlit {y : Transit} (hhere : y.here = false) (hdrop : y.drop = false) (hout : y.out = none) :
    (s.joinFlit y kind body).fab.transit = s.fab.transit.map (fun z => if z.id = y.id then
      { y with bodies := y.bodies ++ [(kind, body)], whole := decide (kind = 3) } else z) := by
  rw [State.joinFlit]
  simp only [hhere, hdrop, hout, Bool.false_eq_true, if_false]
  rfl

/-- A first flit begins a packet of its pool, where none is arriving. -/
theorem transit_acceptFlit_first (hkind : kind = 1 ∨ kind = 4) (hnone : s.arriving p (poolOf vc dcls) = none) :
    ∃ y, (s.acceptFlit p vc dcls seq kind body).fab.transit = s.fab.transit ++ [y] ∧ y.id = s.fab.nextId ∧ y.port = some p ∧ y.vc = vc ∧
      y.bodies = [(kind, body)] ∧ y.whole = decide (kind = 4) ∧ y.entry = none := by
  have haccept : s.acceptFlit p vc dcls seq kind body = ((afterSeq s p vc seq).firstFlit p vc dcls kind body).sendIdle p vc :=
    congrArg (fun z : State => z.sendIdle p vc) (if_pos hkind)
  rw [haccept, (onlyOwes_sendIdle ..).transit, ← transit_afterSeq s p vc seq, ← nextId_afterSeq s p vc seq]
  exact transit_firstFlit _ _ _ _ _ _ ((arriving_afterSeq ..).trans hnone)

/-- A later flit joins the packet that is arriving, where that has no port yet. -/
theorem transit_acceptFlit_later (hkind : kind = 2 ∨ kind = 3) {y : Transit} (hsome : s.arriving p (poolOf vc dcls) = some y)
    (hhere : y.here = false) (hdrop : y.drop = false) (hout : y.out = none) :
    (s.acceptFlit p vc dcls seq kind body).fab.transit = s.fab.transit.map (fun z => if z.id = y.id then
      { y with bodies := y.bodies ++ [(kind, body)], whole := decide (kind = 3) } else z) := by
  have hsome' : (afterSeq s p vc seq).arriving p (poolOf vc dcls) = some y := (arriving_afterSeq ..).trans hsome
  have haccept : s.acceptFlit p vc dcls seq kind body = ((afterSeq s p vc seq).joinFlit y kind body).sendIdle p vc := by
    refine congrArg (fun z : State => z.sendIdle p vc) ((if_neg (by omega)).trans ?_)
    show (match (afterSeq s p vc seq).arriving p (poolOf vc dcls) with
      | some t => (afterSeq s p vc seq).joinFlit t kind body
      | none => (afterSeq s p vc seq).owe (some p) (poolOf vc dcls) 1) = _
    rw [hsome']
  rw [haccept, (onlyOwes_sendIdle ..).transit, transit_joinFlit _ _ _ hhere hdrop hout, transit_afterSeq]

end

/-! ## Sending again (R312) -/

/-- Ports read as before, n flits more have gone out, and of the registers only TX_FLITS of a port has changed. -/
structure OnlySends (p n : Nat) (s t : State) : Prop where
  ports : ∀ q, t.port q = s.port q
  out : t.out.length = s.out.length + n
  regs : ∀ o, o ≠ Fd.scecyTxFlits.reg p 0 → t.reg o = s.reg o

theorem port_send (s : State) (o : Out) (q : Nat) : (s.send o).port q = s.port q := rfl

theorem out_send (s : State) (o : Out) : (s.send o).out = s.out ++ [o] := rfl

/-- Without credits to return, a flit that is sent changes no port. -/
theorem onlySends_emitFlit {s : State} {p : Nat} (howed : (s.port p).owed = []) (vc : Nat) (f : Flit) : OnlySends p 1 s (s.emitFlit p vc f) := by
  let returned (n : Nat) : Tab Nat := Tab.set (fun _ => 0) (s.port p).owed n ((s.port p).owedAt n - min 255 ((s.port p).owedAt n))
  have hport (n q : Nat) : (s.setPort p { s.port p with owed := returned n }).port q = s.port q := by
    have hsame : returned n = (s.port p).owed := by simp [returned, PortSt.owedAt, howed, Tab.get, Tab.set, Tab.del]
    rw [hsame, port_setPort]
    split
    case isTrue h => rw [h]
    case isFalse => rfl
  simp only [State.emitFlit]
  split
  · exact ⟨hport _, List.length_append, fun _ _ => rfl⟩
  · refine ⟨fun q => ?_, ?_, fun _ ho => State.reg_set_other _ _ ho⟩
    · rw [port_send, port_bump, hport]
    · rw [out_send, List.length_append, State.out_bump]
      rfl

theorem onlySends_foldl {p : Nat} (vc : Nat) (l : List Flit) {s : State} (howed : (s.port p).owed = []) :
    OnlySends p l.length s (l.foldl (fun z f => z.emitFlit p vc f) s) := by
  induction l generalizing s with
  | nil => exact ⟨fun _ => rfl, rfl, fun _ _ => rfl⟩
  | cons f l ih =>
    have hone := onlySends_emitFlit howed vc f
    have hrest := ih (s := s.emitFlit p vc f) (by rw [hone.ports, howed])
    refine ⟨fun q => (hrest.ports q).trans (hone.ports q), ?_, fun o ho => (hrest.regs o ho).trans (hone.regs o ho)⟩
    rw [List.foldl_cons, hrest.out, hone.out, List.length_cons]
    omega

/-- The flits of a channel, each sent once more. -/
def resent (l : List Flit) : List Flit := l.map (fun f => { f with tries := f.tries + 1 })

/-- A replay of a channel of a port that owes no credits: every unacknowledged flit of the channel goes out once more, and is counted. -/
theorem replayFrom_resends {s : State} {p : Nat} (howed : (s.port p).owed = []) (vc : Nat) :
    let l := (s.port p).sentAt vc
    let t := s.replayFrom p vc 0
    (t.port p).sentAt vc = resent l ∧ t.fld Fd.scecyReplayCnt p = min (2 ^ Fd.scecyReplayCnt.w - 1) (s.fld Fd.scecyReplayCnt p + l.length) ∧
      t.out.length = s.out.length + l.length ∧ (t.port p).waiting = (s.port p).waiting ∧ ∀ q, (t.port q).owed = (s.port q).owed := by
  intro l t
  let y := { s.port p with
    replay := Tab.set (fun _ => []) (s.port p).replay vc (l.take 0 ++ resent (l.drop 0))
    due := (s.port p).due || (resent (l.drop 0)).any (fun f => decide (max 1 (s.fld Fd.scecyCtrlReplayLimit p) ≤ f.tries)) }
  let z := (s.setPort p y).bump Fd.scecyReplayCnt p 0 (l.drop 0).length
  have hself : z.port p = y := (port_bump ..).trans (State.port_set_self ..)
  have hsends : OnlySends p (resent (l.drop 0)).length z t := onlySends_foldl vc _ (by rw [hself]; exact howed)
  have hcnt : Fd.scecyReplayCnt.reg p 0 ≠ Fd.scecyTxFlits.reg p 0 := by simp [Field.reg, Fd.scecyReplayCnt, Fd.scecyTxFlits]
  refine ⟨?_, ?_, ?_, ?_, fun q => ?_⟩
  · rw [hsends.ports, hself]
    exact Tab.get_set_self ..
  · rw [fld_congr (hsends.regs _ hcnt), fld_bump_self _ (by decide) (by decide)]
    rfl
  · rw [hsends.out, resent, List.length_map, State.out_bump]
    rfl
  · rw [hsends.ports, hself]
  · rw [hsends.ports]
    rw [port_bump, port_setPort]
    split
    case isTrue h => rw [h]
    case isFalse => rfl

theorem sendOwed_of_none {s : State} {p : Nat} (howed : (s.port p).owed = []) : s.sendOwed p = s := by
  refine if_neg ?_
  simp [PortSt.owedAt, howed, Tab.get]

/-- A port on which nothing waits sends nothing where no port owes credits. -/
theorem pump_of_nothing {s : State} {p : Nat} (hidle : (s.port p).waiting = []) (howed : ∀ q, q < 24 → (s.port q).owed = []) : s.pump p = s := by
  have hall : ∀ l : List Nat, (∀ q ∈ l, q < 24) → l.foldl (fun z q => z.sendOwed q) s = s := by
    intro l hl
    induction l with
    | nil => rfl
    | cons q l ih =>
      rw [List.foldl_cons, sendOwed_of_none (howed q (hl q List.mem_cons_self))]
      exact ih fun r hr => hl r (List.mem_cons_of_mem _ hr)
  rw [pump_of_idle hidle, hall _ (fun q hq => List.mem_range.mp hq), ite_self]

/-- R312: a NAK sends every flit after the one that it acknowledges once more. -/
theorem nak_resends {s : State} {p : Nat} (hp : p < 24) (hhealthy : s.healthy p = true) (hidle : (s.port p).waiting = [])
    (howed : ∀ q, q < 24 → (s.port q).owed = []) (vc ack : Nat) :
    let l := ((s.port p).acked vc ack).sentAt vc
    let t := s.nak p vc ack
    (t.port p).sentAt vc = resent l ∧ t.fld Fd.scecyReplayCnt p = min (2 ^ Fd.scecyReplayCnt.w - 1) (s.fld Fd.scecyReplayCnt p + l.length) ∧
      t.out.length = s.out.length + l.length := by
  let z := s.onPort p (fun x => x.acked vc ack)
  have hself : z.port p = (s.port p).acked vc ack := State.port_set_self ..
  have howed' (q : Nat) : (z.port q).owed = (s.port q).owed := by
    show ((s.setPort p _).port q).owed = _
    rw [port_setPort]
    split
    case isTrue h =>
      rw [h]
      show ((s.port p).acked vc ack).owed = _
      rw [acked_frame]
    case isFalse => rfl
  obtain ⟨hsent, hcnt, hout, hwaiting, hkept⟩ := replayFrom_resends ((howed' p).trans (howed p hp)) vc
  have hnak : s.nak p vc ack = z.replayFrom p vc 0 := by
    rw [State.nak, if_pos hhealthy]
    refine pump_of_nothing (hwaiting.trans ?_) fun q hq => (hkept q).trans ((howed' q).trans (howed q hq))
    rw [hself, acked_frame]
    exact hidle
  rw [hself] at hsent hcnt hout
  show ((s.nak p vc ack).port p).sentAt vc = _ ∧ (s.nak p vc ack).fld _ p = _ ∧ (s.nak p vc ack).out.length = _
  rw [hnak]
  exact ⟨hsent, hcnt, hout⟩

/-- R312: REPLAY_TIMEOUT sends every unacknowledged flit of a channel once more. -/
theorem execReplayTimeout_resends {s : State} {p : Fin 24} (hhealthy : s.healthy p = true) (howed : (s.port p).owed = []) (vc : Fin 4) :
    let l := (s.port p).sentAt vc
    ∃ t, exec (.replayTimeout p vc) s = .next t ∧ (t.port p).sentAt vc = resent l ∧
      t.fld Fd.scecyReplayCnt p = min (2 ^ Fd.scecyReplayCnt.w - 1) (s.fld Fd.scecyReplayCnt p + l.length) ∧
      t.out.length = s.out.length + l.length := by
  intro l
  by_cases hl : l = []
  · have hstays : exec (.replayTimeout p vc) s = .next s := congrArg Host.Outcome.next (if_neg (by simp [show (s.port p).sentAt vc = [] from hl]))
    have hlt := fld_lt s Fd.scecyReplayCnt (by decide) p 0
    refine ⟨s, hstays, ?_⟩
    rw [hl]
    exact ⟨hl, (Nat.min_eq_right (Nat.le_pred_of_lt hlt)).symm, rfl⟩
  · have hreplays : exec (.replayTimeout p vc) s = .next (s.replayFrom p vc 0) :=
      congrArg Host.Outcome.next (if_pos (by simp [hhealthy]; exact hl))
    obtain ⟨hsent, hcnt, hout, -, -⟩ := replayFrom_resends howed vc.val
    exact ⟨_, hreplays, hsent, hcnt, hout⟩

/-! ## The obligation -/

/-- R309, R310: a flit that cannot be used is counted and discarded. -/
theorem takeFlit_discards {s : State} {p : Nat} {bs : List Byte} {b : FecLoss} (h : ¬ Usable bs b) (corrected : Nat) :
    let t := s.takeFlit p bs corrected b
    t.fab.transit = s.fab.transit ∧ (t.port p).lastSeq = (s.port p).lastSeq ∧
      t.fld Fd.scecyCrcErrCnt p = min (2 ^ Fd.scecyCrcErrCnt.w - 1) (s.fld Fd.scecyCrcErrCnt p + 1) := by
  have hkeeps := keepsReceiving_countFec s p corrected b.words
  have hreg : Fd.scecyCrcErrCnt.reg p 0 % 0x10000 ∉ trafficCounts.map (fun g => g.base) := by
    rw [show Fd.scecyCrcErrCnt.reg p 0 % 0x10000 = 0x20 by simp only [Field.reg, Fd.scecyCrcErrCnt, Blk.base]; omega]
    decide
  intro t
  have ht : t = (s.countFec p corrected b.words).bump Fd.scecyCrcErrCnt p := takeFlit_unusable h
  rw [ht, fld_bump_self _ (by decide) (by decide), hkeeps.fld hreg]
  rw [State.fab_bump, port_bump]
  exact ⟨transit_countFec, hkeeps.lastSeq p, rfl⟩

/-- Settles O34: the branches of `State.takeFlit`, and the replay of a channel, which sends every flit of its buffer and nothing else. -/
theorem portsTakeAndReplayFlits : Obligations.PortsTakeAndReplayFlits := by
  unfold Obligations.PortsTakeAndReplayFlits
  intro p s x
  refine ⟨fun hdead => ?_, fun hhealthy bs a b => ?_, fun hhealthy hidle howed vc ack => ?_⟩
  · have hoff : ¬ s.healthy p = true := by rw [hdead]; decide
    exact ⟨fun bs a b => congrArg Host.Outcome.next (if_neg hoff), fun vc ack => congrArg Host.Outcome.next (if_neg hoff),
      fun vc => congrArg Host.Outcome.next (if_neg (by simp [hdead]))⟩
  · intro h kind good vc seq pool
    have hexec : exec (.flitReceive p bs a b) s = .next (s.takeFlit p bs a b) := congrArg Host.Outcome.next (if_pos hhealthy)
    refine ⟨fun hbad => ⟨_, hexec, takeFlit_discards hbad a⟩, fun hgood hlow hhigh hseq hidle => ?_⟩
    obtain ⟨htransit, hnext⟩ := transit_beforeFlit (bs := bs) (corrected := a) (words := b.words) hidle
    have harriving (q : Nat) : (beforeFlit s p bs a b.words).arriving p q = s.arriving p q := by
      rw [State.arriving, State.arriving, htransit]
    have hrx : (beforeFlit s p bs a b.words).fld Fd.scecyRxFlits p = s.fld Fd.scecyRxFlits p :=
      keepsReceiving_beforeFlit.fld (by rw [rx_reg_mod]; decide)
    refine ⟨_, hexec.trans (congrArg Host.Outcome.next (takeFlit_next hgood hlow hhigh hseq)), lastAt_acceptFlit .., ?_, ?_, ?_⟩
    · rw [rxFlits_acceptFlit, hrx]
    · intro hkind hnone
      rw [← htransit, ← hnext]
      exact transit_acceptFlit_first _ _ _ _ _ _ _ hkind ((harriving _).trans hnone)
    · intro hkind y hsome hhere hdrop hout
      rw [← htransit]
      exact transit_acceptFlit_later _ _ _ _ _ _ _ hkind ((harriving _).trans hsome) hhere hdrop hout
  · exact ⟨⟨_, rfl, nak_resends p.isLt hhealthy hidle howed ..⟩, execReplayTimeout_resends hhealthy (howed p p.isLt) vc⟩

end Sys2Proof.Proofs
end

section
/-! PROOFS. The Scecy ports: enabling and disabling, training, retraining and going DOWN (R313, R328, R329). -/

namespace Sys2Proof.Proofs

open Sys2Proof Sys2Proof.Machine Sys2Proof.Claims

/-! ## STATE.LINK (R328) -/

section
variable (s : State) (p : Fin 24) (v : Nat)

theorem link_reg_ne_portUp : Fd.scecyStateLink.reg p 0 ≠ Fd.fabPortUp.reg 0 0 := by
  simp [Field.reg, Fd.scecyStateLink, Fd.fabPortUp, Blk.base]; omega

theorem fld_setLink_self {v : Nat} (hv : v < 4) : (s.setLink p v).fld Fd.scecyStateLink p = v := by
  rw [State.setLink, State.setBit, fld_setFld_other _ (link_reg_ne_portUp p), fld_setFld_self _ (by decide) (by decide) _ _ hv]

theorem reg_setLink_other {o : Nat} (hlink : o ≠ Fd.scecyStateLink.reg p 0) (hup : o ≠ Fd.fabPortUp.reg 0 0) :
    (s.setLink p v).reg o = s.reg o := by
  rw [State.setLink, State.setBit, State.setFld, State.reg_set_other _ _ hup, State.setFld, State.reg_set_other _ _ hlink]

theorem port_setLink (q : Nat) : (s.setLink p v).port q = s.port q := by
  rw [State.port, State.setLink, State.setBit, State.fab_setFld, State.fab_setFld]
  rfl

/-! ## Going DOWN (R313) -/

/-- A port that goes DOWN or DISABLED holds nothing, and of the registers only its STATE, PORT_UP and DOWN_DROP_CNT change. -/
theorem dropPort_eq : ∃ z : State, s.dropPort p v = (z.setPort p PortSt.init).setLink p v ∧
    ∀ o, o ≠ Fd.scecyDownDropCnt.reg p 0 → z.reg o = s.reg o := by
  refine ⟨_, rfl, fun o ho => ?_⟩
  rw [State.bump, State.setFld, State.reg_set_other _ _ ho]
  exact (OnlyOwes.foldl (fun z (t : Transit) => onlyOwes_owe z t.port t.pool t.bodies.length) _ s).reg o

theorem link_dropPort {v : Nat} (hv : v < 4) : (s.dropPort p v).fld Fd.scecyStateLink p = v := by
  obtain ⟨z, hz, -⟩ := dropPort_eq s p v
  rw [hz, fld_setLink_self _ p hv]

theorem port_dropPort : (s.dropPort p v).port p = PortSt.init := by
  obtain ⟨z, hz, -⟩ := dropPort_eq s p v
  rw [hz, port_setLink, State.port_set_self]

end

/-! ## A write to CTRL (R11, R313, R328) -/

theorem blockOf_scecy (p : Fin 24) {o : Nat} (ho : o < 0x10000) : blockOf (Blk.scecy.base p + o) = some (.scecy, p.val, o) := by
  have hp := p.isLt
  have hcell : ¬Blk.cell.holds (Blk.scecy.base p + o) = true := by simp [Blk.holds, Blk.base, Blk.count, Blk.size]; omega
  have hstack : ¬Blk.stack.holds (Blk.scecy.base p + o) = true := by simp [Blk.holds, Blk.base, Blk.count, Blk.size]; omega
  have hscecy : Blk.scecy.holds (Blk.scecy.base p + o) = true := by simp [Blk.holds, Blk.base, Blk.count, Blk.size]; omega
  rw [blockOf, Blk.all, List.find?_cons_of_neg (by exact hcell), List.find?_cons_of_neg (by exact hstack),
    List.find?_cons_of_pos (by exact hscecy)]
  simp [Blk.base, Blk.size]
  omega

theorem blockOf_ctrl (p : Fin 24) : blockOf (Fd.scecyCtrlEnable.reg p 0) = some (.scecy, p.val, 8) := blockOf_scecy p (by decide)

theorem fieldsAt_ctrl (p : Fin 24) : fieldsAt (Fd.scecyCtrlEnable.reg p 0) =
    [(Fd.scecyCtrlEnable, 0), (Fd.scecyCtrlRetrain, 0), (Fd.scecyCtrlReplayLimit, 0), (Fd.scecyCtrlRetrainLimit, 0),
      (Fd.scecyCtrlReplayTimeout, 0)] := by
  rw [fieldsAt, blockOf_ctrl]; rfl

section
variable (s : State) (who : Who) (p : Fin 24) (v : BitVec 64)

/-- ENABLE in a written value. -/
def enableOf (v : BitVec 64) : Nat := v.toNat / 2 ^ Fd.scecyCtrlEnable.lo % 2

/-- What a whole write leaves of CTRL: RETRAIN keeps nothing, the other fields take what is written. -/
def ctrlWritten (w : RegWrite) (r : Nat) : Nat :=
  (w.field Fd.scecyCtrlReplayTimeout (w.field Fd.scecyCtrlRetrainLimit (w.field Fd.scecyCtrlReplayLimit (w.field Fd.scecyCtrlEnable r).1).1).1).1

theorem storeReg_ctrl (w : RegWrite) : s.storeReg who (Fd.scecyCtrlEnable.reg p 0) w =
    s.setReg (Fd.scecyCtrlEnable.reg p 0) (BitVec.ofNat 64 (ctrlWritten w (s.reg (Fd.scecyCtrlEnable.reg p 0)).toNat)) := by
  have hretrain (x : Nat) : w.field Fd.scecyCtrlRetrain x = (x, 0) := by simp [RegWrite.field, Fd.scecyCtrlRetrain]
  have htaken {f : Field} (hf : f ≠ Fd.stackMode ∧ f ≠ Fd.ethRegionKind) (i : Nat) : s.writeIgnored who w f i = false := by
    simp [State.writeIgnored, hf]
  simp only [State.storeReg, fieldsAt_ctrl, blockOf_ctrl, List.foldl_cons, List.foldl_nil, hretrain, Nat.add_zero, ctrlWritten, if_true,
    htaken (f := Fd.scecyCtrlEnable) (by decide), htaken (f := Fd.scecyCtrlRetrain) (by decide), htaken (f := Fd.scecyCtrlReplayLimit) (by decide),
    htaken (f := Fd.scecyCtrlRetrainLimit) (by decide), htaken (f := Fd.scecyCtrlReplayTimeout) (by decide), Bool.false_eq_true, if_false,
    field_rw_coincidences w (f := Fd.scecyCtrlEnable) rfl, field_rw_coincidences w (f := Fd.scecyCtrlReplayLimit) rfl,
    field_rw_coincidences w (f := Fd.scecyCtrlRetrainLimit) rfl, field_rw_coincidences w (f := Fd.scecyCtrlReplayTimeout) rfl]

theorem testBit_ctrlWritten {w : RegWrite} (hmask : w.mask.testBit 0 = true) (r : Nat) : (ctrlWritten w r).testBit 0 = w.val.testBit 0 := by
  rw [ctrlWritten, testBit_field_rw w rfl (by decide), if_neg (by simp [Fd.scecyCtrlReplayTimeout]),
    testBit_field_rw w rfl (by decide), if_neg (by simp [Fd.scecyCtrlRetrainLimit]),
    testBit_field_rw w rfl (by decide), if_neg (by simp [Fd.scecyCtrlReplayLimit]),
    testBit_field_rw w rfl (by decide), if_pos ⟨by decide, hmask⟩]

/-- The state in which a whole write to CTRL acts: the register holds what is written. -/
def ctrlStored (s : State) (p : Fin 24) (v : BitVec 64) : State :=
  s.setReg (Fd.scecyCtrlEnable.reg p 0)
    (BitVec.ofNat 64 (ctrlWritten (wholeWrite v 0 (s.flag Fd.resetLockBootLock)) (s.reg (Fd.scecyCtrlEnable.reg p 0)).toNat))

theorem enable_ctrlStored : (ctrlStored s p v).fld Fd.scecyCtrlEnable p = enableOf v := by
  have hbit := testBit_ctrlWritten (w := wholeWrite v 0 (s.flag Fd.resetLockBootLock)) (Nat.testBit_two_pow_sub_one 64 0)
    (s.reg (Fd.scecyCtrlEnable.reg p 0)).toNat
  simp only [wholeWrite, Nat.testBit_zero, decide_eq_decide] at hbit
  simp only [State.fld, ctrlStored, State.reg_set_self, wholeWrite, BitVec.toNat_ofNat, bitsOf, enableOf, Fd.scecyCtrlEnable] at hbit ⊢
  omega

/-- A permitted write to CTRL stores what is written and does what ENABLE and RETRAIN say. -/
theorem portEnable_of_mayWrite (hmay : MayWrite s who (Fd.scecyCtrlEnable.reg p 0)) : ∃ retrain : Bool,
    exec (.portEnable who p v) s = .next ((ctrlStored s p v).portCtrl p true retrain) := by
  obtain ⟨hperm, hreset⟩ := hmay
  have halign : Fd.scecyCtrlEnable.reg p 0 % 8 = 0 := by simp [Field.reg, Fd.scecyCtrlEnable, Blk.base]; omega
  have hfit : v.toNat % 2 ^ 64 = v.toNat := Nat.mod_eq_of_lt v.isLt
  have hval : Nat.land v.toNat (2 ^ 64 - 1) = v.toNat := (Nat.and_two_pow_sub_one_eq_mod _ _).trans hfit
  refine ⟨decide ((wholeWrite v 0 (s.flag Fd.resetLockBootLock)).wo Fd.scecyCtrlRetrain = 1), congrArg Host.Outcome.next ?_⟩
  simp only [State.writeWhole, State.ctlWrite, halign, show Fd.scecyCtrlEnable.reg p 0 / 8 * 8 = Fd.scecyCtrlEnable.reg p 0 by omega,
    Nat.mul_zero, Nat.pow_zero, Nat.mul_one, Nat.reduceMul, hfit, hval, State.ctlWriteMask, hreset, hperm, storeReg_ctrl, blockOf_ctrl,
    fieldsAt_ctrl, List.head?_cons, ne_eq, not_true_eq_false, if_false, Bool.false_eq_true]
  rw [State.writeEffect, if_neg (by decide), if_neg (by decide), if_neg (by decide), if_neg (by decide), if_pos rfl]
  have haddressed : (wholeWrite v 0 (s.flag Fd.resetLockBootLock)).mask.testBit Fd.scecyCtrlEnable.lo = true := Nat.testBit_two_pow_sub_one 64 0
  exact congrArg (fun b => (ctrlStored s p v).portCtrl p b _) haddressed

theorem ctrl_reg_ne : Fd.scecyCtrlEnable.reg p 0 ≠ Fd.scecyStateLink.reg p 0 ∧ Fd.scecyCtrlEnable.reg p 0 ≠ Fd.fabPortUp.reg 0 0 ∧
    Fd.scecyCtrlEnable.reg p 0 ≠ Fd.scecyDownDropCnt.reg p 0 := by
  simp [Field.reg, Fd.scecyCtrlEnable, Fd.scecyStateLink, Fd.fabPortUp, Fd.scecyDownDropCnt, Blk.base]; omega

theorem link_ctrlStored : (ctrlStored s p v).fld Fd.scecyStateLink p = s.fld Fd.scecyStateLink p :=
  fld_congr (State.reg_set_other _ _ (ctrl_reg_ne p).1.symm)

end

section
variable {s : State} {p : Fin 24}

/-- What ENABLE as it stands does to a port; RETRAIN acts after it. -/
def enableActs (s : State) (p : Nat) : State :=
  if !s.flag Fd.scecyCtrlEnable p then (if s.link p = 3 then s else s.dropPort p 3)
  else if s.link p = 0 ∨ s.link p = 3 then (s.setPort p PortSt.init).setLink p 1 else s

theorem portCtrl_eq (p : Nat) (retrain : Bool) : s.portCtrl p true retrain =
    if retrain && decide ((enableActs s p).link p = 2) then (enableActs s p).setPort p { (enableActs s p).port p with due := true }
    else enableActs s p := rfl

/-- RETRAIN acts on a port that is UP. -/
theorem portCtrl_of_not_up {p v : Nat} (hv : v ≠ 2) (hlink : (enableActs s p).fld Fd.scecyStateLink p = v) (retrain : Bool) :
    s.portCtrl p true retrain = enableActs s p := by
  rw [portCtrl_eq, State.link, hlink, decide_eq_false hv, Bool.and_false, if_neg (by decide)]

/-- What a write to CTRL sets off leaves CTRL. -/
theorem enable_portCtrl (retrain : Bool) : (s.portCtrl p true retrain).fld Fd.scecyCtrlEnable p = s.fld Fd.scecyCtrlEnable p := by
  obtain ⟨hlink, hup, hcnt⟩ := ctrl_reg_ne p
  have hretrain : (s.portCtrl p true retrain).regs = (enableActs s p).regs := by
    rw [portCtrl_eq]
    split <;> rfl
  rw [fld_congr (t := s.portCtrl p true retrain) (s := enableActs s p) (by rw [State.reg, State.reg, hretrain]), enableActs]
  split
  · split
    · rfl
    · obtain ⟨z, hz, hregs⟩ := dropPort_eq s p 3
      rw [hz, fld_congr (reg_setLink_other _ p 3 hlink hup), ← fld_congr (hregs _ hcnt)]
      rfl
  · split
    · exact fld_congr (reg_setLink_other _ p 1 hlink hup)
    · rfl

/-- R328: a port that is not enabled is DISABLED, and its traffic is dropped. -/
theorem portCtrl_disables (hoff : s.fld Fd.scecyCtrlEnable p = 0) (retrain : Bool) :
    let t := s.portCtrl p true retrain
    t.fld Fd.scecyStateLink p = 3 ∧ (s.fld Fd.scecyStateLink p ≠ 3 → t.port p = PortSt.init) := by
  have hflag : (!s.flag Fd.scecyCtrlEnable p) = true := by rw [State.flag, hoff]; rfl
  by_cases hlink : s.fld Fd.scecyStateLink p = 3
  · have hacts : enableActs s p = s := (if_pos hflag).trans (if_pos hlink)
    rw [portCtrl_of_not_up (by decide) (hacts.symm ▸ hlink), hacts]
    exact ⟨hlink, absurd hlink⟩
  · have hacts : enableActs s p = s.dropPort p 3 := (if_pos hflag).trans (if_neg hlink)
    have hdropped := link_dropPort s p (v := 3) (by decide)
    rw [portCtrl_of_not_up (by decide) (hacts.symm ▸ hdropped), hacts]
    exact ⟨hdropped, fun _ => port_dropPort s p 3⟩

/-- R328: an enabled port that is DOWN or DISABLED trains. -/
theorem portCtrl_trains (hon : s.fld Fd.scecyCtrlEnable p = 1) (hlink : s.fld Fd.scecyStateLink p = 0 ∨ s.fld Fd.scecyStateLink p = 3)
    (retrain : Bool) : let t := s.portCtrl p true retrain
    t.fld Fd.scecyStateLink p = 1 ∧ t.port p = PortSt.init := by
  have hflag : ¬ (!s.flag Fd.scecyCtrlEnable p) = true := by rw [State.flag, hon]; decide
  have hacts : enableActs s p = (s.setPort p PortSt.init).setLink p 1 := (if_neg hflag).trans (if_pos hlink)
  have htrains := fld_setLink_self (s.setPort p PortSt.init) p (v := 1) (by decide)
  rw [portCtrl_of_not_up (by decide) (hacts.symm ▸ htrains), hacts]
  exact ⟨htrains, by rw [port_setLink, State.port_set_self]⟩

/-! ## Training and retraining (R313, R328) -/

theorem portTrained_up (hlink : s.fld Fd.scecyStateLink p = 1) (hretraining : (s.port p).retraining = false) (hreset : s.inReset .scecy p = false)
    (pm : BitVec 16) (pp : BitVec 5) : ∃ t, exec (.portTrained p pm pp) s = .next t ∧ t.fld Fd.scecyStateLink p = 2 ∧
      t.fld Fd.scecyStatePartnerMod p = pm.toNat ∧ t.fld Fd.scecyStatePartnerPort p = pp.toNat := by
  refine ⟨_, congrArg Host.Outcome.next (if_pos (by simp [State.link, hlink, hretraining, hreset])), ?_, ?_, ?_⟩
  · rw [fld_setFld_beside _ (by decide) (by decide) (by decide) (by decide), fld_setFld_beside _ (by decide) (by decide) (by decide) (by decide),
      fld_setLink_self _ p (by decide)]
  · rw [fld_setFld_beside _ (by decide) (by decide) (by decide) (by decide), fld_setFld_self _ (by decide) (by decide) _ _ pm.isLt]
  · rw [fld_setFld_self _ (by decide) (by decide) _ _ pp.isLt]

theorem portDown_drops (hlink : s.fld Fd.scecyStateLink p = 1 ∨ s.fld Fd.scecyStateLink p = 2) :
    ∃ t, exec (.portDown p) s = .next t ∧ t.fld Fd.scecyStateLink p = 0 ∧ t.port p = PortSt.init :=
  ⟨_, congrArg Host.Outcome.next (if_pos hlink), link_dropPort s p (by decide), port_dropPort s p 0⟩

theorem portRetrain_begins (hdue : (s.port p).due = true) (hhealthy : s.healthy p = true) : ∃ t, exec (.portRetrain p) s = .next t ∧
    t.fld Fd.scecyStateLink p = 1 ∧ (t.port p).retraining = true ∧ (t.port p).due = false ∧
    t.fld Fd.scecyRetrainCnt p = min (2 ^ 32 - 1) (s.fld Fd.scecyRetrainCnt p + 1) := by
  have hcnt : Fd.scecyRetrainCnt.reg p 0 ≠ Fd.scecyStateLink.reg p 0 ∧ Fd.scecyRetrainCnt.reg p 0 ≠ Fd.fabPortUp.reg 0 0 := by
    simp [Field.reg, Fd.scecyRetrainCnt, Fd.scecyStateLink, Fd.fabPortUp, Blk.base]; omega
  refine ⟨_, congrArg Host.Outcome.next (if_pos (by rw [hdue, hhealthy]; rfl)), fld_setLink_self _ p (by decide), ?_, ?_, ?_⟩
  · rw [port_setLink, port_bump, State.onPort, State.port_set_self]
  · rw [port_setLink, port_bump, State.onPort, State.port_set_self]
  · rw [fld_congr (reg_setLink_other _ p 1 hcnt.1 hcnt.2), fld_bump_self _ (by decide) (by decide)]
    rfl

/-- R313: a port that has retrained is UP and does not retrain any more, whatever it sends again. -/
theorem retrained_up : let t := s.retrained p
    t.fld Fd.scecyStateLink p = 2 ∧ (t.port p).retraining = false := by
  intro t
  let z := (s.onPort p (fun x => { x with retraining := false, fails := 0 })).setLink p 2
  have hsends : KeepsReceiving z t := by
    refine KeepsReceiving.trans ?_ (keepsReceiving_pump ..)
    refine KeepsReceiving.trans ?_ (keepsReceiving_onPort (fun _ => rfl) (fun _ => rfl))
    exact .foldl (fun y vc => keepsReceiving_replayFrom y p vc 0) _ z
  have hreg : Fd.scecyStateLink.reg p 0 % 0x10000 = 0 := by simp only [Field.reg, Fd.scecyStateLink, Blk.base]; omega
  rw [hsends.fld (by rw [hreg]; decide), hsends.retraining, fld_setLink_self _ p (by decide), port_setLink, State.onPort, State.port_set_self]
  exact ⟨rfl, rfl⟩

theorem retrainDone_acts (hretraining : (s.port p).retraining = true) :
    (∃ t, exec (.retrainDone p true) s = .next t ∧ t.fld Fd.scecyStateLink p = 2 ∧ (t.port p).retraining = false) ∧
    (max 1 (s.fld Fd.scecyCtrlRetrainLimit p) ≤ (s.port p).fails + 1 →
      ∃ t, exec (.retrainDone p false) s = .next t ∧ t.fld Fd.scecyStateLink p = 0 ∧ t.port p = PortSt.init) ∧
    ((s.port p).fails + 1 < max 1 (s.fld Fd.scecyCtrlRetrainLimit p) →
      ∃ t, exec (.retrainDone p false) s = .next t ∧ (t.port p).fails = (s.port p).fails + 1 ∧ (t.port p).retraining = true) := by
  have hruns : ¬ (!(s.port p).retraining) = true := by rw [hretraining]; decide
  refine ⟨⟨_, congrArg Host.Outcome.next (if_neg hruns), retrained_up⟩, fun hlast => ?_, fun hmore => ?_⟩
  · exact ⟨_, congrArg Host.Outcome.next ((if_neg hruns).trans (if_pos hlast)), link_dropPort s p (by decide), port_dropPort s p 0⟩
  · refine ⟨_, congrArg Host.Outcome.next ((if_neg hruns).trans (if_neg (Nat.not_le.mpr hmore))), ?_⟩
    rw [port_bump, State.onPort, State.port_set_self]
    exact ⟨rfl, hretraining⟩

end

/-- Settles O23: STATE.LINK under a write to CTRL, at the end of training, when a lane is lost and when a retrain begins and ends. -/
theorem scecyPortsTrainAndGoDown : Obligations.ScecyPortsTrainAndGoDown := by
  unfold Obligations.ScecyPortsTrainAndGoDown
  intro who p v pm pp s
  refine ⟨fun hmay => ?_, fun hlink hretraining hreset => portTrained_up hlink hretraining hreset pm pp, portDown_drops, portRetrain_begins,
    retrainDone_acts⟩
  obtain ⟨retrain, hexec⟩ := portEnable_of_mayWrite s who p v hmay
  have hen := enable_ctrlStored s p v
  refine ⟨_, hexec, (enable_portCtrl retrain).trans hen, fun hoff => ?_, fun hon hlink => ?_⟩
  · rw [← link_ctrlStored s p v]
    exact portCtrl_disables (hen.trans hoff) retrain
  · exact portCtrl_trains (hen.trans hon) (by rwa [link_ctrlStored]) retrain

end Sys2Proof.Proofs
end

section
/-! PROOFS. Weaver `Inst`s: the one step that ends an `Inst` or leaves it as it is (R323, R324, R332, R333, R339, R345 to R354). -/

namespace Sys2Proof.Proofs

open Sys2Proof Sys2Proof.Machine Sys2Proof.Claims

/-! ## The one running `Inst` -/

/-- An `Inst` that has begun is the only one; its command runs, and nothing waits to be taken up. -/
structure Running (s : State) (x : Inst) (k : Cmd) : Prop where
  insts : s.weav.insts = [x]
  cmd : s.cmd x.cell x.cmd = some k
  num : k.num = x.cmd
  cancelled : k.cancelled = false
  phase : x.phase ≠ 0

/-- Its command at work, and the `Inst`, as a step takes them up. -/
def workOf (s : State) (x : Inst) (k : Cmd) : WI := ⟨⟨s, x.cell, k, .go⟩, x⟩

/-- Two states of one `Inst`, in one phase. -/
def SameInst (x y : Inst) : Prop := y.t = x.t ∧ y.ch = x.ch ∧ y.num = x.num ∧ y.cell = x.cell ∧ y.cmd = x.cmd ∧ y.phase = x.phase

section
variable {s : State} {x : Inst} {k : Cmd}

theorem instOf_running (h : Running s x k) : s.instOf x.t x.ch x.num = some x := instOf_single h.insts

theorem insts_putInst {y : Inst} (hinsts : s.weav.insts = [x]) (hsame : SameInst x y) : (s.putInst y).weav.insts = [y] := by
  obtain ⟨ht, hch, hnum, -⟩ := hsame
  have hreplaced : x.same y = true := by simp [Inst.same, ht, hch, hnum]
  show s.weav.insts.map _ = _
  rw [hinsts, List.map_singleton, if_pos hreplaced]

/-- An `Inst` that has changed, with its command, is the one that runs. -/
theorem running_putInst (h : Running s x k) {z : State} {y : Inst} {y' : Cmd} (hsame : SameInst x y) (hweav : z.weav.insts = s.weav.insts)
    (hcmd : z.cmd x.cell x.cmd = some y') (hnum : y'.num = x.cmd) (hcancelled : y'.cancelled = false) : Running (z.putInst y) y y' := by
  have hinsts : (z.putInst y).weav.insts = [y] := insts_putInst (hweav.trans h.insts) hsame
  obtain ⟨-, -, -, hcell, hid, hphase⟩ := hsame
  refine ⟨hinsts, ?_, hnum.trans hid.symm, hcancelled, hphase ▸ h.phase⟩
  rw [hcell, hid]
  exact (cmd_congr (State.cells_putInst z y) ..).trans hcmd

/-! ## Steps of an `Inst` -/

theorem weaveStep_running (h : Running s x k) : State.weaveStep x.t x.ch x.num s =
    (x.inbox.find? x.readyFor).elim (workOf s x k).own (fun m => ((workOf s x k).arrive m).commit x) := by
  have hstops : ¬ (k.cancelled && !(decide (x.opcode = 0x0603) && decide (x.phase = 4))) = true := by rw [h.cancelled, Bool.false_and]; decide
  simp only [State.weaveStep, instOf_running h, h.cmd]
  refine (if_neg hstops).trans ((if_neg h.phase).trans ?_)
  cases x.inbox.find? x.readyFor <;> rfl

theorem weaveStep_own (h : Running s x k) (hinbox : x.inbox = []) : State.weaveStep x.t x.ch x.num s = (workOf s x k).own := by
  rw [weaveStep_running h, hinbox, List.find?_nil, Option.elim_none]

/-- The `Inst` is where it cannot go on. -/
theorem weave_stays (h : Running s x k) (hinbox : x.inbox = []) (hown : (workOf s x k).own = (s, false)) : s.weave x = s :=
  steps_of_no_progress ((weaveStep_own h hinbox).trans hown) _

theorem steps_once {f : State → State × Bool} {z : State} (hstep : f s = (z, true)) (hstops : f z = (z, false)) (n : Nat) :
    State.steps f (n + 1) s = z := by
  rw [State.steps, hstep]
  exact steps_of_no_progress hstops n

/-- An `Inst` that goes on by one step. -/
theorem weave_once {z : State} (hstep : State.weaveStep x.t x.ch x.num s = (z, true)) (hstops : State.weaveStep x.t x.ch x.num z = (z, false)) :
    s.weave x = z := steps_once hstep hstops _

theorem weaveStep_without {z : State} (hinsts : z.weav.insts = []) (t ch : Fin 16) (num : Nat) : State.weaveStep t ch num z = (z, false) := by
  simp [State.weaveStep, State.instOf, hinsts]

/-- The `Inst` ends by its own work. -/
theorem weave_ends (h : Running s x k) (hinbox : x.inbox = []) {z : State} (hown : (workOf s x k).own = (z, true)) (hinsts : z.weav.insts = []) :
    s.weave x = z :=
  weave_once ((weaveStep_own h hinbox).trans hown) (weaveStep_without hinsts ..)

/-! ## The end of an `Inst` -/

theorem done_of_go {y : WI} (hgo : y.w.halt = .go) (i : Inst) : y.done i = ((y.w.s.putCmd y.w.c y.w.k).endInst y.i, true) := by
  rw [WI.done, hgo]

theorem commit_of_go {y : WI} (hgo : y.w.halt = .go) (i : Inst) : y.commit i = ((y.w.s.putCmd y.w.c y.w.k).putInst y.i, true) := by
  rw [WI.commit, hgo]

theorem cmd_putCmd_own {z : State} {y : Cmd} (hcmd : z.cmd x.cell x.cmd = some k) (hnum : y.num = x.cmd) :
    (z.putCmd x.cell y).cmd x.cell x.cmd = some y := by
  rw [← hnum] at hcmd ⊢
  exact cmd_putCmd_self hcmd

theorem channelLeft_frame (s : State) (x : Inst) : ∃ r, channelLeft s x = { s with weav := { s.weav with insts := [] }, regs := r } := ⟨_, rfl⟩

/-- A command of the only `Inst`, as its work leaves it, ends with the `Inst`. -/
theorem instEnded_endInst {z : State} {y : Cmd} (hinsts : z.weav.insts = [x]) (hcmd : z.cmd x.cell x.cmd = some k) (hnum : y.num = x.cmd)
    (hop : y.opcode ≠ 0x0702) : InstEnded ((z.putCmd x.cell y).endInst x) z x y := by
  have hput := cmd_putCmd_own hcmd hnum
  have hend : (z.putCmd x.cell y).endInst x = (channelLeft (z.putCmd x.cell y) x).putCmd x.cell (endedBy y none false) :=
    endInsts_single (s := z.putCmd x.cell y) hinsts hput hop none false
  have hended : endedBy y none false = { y with finished := true } := by simp [endedBy]
  have hcmd' := cmd_channelLeft_putCmd (s := z.putCmd x.cell y) (y := { y with finished := true }) hput hnum
  have hregs (o : Nat) (ho : o ≠ Fd.weaverChanInflight.reg 0 (16 * x.t.val + x.ch.val)) := reg_channelLeft (z.putCmd x.cell y) x ho
  obtain ⟨r, hr⟩ := channelLeft_frame (z.putCmd x.cell y) x
  rw [hr] at hcmd' hregs
  rw [hend, hended, hr]
  exact ⟨rfl, hcmd', rfl, rfl, rfl, rfl, rfl, hregs⟩

/-- A write of a command's work that went through. -/
theorem write_of_wentThrough {w : W} {z : State} {a : Nat} {bs : List Byte} (hgo : w.halt = .go)
    (h : WentThrough ((w.s.slicesBefore a bs.length).globalWrite (w.k.ctx w.c) a bs) z) :
    w.write a bs = { w with s := ((w.s.slicesBefore a bs.length).globalWrite (w.k.ctx w.c) a bs).st } := by
  obtain ⟨hfault, hwarn, hwait, -⟩ := h
  exact (if_neg (by simp [W.on, hgo])).trans (took_of_served w hfault hwarn hwait)

end

/-! ## A command and its `Inst` -/

section
variable {s : State} {x : Inst} {k : Cmd} {c : Fin 256} {op ph : Nat}

theorem running_of_atPhase (h : AtPhase s x k c op ph) (hph : ph ≠ 0) : Running s x k := by
  obtain ⟨hinsts, -, hphase, -, -, -, hcell, hcmd, hnum, -, hcancelled, -⟩ := h
  exact ⟨hinsts, hcell ▸ hcmd, hnum, hcancelled, hphase ▸ hph⟩

theorem weaveCmd_at (h : AtPhase s x k c op ph) : s.weaveCmd c x.cmd op = s.weave x := by
  obtain ⟨hinsts, hop, -, -, -, -, hcell, -, -, -, -, hdead⟩ := h
  simp [State.weaveCmd, State.instAt, hinsts, hcell, hop, hdead]

end

end Sys2Proof.Proofs
end

section
/-! PROOFS. Weaver commands at their end (R323, R339, R346, R347, R349, R351, R353). -/

namespace Sys2Proof.Proofs

open Sys2Proof Sys2Proof.Machine Sys2Proof.Claims

/-! ## Commands whose exchange is done -/

section
variable {s : State} {x : Inst} {k : Cmd} {c : Fin 256} {op ph : Nat}

/-- An `Inst` that its own work ends, with memory and registers as in z and its command as y. -/
theorem weave_done (h : Running s x k) (hinbox : x.inbox = []) {z : State} {y : Cmd} {i : Inst}
    (hown : (workOf s x k).own = (⟨⟨z, x.cell, y, .go⟩, x⟩ : WI).done i) (hweav : z.weav = s.weav) (hcells : z.cells = s.cells)
    (hnum : y.num = x.cmd) (hop : y.opcode ≠ 0x0702) : InstEnded (s.weave x) z x y := by
  rw [done_of_go rfl] at hown
  have hended : InstEnded ((z.putCmd x.cell y).endInst x) z x y :=
    instEnded_endInst ((congrArg WeavSt.insts hweav).trans h.insts) ((cmd_congr hcells ..).trans h.cmd) hnum hop
  rwa [weave_ends h hinbox hown hended.1]

theorem vote_ends (h : AtPhase s x k c 0x0605 4) : let bs := x.words.flatMap (fun v => leBytes 8 v.toNat)
    let g := (s.slicesBefore (k.addr 48) bs.length).globalWrite (k.ctx c) (k.addr 48) bs
    WentThrough g s → ∃ t, exec (.vote c x.cmd) s = .next t ∧ InstEnded t g.st x (movedBy k bs.length) := by
  have hruns := running_of_atPhase h (by decide)
  have hcmd : exec (.vote c x.cmd) s = .next (s.weave x) := congrArg Host.Outcome.next (weaveCmd_at h)
  obtain ⟨-, hop, hphase, hinbox, -, hheld, hcell, -, hnum, hopcode, -⟩ := h
  rw [← hcell]
  intro bs g hg
  have hwrite := write_of_wentThrough (w := ⟨s, x.cell, k, .go⟩) rfl hg
  obtain ⟨-, -, -, hweav, hcells⟩ := hg
  have hop' : (movedBy k bs.length).opcode ≠ 0x0702 := by
    rw [show (movedBy k bs.length).opcode = k.opcode from rfl, hopcode]
    decide
  refine ⟨_, hcmd, weave_done (i := x) hruns hinbox ?_ hweav hcells hnum hop'⟩
  simp only [workOf, WI.own, hop, WI.voteStep, hphase, hheld, List.isEmpty_nil, Bool.not_true, Bool.false_eq_true, if_false]
  exact congrArg (fun w1 : W => (⟨if w1.on then w1.moved bs.length else w1, x⟩ : WI).done x) hwrite

/-- A GATHER that has nothing to send ends where its shard has left for every member and every tag has been handled (R349). -/
theorem gatherStep_own (hop : x.opcode = 0x0602) (hphase : x.phase = 2) (hnext : x.nextPeer = none) : (workOf s x k).own =
    if x.landed.length = x.group.length ∧ x.passed.length = x.peers.length then (⟨⟨s, x.cell, k, .go⟩, x⟩ : WI).done x else (s, false) := by
  simp only [workOf, WI.own, hop, WI.gatherStep, hphase, hnext, Bool.and_eq_true]
  exact if_congr (and_congr (decide_eq_true_iff ..) (decide_eq_true_iff ..)) rfl rfl

theorem gather_ends (h : AtPhase s x k c 0x0602 2) (hnext : x.nextPeer = none) :
    let all := x.landed.length = x.group.length ∧ x.passed.length = x.peers.length
    (all → ∃ t, exec (.gather c x.cmd) s = .next t ∧ InstEnded t s x k) ∧ (¬ all → ∃ t, exec (.gather c x.cmd) s = .next t ∧ InstKept t s x) := by
  intro all
  have hruns := running_of_atPhase h (by decide)
  have hcmd : exec (.gather c x.cmd) s = .next (s.weave x) := congrArg Host.Outcome.next (weaveCmd_at h)
  obtain ⟨-, hop, hphase, hinbox, -, -, -, -, hnum, hopcode, -⟩ := h
  have hown : (workOf s x k).own = _ := gatherStep_own hop hphase hnext
  refine ⟨fun hall => ?_, fun hall => ?_⟩
  · exact ⟨_, hcmd, weave_done hruns hinbox (hown.trans (if_pos hall)) rfl rfl hnum (by rw [hopcode]; decide)⟩
  · rw [weave_stays hruns hinbox (hown.trans (if_neg hall))] at hcmd
    exact ⟨_, hcmd, hruns.insts, rfl, rfl, rfl, rfl⟩

/-- Without moves the end of a PERMUTE sets the layout epoch alone (R351). -/
theorem permuteEnd_of_noMoves (hwords : x.words = []) : (workOf s x k).permuteEnd =
    ⟨⟨s.setFld Fd.weaverLayoutEpoch 0 x.t (k.u 36 4), x.cell, k, .go⟩, x⟩ := by
  have hinbound : x.inbound = [] := by simp [Inst.inbound, Inst.moves, hwords]
  simp only [WI.permuteEnd, workOf, hinbound, List.foldl_nil]
  rfl

theorem permute_ends (h : AtPhase s x k c 0x0603 1) (hnone : k.u 32 4 = 0) (hwords : x.words = []) :
    ∃ t, exec (.permute c x.cmd) s = .next t ∧ InstEnded t (s.setFld Fd.weaverLayoutEpoch 0 x.t (k.u 36 4)) x k := by
  have hruns := running_of_atPhase h (by decide)
  have hcmd : exec (.permute c x.cmd) s = .next (s.weave x) := congrArg Host.Outcome.next (weaveCmd_at h)
  obtain ⟨-, hop, hphase, hinbox, -, -, -, -, hnum, hopcode, -⟩ := h
  refine ⟨_, hcmd, weave_done (i := x) hruns hinbox ?_ (State.weav_setFld ..) (State.cells_setFld ..) hnum (by rw [hopcode]; decide)⟩
  have hmoves : (workOf s x k).w.k.movesNone = true := by simp [workOf, Cmd.movesNone, hopcode, hnone]
  rw [← permuteEnd_of_noMoves hwords]
  simp only [WI.own, show (workOf s x k).i = x from rfl, hop, WI.permuteStep, hphase, hmoves, if_true]

theorem permutePhase2_ends (h : AtPhase s x k c 0x0603 4) (hwords : x.words = []) :
    ∃ t, exec (.permutePhase2 x.t x.ch x.num) s = .next t ∧ InstEnded t (s.setFld Fd.weaverLayoutEpoch 0 x.t (k.u 36 4)) x k := by
  have hruns := running_of_atPhase h (by decide)
  obtain ⟨-, hop, hphase, -, -, hheld, -, -, hnum, hopcode, -⟩ := h
  have hexec : exec (.permutePhase2 x.t x.ch x.num) s = .next ((workOf s x k).permuteEnd.done x).1 := by
    refine congrArg Host.Outcome.next ?_
    simp only [instOf_running hruns, hruns.cmd]
    exact if_pos ⟨hop, hphase, by rw [hheld]; rfl⟩
  rw [permuteEnd_of_noMoves hwords, done_of_go rfl] at hexec
  exact ⟨_, hexec, instEnded_endInst ((congrArg WeavSt.insts (State.weav_setFld ..)).trans hruns.insts)
    ((cmd_congr (State.cells_setFld ..) ..).trans hruns.cmd) hnum (by rw [hopcode]; decide)⟩

/-- The source of an MCAST at the end of its stream: it goes on where no receiver holds it back (R323, R354). -/
theorem mcSource_end (hop : x.opcode = 0x0604) (hme : x.me = 0) (hsent : x.sent = k.u 32 5) (hheld : x.held = []) : (workOf s x k).own =
    if k.u 32 5 ≤ x.leastCredit (k.u 32 5) then
      (⟨(⟨s, x.cell, k, .go⟩ : W).write (k.addr 56) x.detachList, x⟩ : WI).done x
    else (s, false) := by
  simp only [workOf, WI.own, hop, WI.mcastStep, hme, if_true, WI.mcSource, hsent, Nat.lt_irrefl, if_false, hheld, and_true]

theorem mcast_ends (h : AtPhase s x k c 0x0604 ph) (hph : ph ≠ 0) (hme : x.me = 0) (hsent : x.sent = k.u 32 5)
    (hleast : k.u 32 5 ≤ x.leastCredit (k.u 32 5)) :
    let g := (s.slicesBefore (k.addr 56) x.detachList.length).globalWrite (k.ctx c) (k.addr 56) x.detachList
    WentThrough g s → ∃ t, exec (.mcast c x.cmd) s = .next t ∧ InstEnded t g.st x k := by
  have hruns := running_of_atPhase h hph
  have hcmd : exec (.mcast c x.cmd) s = .next (s.weave x) := congrArg Host.Outcome.next (weaveCmd_at h)
  obtain ⟨-, hop, -, hinbox, -, hheld, hcell, -, hnum, hopcode, -⟩ := h
  rw [← hcell]
  intro g hg
  have hwrite := write_of_wentThrough (w := ⟨s, x.cell, k, .go⟩) rfl hg
  obtain ⟨-, -, -, hweav, hcells⟩ := hg
  refine ⟨_, hcmd, weave_done (i := x) hruns hinbox ?_ hweav hcells hnum (by rw [hopcode]; decide)⟩
  exact (mcSource_end hop hme hsent hheld).trans ((if_pos hleast).trans (congrArg (fun w : W => (⟨w, x⟩ : WI).done x) hwrite))

theorem redEnd_of_write {z : State} (hwrite : (workOf s x k).w.write (k.addr 88) (leBytes 4 (b2n x.flag)) = ⟨z, x.cell, k, .go⟩) :
    (workOf s x k).redEnd = ⟨⟨if x.flag then z.bump Fd.weaverNonfiniteCnt else z, x.cell, k, .go⟩, x⟩ := by
  have hwrite' : (workOf s x k).w.write ((workOf s x k).w.k.addr 88) (leBytes 4 (b2n (workOf s x k).i.flag)) = ⟨z, x.cell, k, .go⟩ := hwrite
  simp only [WI.redEnd, hwrite', W.on, decide_true, Bool.true_and]
  cases hflag : x.flag <;> simp [workOf, hflag]

theorem reduce_ends (h : AtPhase s x k c 0x0601 6) (hsend : (WI.mk (W.mk s c k .go) x).redSend = WI.mk (W.mk s c k .go) x)
    (hpassed : x.allPassed k = true) :
    let g := (s.slicesBefore (k.addr 88) 4).globalWrite (k.ctx c) (k.addr 88) (leBytes 4 (b2n x.flag))
    WentThrough g s → ∃ t, exec (.reduce c x.cmd) s = .next t ∧
      InstEnded t (if x.flag then g.st.bump Fd.weaverNonfiniteCnt else g.st) x k := by
  have hruns := running_of_atPhase h (by decide)
  have hcmd : exec (.reduce c x.cmd) s = .next (s.weave x) := congrArg Host.Outcome.next (weaveCmd_at h)
  obtain ⟨-, hop, hphase, hinbox, -, -, hcell, -, hnum, hopcode, -⟩ := h
  rw [← hcell] at hsend ⊢
  intro g hg
  have hwrite := write_of_wentThrough (w := ⟨s, x.cell, k, .go⟩) (a := k.addr 88) (bs := leBytes 4 (b2n x.flag)) (z := s) rfl hg
  obtain ⟨-, -, -, hweav, hcells⟩ := hg
  have hown : (workOf s x k).own = (workOf s x k).redEnd.done x := by
    simp only [workOf, WI.own, hop, WI.redStep, hphase, hsend, hpassed, ne_eq, not_true_eq_false, if_false, if_true]
  have hend : (workOf s x k).redEnd = ⟨⟨if x.flag then g.st.bump Fd.weaverNonfiniteCnt else g.st, x.cell, k, .go⟩, x⟩ :=
    redEnd_of_write hwrite
  refine ⟨_, hcmd, weave_done (i := x) hruns hinbox (hown.trans (congrArg (fun y : WI => y.done x) hend)) ?_ ?_ hnum (by rw [hopcode]; decide)⟩
  · cases x.flag
    · exact hweav
    · exact (State.weav_bump ..).trans hweav
  · cases x.flag
    · exact hcells
    · exact (State.cells_bump ..).trans hcells

theorem weaverCommandsEnd : WeaverCommandsEnd := fun _ _ _ _ =>
  ⟨vote_ends, gather_ends, permute_ends, permutePhase2_ends, fun _ => mcast_ends, reduce_ends⟩

end

end Sys2Proof.Proofs
end

section
/-! PROOFS. What arrives for a running Weaver `Inst`, and its timeouts (R323, R324, R332, R333, R345, R349). -/

namespace Sys2Proof.Proofs

open Sys2Proof Sys2Proof.Machine Sys2Proof.Claims

section
variable {s : State} {x : Inst} {k : Cmd} {c : Fin 256} {op ph : Nat}

/-! ## A GATHER: grants and tags (R332, R349) -/

/-- A GATHER with nothing to send, and not done, stays. -/
theorem gather_stays (h : Running s x k) (hop : x.opcode = 0x0602) (hphase : x.phase = 2) (hinbox : x.inbox = []) (hnext : x.nextPeer = none)
    (hopen : ¬ (x.landed.length = x.group.length ∧ x.passed.length = x.peers.length)) : s.weave x = s :=
  weave_stays h hinbox ((gatherStep_own hop hphase hnext).trans (if_neg hopen))

/-- A grant of an `Inst` that holds nothing back. -/
theorem takeGrant_own (hop : x.opcode = 0x0602) (hheld : x.held = []) (m : Nat) : (workOf s x k).takeGrant m 0x0602 =
    workOf s { x with grants := m :: x.grants.filter (fun y => decide (y ≠ m)) } k := by
  simp only [WI.takeGrant, workOf, hop, hheld, List.filter_nil, List.foldl_nil]
  rw [← hheld]
  rfl

theorem takeGrant_other {opcode : BitVec 16} (hop : opcode.toNat ≠ x.opcode) (m : Nat) : (workOf s x k).takeGrant m opcode =
    ⟨⟨s.bump Fd.weaverSeqMismatchCnt, x.cell, k, .go⟩, x⟩ := if_pos hop

/-- A member whose grant comes is one that the shard has left for, or no peer. -/
theorem nextPeer_grants {m : Nat} (hm : m ∈ x.passed ∨ m ∉ x.peers) (hnext : x.nextPeer = none) :
    ({ x with grants := m :: x.grants.filter (fun y => decide (y ≠ m)) } : Inst).nextPeer = none := by
  have hall := List.find?_eq_none.mp hnext
  refine List.find?_eq_none.mpr fun j hj hsend => hall j hj ?_
  have hpeer : j ∈ x.peers := hj
  have hsend' : (j = m ∨ j ∈ x.grants ∧ j ≠ m) ∧ j ∉ x.passed := by simpa using hsend
  obtain ⟨rfl | ⟨hgrant, -⟩, hopen⟩ := hsend'
  · exact absurd hm (by simp [hpeer, hopen])
  · simp [hgrant, hopen]

theorem execGrant_running (hreset : ∀ u, u < 2 → s.inReset .weaver 0 u = false) (h : Running s x k) (m : Nat) (opcode : BitVec 16) :
    let y := (workOf s x k).takeGrant m opcode
    exec (.weaverCreditGrant x.t x.ch x.num m opcode) s = .next ((y.w.s.putInst y.i).weave y.i) := by
  have hlive : ¬ s.inReset .weaver 0 (x.ch.val / 8) = true := by rw [hreset _ (by omega)]; decide
  refine congrArg Host.Outcome.next ((if_neg hlive).trans ?_)
  simp only [instOf_running h, h.cmd]
  rfl

theorem grant_noted (hreset : ∀ u, u < 2 → s.inReset .weaver 0 u = false) (h : AtPhase s x k c 0x0602 2) (hnext : x.nextPeer = none)
    (m : Nat) (opcode : BitVec 16) (hopen : ¬ (x.landed.length = x.group.length ∧ x.passed.length = x.peers.length)) :
    (opcode = 0x0602 → (m ∈ x.passed ∨ m ∉ x.peers) → ∃ t, exec (.weaverCreditGrant x.t x.ch x.num m opcode) s = .next t ∧
      InstKept t s { x with grants := m :: x.grants.filter (fun y => decide (y ≠ m)) }) ∧
    (opcode ≠ 0x0602 → ∃ t, exec (.weaverCreditGrant x.t x.ch x.num m opcode) s = .next t ∧ t.weav = s.weav ∧
      t.fld Fd.weaverSeqMismatchCnt = min (2 ^ Fd.weaverSeqMismatchCnt.w - 1) (s.fld Fd.weaverSeqMismatchCnt + 1)) := by
  have hruns := running_of_atPhase h (by decide)
  have hexec := execGrant_running hreset hruns m opcode
  obtain ⟨hinsts, hop, hphase, hinbox, -, hheld, -⟩ := h
  refine ⟨fun hcode hm => ?_, fun hcode => ?_⟩
  · subst hcode
    rw [takeGrant_own hop hheld] at hexec
    let y := { x with grants := m :: x.grants.filter (fun y => decide (y ≠ m)) }
    have hrunsY : Running (s.putInst y) y k := running_putInst hruns ⟨rfl, rfl, rfl, rfl, rfl, rfl⟩ rfl hruns.cmd hruns.num hruns.cancelled
    have hstays : (s.putInst y).weave y = s.putInst y := gather_stays hrunsY hop hphase hinbox (nextPeer_grants hm hnext) hopen
    exact ⟨_, hexec.trans (congrArg Host.Outcome.next hstays), hrunsY.insts, rfl, rfl, rfl, rfl⟩
  · have hother : opcode.toNat ≠ x.opcode := fun e => hcode (BitVec.eq_of_toNat_eq (e.trans hop))
    rw [takeGrant_other hother] at hexec
    let z := s.bump Fd.weaverSeqMismatchCnt
    have hweav : z.weav = s.weav := State.weav_bump ..
    have hrunsZ : Running (z.putInst x) x k := running_putInst hruns ⟨rfl, rfl, rfl, rfl, rfl, rfl⟩ (congrArg WeavSt.insts hweav)
      ((cmd_congr (State.cells_bump ..) ..).trans hruns.cmd) hruns.num hruns.cancelled
    have hstays : (z.putInst x).weave x = z.putInst x := gather_stays hrunsZ hop hphase hinbox hnext hopen
    refine ⟨_, hexec.trans (congrArg Host.Outcome.next hstays), ?_, (fld_congr rfl).trans (fld_bump_self _ (by decide) (by decide) ..)⟩
    have hput : (z.putInst x).weav = { z.weav with insts := [x] } := congrArg (fun l => { z.weav with insts := l }) hrunsZ.insts
    rw [hput, hweav, ← hinsts]

/-- With LOGMODE 0 a tag is handled by noting it (R349). -/
theorem handleTag_noted (hmode : k.u 72 1 % 4 = 0) (j : Nat) (tag : Nat × Nat × Nat) : (workOf s x k).handleTag j tag =
    workOf s { x with landed := x.landed ++ [j], tags := x.tags.filter (fun y => decide (y.1 ≠ j)) } k := by
  simp only [WI.handleTag, workOf, hmode]

theorem shardLanded_noted (h : AtPhase s x k c 0x0602 2) (hnext : x.nextPeer = none) (j : Nat) (tag : Nat × Nat × Nat × Nat)
    (htag : x.tags.find? (fun y => decide (y.1 = j)) = some tag) (hmode : k.u 72 1 % 4 = 0)
    (hopen : ¬ (x.landed.length + 1 = x.group.length ∧ x.passed.length = x.peers.length)) :
    ∃ t, exec (.shardLanded x.t x.ch x.num j) s = .next t ∧
      InstKept t s { x with landed := x.landed ++ [j], tags := x.tags.filter (fun y => decide (y.1 ≠ j)) } := by
  have hruns := running_of_atPhase h (by decide)
  obtain ⟨-, hop, hphase, hinbox, -⟩ := h
  let y := { x with landed := x.landed ++ [j], tags := x.tags.filter (fun y => decide (y.1 ≠ j)) }
  let z := (s.putCmd x.cell k).putInst y
  have hput : (s.putCmd x.cell k).cmd x.cell x.cmd = some k := cmd_putCmd_own hruns.cmd hruns.num
  have hrunsZ : Running z y k := running_putInst hruns ⟨rfl, rfl, rfl, rfl, rfl, rfl⟩ rfl hput hruns.num hruns.cancelled
  have hstays : z.weave y = z := gather_stays hrunsZ hop hphase hinbox hnext
    (by rw [show y.landed.length = x.landed.length + 1 from List.length_append]; exact hopen)
  have hcommit : ((workOf s x k).handleTag j tag.2).commit x = (z, true) := by rw [handleTag_noted hmode, commit_of_go rfl]; rfl
  have hexec : exec (.shardLanded x.t x.ch x.num j) s = .next (z.weave y) := by
    refine congrArg Host.Outcome.next ?_
    have hfound : z.instOf x.t x.ch x.num = some y := instOf_running hrunsZ
    simp only [instOf_running hruns, hruns.cmd, htag]
    refine (if_pos hop).trans ?_
    show (match (((workOf s x k).handleTag j tag.2).commit x).1.instOf x.t x.ch x.num with
      | some y => (((workOf s x k).handleTag j tag.2).commit x).1.weave y
      | none => (((workOf s x k).handleTag j tag.2).commit x).1) = _
    rw [hcommit, hfound]
  exact ⟨_, hexec.trans (congrArg Host.Outcome.next hstays), hrunsZ.insts, rfl, rfl, rfl, rfl⟩

/-! ## Changing an `Inst` and going on (R323, R345) -/

theorem onInst_running (h : Running s x k) (f : Inst → Inst) : s.onInst x.t x.ch x.num f = (s.putInst (f x)).weave (f x) := by
  rw [State.onInst, instOf_running h]

/-- A PERMUTE whose moves have not all come stays. -/
theorem permute_stays (h : Running s x k) (hop : x.opcode = 0x0603) (hphase : x.phase = 2) (hinbox : x.inbox = [])
    (hin : x.inbound.all (fun e => x.landed.contains e) = false) (hout : x.outbound.all (fun e => x.passed.contains e) = true) :
    State.weaveStep x.t x.ch x.num s = (s, false) := by
  have hsent : x.outbound.filter (fun e => !x.passed.contains e) = [] := by
    rw [List.filter_eq_nil_iff]
    intro e he
    simpa using List.all_eq_true.mp hout e he
  rw [weaveStep_own h hinbox]
  simp only [workOf, WI.own, hop, WI.permuteStep, hphase, hsent, List.find?_nil, hin, Bool.and_false, Bool.false_eq_true, if_false]

/-- Taking up a landing vote from below. -/
theorem arrive_landed {m : CollMsg} (hepoch : m.epoch.toNat = s.layoutEpoch x.t) (hbody : m.body = .landed true)
    (hbelow : x.above.map (fun e => e.2) ≠ some m.sender) : (workOf s x k).arrive m =
      workOf s { x with inbox := x.inbox.erase m, got := x.got ++ [(m.stage, voteShard, m.sender)] } k := by
  refine (if_neg (not_not.mpr hepoch)).trans ?_
  rw [hbody]
  exact if_neg (mt of_decide_eq_true hbelow)

/-- A landing vote from below is noted (R351). -/
theorem vote_noted (hreset : ∀ u, u < 2 → s.inReset .weaver 0 u = false) (h : AtPhase s x k c 0x0603 2)
    (hin : x.inbound.all (fun e => x.landed.contains e) = false) (hout : x.outbound.all (fun e => x.passed.contains e) = true)
    {m : CollMsg} (ht : m.t = x.t) (hch : m.ch = x.ch) (hnum : m.num = x.num) (hepoch : m.epoch.toNat = s.layoutEpoch x.t)
    (hbody : m.body = .landed true) (hbelow : x.above.map (fun e => e.2) ≠ some m.sender) :
    ∃ t, exec (.collective m) s = .next t ∧ InstKept t s { x with got := x.got ++ [(m.stage, voteShard, m.sender)] } := by
  have hruns := running_of_atPhase h (by decide)
  obtain ⟨-, hop, hphase, hinbox, -⟩ := h
  let y := { x with inbox := [m] }
  let y' := { x with got := x.got ++ [(m.stage, voteShard, m.sender)] }
  let z := ((s.putInst y).putCmd x.cell k).putInst y'
  have hrunsY : Running (s.putInst y) y k := running_putInst hruns ⟨rfl, rfl, rfl, rfl, rfl, rfl⟩ rfl hruns.cmd hruns.num hruns.cancelled
  have hput : ((s.putInst y).putCmd x.cell k).cmd x.cell x.cmd = some k := cmd_putCmd_own hrunsY.cmd hruns.num
  have hrunsZ : Running z y' k := running_putInst hrunsY ⟨rfl, rfl, rfl, rfl, rfl, rfl⟩ rfl hput hruns.num hruns.cancelled
  have hready : y.inbox.find? y.readyFor = some m := by
    have : y.readyFor m = true := by simp [y, Inst.readyFor, hbody, hphase]
    simp [y, this]
  have harrive : (workOf (s.putInst y) y k).arrive m = workOf (s.putInst y) y' k := by
    rw [arrive_landed (s := s.putInst y) (x := y) hepoch hbody hbelow]
    simp [y, y', hinbox]
  have hexec : exec (.collective m) s = .next ((s.putInst y).weave y) := by
    have hlive : ¬ s.inReset .weaver 0 (m.ch.val / 8) = true := by rw [hreset _ (by omega)]; decide
    refine congrArg Host.Outcome.next ((if_neg hlive).trans ?_)
    rw [ht, hch, hnum, onInst_running hruns, hinbox]
    rfl
  have hstep : State.weaveStep y.t y.ch y.num (s.putInst y) = (z, true) := by
    rw [weaveStep_running hrunsY, hready, Option.elim_some, harrive, commit_of_go rfl]
    rfl
  rw [weave_once hstep (permute_stays (x := y') hrunsZ hop hphase hinbox hin hout)] at hexec
  exact ⟨_, hexec, hrunsZ.insts, rfl, rfl, rfl, rfl⟩

/-! ## An MCAST: packets, counts and what is detached (R323, R324) -/

/-- A receiver of which bytes are still to come stays. -/
theorem receiver_stays (h : Running s x k) (hop : x.opcode = 0x0604) (hinbox : x.inbox = []) (hmbox : x.mbox = []) (hme : x.me ≠ 0)
    (hopen : x.streamed < k.u 32 5) : State.weaveStep x.t x.ch x.num s = (s, false) := by
  rw [weaveStep_own h hinbox]
  simp only [workOf, WI.own, hop, WI.mcastStep, hme, hmbox, if_false]
  exact if_neg (fun hdone => absurd hdone.1 (Nat.not_le.mpr hopen))

/-- The contiguous count after a first packet. -/
theorem streamed_first {m : McastMsg} (hranges : x.ranges = [(m.off, m.off + m.bytes.length)]) :
    x.streamed = if m.off = 0 then m.bytes.length else 0 := by
  simp only [Inst.streamed, hranges, List.length_singleton, contiguous, List.foldl_cons, List.foldl_nil]
  by_cases hoff : m.off = 0
  · simp only [hoff]
    split_ifs <;> omega
  · simp [hoff]

/-- A receiver that has written a packet passes it on to some members and reports its count to the source (R323). -/
def mcPass (x : WI) (m : McastMsg) (dsts : List Nat) : WI :=
  let y := x.mcSend m.fanout m.off m.bytes dsts
  { y with w := { y.w with
    s := y.w.s.sendMsg (x.i.module 0) (.credit ⟨x.i.t, x.i.ch, x.i.num, x.i.me, x.i.streamed⟩) none (some (x.i.cell, x.i.cmd)) } }

/-- A packet at a leaf, once it is written (R323, R353). -/
theorem mcLand_leaf {m : McastMsg} {z : State} (hepoch : m.epoch.toNat = s.layoutEpoch x.t) (hchildren : x.children m.fanout x.me = [])
    (hwrite : (⟨s, x.cell, k, .go⟩ : W).write ((k.addr 40 + m.off) % 2 ^ 48) m.bytes = ⟨z, x.cell, k, .go⟩) {y : Inst}
    (hy : y = { x with ranges := x.ranges ++ [(m.off, m.off + m.bytes.length)], mbox := x.mbox.drop 1 }) :
    (workOf s x k).mcLand m = (((z.sendMsg (x.module 0) (.credit ⟨x.t, x.ch, x.num, x.me, y.streamed⟩) none (some (x.cell, x.cmd))).putCmd x.cell
      { k with bytes := y.streamed }).putInst y, true) := by
  let w := (⟨s, x.cell, k, .go⟩ : W).write ((k.addr 40 + m.off) % 2 ^ 48) m.bytes
  have hepoch' : ¬ m.epoch.toNat ≠ (workOf s x k).w.s.layoutEpoch x.t := not_not.mpr hepoch
  have hon : ¬ (!w.on) = true := by rw [show w = _ from hwrite]; exact Bool.false_ne_true
  have hlands : (workOf s x k).mcLand m = (mcPass ⟨{ w with k := { w.k with bytes := y.streamed } }, y⟩ m (x.children m.fanout x.me)).commit x := by
    subst hy
    exact (if_neg hepoch').trans (if_neg hon)
  rw [hlands, hchildren, show w = _ from hwrite]
  subst hy
  exact commit_of_go rfl x

theorem mcastStep_receives (hop : x.opcode = 0x0604) (hme : x.me ≠ 0) {m : McastMsg} (hmbox : x.mbox = [m]) :
    (workOf s x k).own = (workOf s x k).mcLand m := by
  simp only [workOf, WI.own, hop, WI.mcastStep, hme, if_false, hmbox]

theorem execMcastData_running (h : Running s x k) (hop : x.opcode = 0x0604) {m : McastMsg} (ht : m.t = x.t) (hch : m.ch = x.ch)
    (hnum : m.num = x.num) : let y : Inst := { x with mbox := x.mbox ++ [m] }
    exec (.mcastData m) s = .next ((s.putInst y).weave y) := by
  refine congrArg Host.Outcome.next ?_
  simp only [ht, hch, hnum, instOf_running h]
  exact (if_pos hop).trans (onInst_running h _)

/-- MCAST_DATA at a leaf that has written nothing so far (R323, R353). -/
theorem mcastData_lands (h : AtPhase s x k c 0x0604 ph) (hph : ph ≠ 0) {m : McastMsg} (ht : m.t = x.t) (hch : m.ch = x.ch) (hnum : m.num = x.num)
    (hme : x.me ≠ 0) (hchildren : x.children m.fanout x.me = []) (hepoch : m.epoch.toNat = s.layoutEpoch x.t) (hranges : x.ranges = []) :
    let got := if m.off = 0 then m.bytes.length else 0
    let z := s.putInst { x with mbox := [m] }
    let a := (k.addr 40 + m.off) % 2 ^ 48
    let g := (z.slicesBefore a m.bytes.length).globalWrite (k.ctx c) a m.bytes
    got < k.u 32 5 → WentThrough g z → ∃ t, exec (.mcastData m) s = .next t ∧ t.bulk = g.st.bulk ∧ t.stores = g.st.stores ∧
      t.scache = g.st.scache ∧
      t.fab.transit = (g.st.sendMsg (x.module 0) (.credit ⟨x.t, x.ch, x.num, x.me, got⟩) none (some (x.cell, x.cmd))).fab.transit ∧
      t.weav.insts = [{ x with ranges := [(m.off, m.off + m.bytes.length)] }] ∧ t.cmd c x.cmd = some { k with bytes := got } := by
  have hruns := running_of_atPhase h hph
  obtain ⟨-, hop, -, hinbox, hmbox, hheld, hcell, -, -, -, hcancelled, -⟩ := h
  rw [← hcell]
  intro got z a g hopen hg
  let y : Inst := { x with mbox := [m] }
  let y' : Inst := { x with ranges := [(m.off, m.off + m.bytes.length)] }
  let k' : Cmd := { k with bytes := got }
  let s1 := g.st.sendMsg (x.module 0) (.credit ⟨x.t, x.ch, x.num, x.me, got⟩) none (some (x.cell, x.cmd))
  let t := (s1.putCmd x.cell k').putInst y'
  have hstreamed : y'.streamed = got := streamed_first rfl
  have hwrite := write_of_wentThrough (w := ⟨z, x.cell, k, .go⟩) rfl hg
  obtain ⟨-, -, -, hweav, hcells⟩ := hg
  obtain ⟨f, hf⟩ : ∃ f, s1 = { g.st with fab := f } := State.send_msg_frame ..
  have hrunsZ : Running z y k := running_putInst hruns ⟨rfl, rfl, rfl, rfl, rfl, rfl⟩ rfl hruns.cmd hruns.num hruns.cancelled
  have hcmd : s1.cmd x.cell x.cmd = some k := by
    rw [hf]
    exact (cmd_congr hcells ..).trans hrunsZ.cmd
  have hrunsT : Running t y' k' := running_putInst hrunsZ ⟨rfl, rfl, rfl, rfl, rfl, rfl⟩ (by rw [hf]; exact congrArg WeavSt.insts hweav)
    (cmd_putCmd_own hcmd hruns.num) hruns.num hcancelled
  have hstep : State.weaveStep y.t y.ch y.num z = (t, true) := by
    rw [weaveStep_own hrunsZ hinbox, mcastStep_receives (x := y) hop hme rfl,
      mcLand_leaf (s := z) (x := y) (y := y') hepoch hchildren hwrite (by simp [y, y', hranges, hmbox]), hstreamed]
    rfl
  have hstops : State.weaveStep y.t y.ch y.num t = (t, false) := receiver_stays (x := y') hrunsT hop hinbox hmbox hme (by rw [hstreamed]; exact hopen)
  have hexec : exec (.mcastData m) s = .next (z.weave y) := by
    have harrives := execMcastData_running hruns hop ht hch hnum
    rw [hmbox] at harrives
    exact harrives
  rw [weave_once hstep hstops] at hexec
  have hkept : t.bulk = s1.bulk ∧ t.stores = s1.stores ∧ t.scache = s1.scache := ⟨rfl, rfl, rfl⟩
  rw [hf] at hkept
  obtain ⟨hbulk, hstores, hscache⟩ := hkept
  exact ⟨_, hexec, hbulk, hstores, hscache, rfl, hrunsT.insts, hrunsT.cmd⟩

/-- A source whose stream is sent and held back stays. -/
theorem source_stays (h : Running s x k) (hop : x.opcode = 0x0604) (hinbox : x.inbox = []) (hme : x.me = 0) (hsent : x.sent = k.u 32 5)
    (hheld : x.held = []) (hback : x.leastCredit (k.u 32 5) < k.u 32 5) : s.weave x = s :=
  weave_stays h hinbox ((mcSource_end hop hme hsent hheld).trans (if_neg (Nat.not_le.mpr hback)))

/-- The count of a receiver that does not end the stream is noted (R323). -/
theorem mcastCredit_noted (h : AtPhase s x k c 0x0604 ph) (hph : ph ≠ 0) (hme : x.me = 0) (hsent : x.sent = k.u 32 5) {m : McastCreditMsg}
    (ht : m.t = x.t) (hch : m.ch = x.ch) (hnum : m.num = x.num) (hattached : m.member ∈ x.attached) :
    let y := { x with credits := Tab.set (fun _ => 0) x.credits m.member (max (x.creditOf m.member) m.count) }
    y.leastCredit (k.u 32 5) < k.u 32 5 → ∃ t, exec (.mcastCredit m) s = .next t ∧ InstKept t s y := by
  have hruns := running_of_atPhase h hph
  obtain ⟨-, hop, -, hinbox, -, hheld, -⟩ := h
  intro y hback
  have hrunsY : Running (s.putInst y) y k := running_putInst hruns ⟨rfl, rfl, rfl, rfl, rfl, rfl⟩ rfl hruns.cmd hruns.num hruns.cancelled
  have hexec : exec (.mcastCredit m) s = .next ((s.putInst y).weave y) := by
    refine congrArg Host.Outcome.next ?_
    rw [ht, hch, hnum, onInst_running hruns, if_pos (List.contains_iff_mem.mpr hattached)]
  rw [source_stays hrunsY hop hinbox hme hsent hheld hback] at hexec
  exact ⟨_, hexec, hrunsY.insts, rfl, rfl, rfl, rfl⟩

/-- Without its `Inst` a grant is kept for one that is still to come, and a packet of a stream is counted (R324, R332). -/
theorem noted_without_inst (hreset : ∀ u, u < 2 → s.inReset .weaver 0 u = false) (hinsts : s.weav.insts = []) (t ch : Fin 16) (num m : Nat)
    (opcode : BitVec 16) (d : McastMsg) :
    ((num + 2 ^ 32 - s.fld Fd.weaverChanSeq 0 (16 * t.val + ch.val)) % 2 ^ 32 < 2 ^ 31 → exec (.weaverCreditGrant t ch num m opcode) s =
      .next { s with weav := { s.weav with early := s.weav.early ++ [(t, ch, num, m, opcode)] } }) ∧
    (∃ u, exec (.mcastData d) s = .next u ∧
      u.fld Fd.fabMcastDiscardCnt = min (2 ^ Fd.fabMcastDiscardCnt.w - 1) (s.fld Fd.fabMcastDiscardCnt + 1)) := by
  have hnone (t ch : Fin 16) (num : Nat) : s.instOf t ch num = none := by simp [State.instOf, hinsts]
  have hlive : ¬ s.inReset .weaver 0 (ch.val / 8) = true := by rw [hreset _ (by omega)]; decide
  constructor
  · intro hcoming
    refine congrArg Host.Outcome.next ((if_neg hlive).trans ?_)
    simp only [hnone]
    exact if_pos hcoming
  · refine ⟨s.bump Fd.fabMcastDiscardCnt, congrArg Host.Outcome.next ?_, fld_bump_self _ (by decide) (by decide) ..⟩
    simp only [hnone]

theorem weaverPacketsAreNoted : WeaverPacketsAreNoted := fun _ _ _ _ hreset =>
  ⟨fun h hnext => ⟨fun m opcode => ⟨fun hcode hm hopen => (grant_noted hreset h hnext m opcode hopen).1 hcode hm,
      fun hcode hopen => (grant_noted hreset h hnext m opcode hopen).2 hcode⟩, shardLanded_noted h hnext⟩,
    fun h hin hout _ ht hch hnum hepoch hbody hbelow => vote_noted hreset h hin hout ht hch hnum hepoch hbody hbelow,
    fun _ _ h hph => mcastData_lands h hph, fun _ _ h hph hme hsent => mcastCredit_noted h hph hme hsent, noted_without_inst hreset⟩

/-! ## Timeouts (R324, R333) -/

theorem weav_sendMsg (s : State) (dst : Nat) (m : Msg) (via : Option Nat) (cmd : Option (Nat × Nat)) : (s.sendMsg dst m via cmd).weav = s.weav := by
  obtain ⟨f, hf⟩ := State.send_msg_frame s dst m via cmd
  rw [hf]

theorem cells_sendMsg (s : State) (dst : Nat) (m : Msg) (via : Option Nat) (cmd : Option (Nat × Nat)) :
    (s.sendMsg dst m via cmd).cells = s.cells := by
  obtain ⟨f, hf⟩ := State.send_msg_frame s dst m via cmd
  rw [hf]

/-- Sending aborts places packets at the router and does nothing else. -/
theorem sendAborts_frame (s : State) (x : Inst) (code : Code) (cancel : Bool) : ∃ f, s.sendAborts x code cancel = { s with fab := f } := by
  unfold State.sendAborts
  induction x.peers generalizing s with
  | nil => exact ⟨s.fab, rfl⟩
  | cons j l ih =>
    obtain ⟨f, hf⟩ := State.send_msg_frame s (x.module j) (.ctl (.abort x.t x.ch x.num code cancel)) none none
    obtain ⟨f', hf'⟩ := ih (s.sendMsg (x.module j) (.ctl (.abort x.t x.ch x.num code cancel)) none none)
    exact ⟨f', by rw [List.foldl_cons, hf', hf]⟩

/-- The one receiver that holds a stream back is detached, and the stream ends (R324, R354). -/
theorem detachTimeout_ends (h : AtPhase s x k c 0x0604 ph) (hph : ph ≠ 0) {m : Nat} (hme : x.me = 0) (hsent : x.sent = k.u 32 5)
    (hback : x.holdsBack k m = true) (hattached : x.attached = [m]) (hbelow : isBelow k.mcFanout m (x.group.length + 1) m = true) :
    let y := { x with detached := x.detached ++ [(m, x.creditOf m)] }
    let z := ((s.bump Fd.fabDetachCnt).sendMsg (x.module m) (.ctl (.detach x.t x.ch x.num)) none (some (x.cell, x.cmd))).putInst y
    let g := (z.slicesBefore (k.addr 56) y.detachList.length).globalWrite (k.ctx c) (k.addr 56) y.detachList
    y.attached = [] → WentThrough g z → ∃ t, exec (.detachTimeout x.t x.ch x.num m) s = .next t ∧ InstEnded t g.st x k := by
  have hruns := running_of_atPhase h hph
  obtain ⟨-, hop, -, hinbox, -, hheld, hcell, -, hnum, hopcode, -⟩ := h
  rw [← hcell]
  intro y z g hnobody hg
  have hrunsZ : Running z y k := running_putInst hruns ⟨rfl, rfl, rfl, rfl, rfl, rfl⟩
    (congrArg WeavSt.insts ((weav_sendMsg ..).trans (State.weav_bump ..)))
    ((cmd_congr ((cells_sendMsg ..).trans (State.cells_bump ..)) ..).trans hruns.cmd) hruns.num hruns.cancelled
  have hwrite := write_of_wentThrough (w := ⟨z, x.cell, k, .go⟩) rfl hg
  obtain ⟨-, -, -, hweav, hcells⟩ := hg
  have hleast : k.u 32 5 ≤ y.leastCredit (k.u 32 5) := by simp [Inst.leastCredit, hnobody]
  have hown : (workOf z y k).own = (⟨⟨g.st, y.cell, k, .go⟩, y⟩ : WI).done y :=
    (mcSource_end (x := y) hop hme hsent hheld).trans ((if_pos hleast).trans (congrArg (fun w : W => (⟨w, y⟩ : WI).done y) hwrite))
  have hexec : exec (.detachTimeout x.t x.ch x.num m) s = .next (z.weave y) := by
    refine congrArg Host.Outcome.next ?_
    simp only [instOf_running hruns, hruns.cmd]
    refine (if_pos ⟨hop, hme, hback⟩).trans ?_
    simp only [hattached, List.filter_cons_of_pos hbelow, List.filter_nil, List.map_cons, List.map_nil, List.foldl_cons, List.foldl_nil, hheld]
    rw [← hheld]
  exact ⟨_, hexec, weave_done hrunsZ hinbox hown hweav hcells hnum (by rw [hopcode]; decide)⟩

/-- An `Inst` that waits for a peer ends with LINK_DOWN, and the peers are told (R333). -/
theorem collTimeout_ends (h : AtPhase s x k c op ph) (hop : op ≠ 0x0702) (hwaits : x.waitsPeer k = true) :
    ∃ t, exec (.collTimeout x.t x.ch x.num) s = .next t ∧ t.weav.insts = [] ∧
      t.cmd c x.cmd = some { k with finished := true, fault := k.fault <|> some cLinkDown } ∧
      t.fab.transit = (s.sendAborts x cLinkDown false).fab.transit := by
  obtain ⟨hinsts, -, -, -, -, -, hcell, hcmd, hnum, hopcode, -⟩ := h
  rw [← hcell] at hcmd ⊢
  let z := s.sendAborts x cLinkDown false
  obtain ⟨f, hf⟩ : ∃ f, z = { s with fab := f } := sendAborts_frame ..
  have hcmd' : z.cmd x.cell x.cmd = some k := (cmd_congr (by rw [hf]) ..).trans hcmd
  have hexec : exec (.collTimeout x.t x.ch x.num) s = .next (s.failInst x cLinkDown) := by
    refine congrArg Host.Outcome.next ?_
    simp only [instOf_single hinsts, hcmd]
    exact if_pos hwaits
  have hend : s.failInst x cLinkDown = (channelLeft z x).putCmd x.cell (endedBy k (some cLinkDown) false) :=
    endInsts_single (s := z) (by rw [hf]; exact hinsts) hcmd' (by rw [hopcode]; exact hop) _ _
  have hcmdT := cmd_channelLeft_putCmd (y := endedBy k (some cLinkDown) false) hcmd' hnum
  have hended : endedBy k (some cLinkDown) false = { k with finished := true, fault := k.fault <|> some cLinkDown } := by simp [endedBy]
  rw [hended] at hend hcmdT
  obtain ⟨r, hr⟩ := channelLeft_frame z x
  rw [hr] at hend hcmdT
  exact ⟨_, hexec.trans (congrArg Host.Outcome.next hend), rfl, hcmdT, rfl⟩

theorem weaverTimeoutsEnd : WeaverTimeoutsEnd := fun _ _ _ _ =>
  ⟨fun _ _ h hph => detachTimeout_ends h hph, fun _ _ => collTimeout_ends⟩

/-- Settles O36: each command's last step, each packet's one step, and the timeouts, for the one running `Inst`. -/
theorem theWeaverEndsAndNotes : Obligations.TheWeaverEndsAndNotes := by
  unfold Obligations.TheWeaverEndsAndNotes
  exact ⟨weaverCommandsEnd, weaverPacketsAreNoted, weaverTimeoutsEnd⟩

end

end Sys2Proof.Proofs
end
